-- ==== Sys2Proof/Word.lean ====
section
/-! DEFINITION. The words of the block: what the manual adds, shifts or masks is a bit vector, and a number that is only
counted or used as an index is a Nat. -/

namespace Sys2Proof

/-- One byte of the flash, of an image or of a cistern record. -/
abbrev Byte := BitVec 8

/-- The 64 bytes of one line (R15); byte `j` lies in bits `[8j+7:8j]` (R65). -/
abbrev Line := BitVec 512

/-- A flit on the wire (R63). -/
abbrev Flit := BitVec 128

/-- The four sideband parity bits of a flit (R64). -/
abbrev Par := BitVec 4

/-- A message header (R69, R72, R73, R74, R111, R117). -/
abbrev Header := BitVec 128

/-- A line address as a message carries it, PA[51:6] (R69). -/
abbrev WireAddr := BitVec 46

/-- A homed line, PA[43:6] (R17, R131). -/
abbrev LineAddr := BitVec 38

/-- A homed sector, PA[43:8] (R15, R201). -/
abbrev SectorAddr := BitVec 36

/-- A register value; a 32-bit register uses the low half of its 8-byte slot (R558). -/
abbrev Reg := BitVec 64

/-- A filter entry (R200). -/
abbrev Entry := BitVec 168

/-- A sharer vector, indexed by agent ID 0 to 23 (R124). -/
abbrev Agents := BitVec 24

/-- A journal record (R389). -/
abbrev Record := BitVec 256

/-- Bits `[lo+w-1:lo]` of a word. -/
def bits {n : Nat} (x : BitVec n) (lo w : Nat) : BitVec w := x.extractLsb' lo w

/-- A word with bits `[lo+w-1:lo]` replaced. -/
def setBits {n : Nat} (x : BitVec n) (lo w : Nat) (v : BitVec w) : BitVec n :=
  (x &&& ~~~((BitVec.allOnes w).setWidth n <<< lo)) ||| (v.setWidth n <<< lo)

/-- One bit as a one-bit word. -/
def b1 (b : Bool) : BitVec 1 := if b then 1 else 0

/-- Even parity: the XOR of all bits of `x`, counted over its lowest `n`. -/
def xorBits {w : Nat} (x : BitVec w) : Nat → Bool
  | 0 => false
  | n + 1 => xor (x.getLsbD n) (xorBits x n)

/-- Number of ones among the lowest `n` bits. -/
def onesBelow {w : Nat} (x : BitVec w) : Nat → Nat
  | 0 => 0
  | n + 1 => (if x.getLsbD n then 1 else 0) + onesBelow x n

/-- The positions of the ones of an agent vector, ascending. -/
def vecAgents (v : Agents) : List Nat := (List.range 24).filter (fun a => v.getLsbD a)

/-- The vector with exactly bit `a` set. -/
def vecOf (a : Nat) : Agents := (1 : Agents) <<< a

/-- The vector with bit `a` set as well. -/
def vecSet (v : Agents) (a : Nat) : Agents := v ||| vecOf a

/-- The vector with bit `a` cleared. -/
def vecClear (v : Agents) (a : Nat) : Agents := v &&& ~~~(vecOf a)

end Sys2Proof
end

