-- ==== Sys2Proof/Syntax.lean ====
section
/-! DEFINITION. The commands of the block: one constructor of `Instr` per row of spec/opcode_table.json.
The table gives its rows no bits and no operands; each operand below is what the row's rule reads from outside the block. -/

namespace Sys2Proof

/-- A message that leaves a port's asynchronous bridge (R249): the lane it arrived on, the channel lane it crossed (R67) and
its flits with their parity (R63, R64).
Lanes 0 to 15 are agent ports; lane 16 + 2h is the coherent lane of hub port h and 17 + 2h its non-caching lane. -/
structure Arrival where
  lane  : Nat
  vc    : BitVec 2
  flits : List (Flit × Par)
  deriving DecidableEq, Repr

/-- An answer of a memory controller at a memory port (R118). -/
structure MemArrival where
  port  : Nat
  flits : List (Flit × Par)
  deriving DecidableEq, Repr

/-- An access at the register port (R562): initiator (R516), byte offset in the window (R557), size of 4 or 8 bytes (R559), the value
written, and whether it is a read, which carries no value. -/
structure RegAccess where
  init : Nat
  off  : Nat
  size : Nat
  val  : Reg
  read : Bool := false
  deriving DecidableEq, Repr

/-- What a slot of the cistern reads as (R549, R552). -/
structure SlotImage where
  slot  : Nat
  bytes : List Byte
  deriving DecidableEq, Repr

/-- A part that fails self-test (R508). -/
inductive SelfFail where
  /-- A filter row of the on-die tier (`evgan = false`) or of the Evgan tier. -/
  | row (slice : Nat) (evgan : Bool) (set : Nat)
  /-- A spare row. -/
  | spare (slice : Nat) (evgan : Bool) (k : Nat)
  /-- A record decoder or tag-parity checker of banks 0 to 11. -/
  | decoder (slice bank : Nat)
  /-- The conflict table, the spillway stage or the decoder of bank 12. -/
  | conflict (slice : Nat)
  /-- The header parity checker of the slice's pipeline. -/
  | pipeline (slice : Nat)
  /-- The journal store or its decoder. -/
  | journal (slice : Nat)
  /-- An array or decoder of bank 14 or 15. -/
  | store (slice bank : Nat)
  /-- A router's parity checker. -/
  | router (r : Nat)
  deriving DecidableEq, Repr

/-- How a SEC-DED word decodes on arrival or on a read (R343). -/
inductive Ecc where
  | clean | corrected | uncorrectable
  deriving DecidableEq, Repr

/-- How the words of a request's store entry decode when the entry is read at issue: the two copies of its header, and its payload (R343). -/
structure StoreRead where
  copyA   : Ecc
  copyB   : Ecc
  payload : Ecc
  deriving DecidableEq, Repr

/-- A transaction passes the pipeline of a slice, where a later stage may find its header's parity wrong (R342). -/
structure Pass where
  slice   : Nat
  hdrFail : Bool
  deriving DecidableEq, Repr

/-- The commands. Each constructor's docstring names the rule of its row. -/
inductive Instr where
  /-- R487 -/ | resetAssert
  /-- R485 -/ | resetDeassert
  /-- R498 -/ | flashResetWaitEnd
  /-- R503: the copy (false: A, true: B) and its 64 header bytes. -/ | imageHeaderReadDone (copyB : Bool) (hdr : List Byte)
  /-- R505: the bytes of the copy under trial from offset 0. -/ | imageCopyReadDone (bytes : List Byte)
  /-- R507 -/ | evganProbeTimeout (slice : Nat)
  /-- R552 -/ | cisternReadDone (slots : List SlotImage)
  /-- R508 -/ | selftestDone (fails : List SelfFail)
  /-- R491 -/ | arrayFillDone
  /-- R493 -/ | memoryPortUp (port : Nat)
  /-- R514 -/ | memWaitExpiry
  /-- R511 -/ | fillWriteSend (port : Nat)
  /-- R512 -/ | fillWriteTimeout (port : Nat)
  /-- R513 -/ | blockReady
  /-- R430 -/ | linkUp (agent : Nat)
  /-- R431 -/ | linkDown (agent : Nat)
  /-- R433 -/ | linkRetrainPause (agent : Nat)
  /-- R345 -/ | memoryPortDown (port : Nat)
  /-- R431 -/ | hpSurprise (agent : Nat)
  /-- R450 -/ | hpRetireReq (agent : Nat)
  /-- R450 -/ | hpRetireCancel (agent : Nat)
  /-- R450 -/ | retireRequestsDrained (agent : Nat)
  /-- R450 -/ | retireSluiceClose (agent : Nat)
  /-- R450 -/ | hpPermitRise (agent : Nat)
  /-- R443 -/ | pmSleepReqFall (agent : Nat)
  /-- R441 -/ | sleepGrantRise (agent : Nat)
  /-- R569 -/ | evclkLoss
  /-- R234: the readings of sensors A and B; none: that conversion failed (R574). -/ | tempReading (slice : Nat) (a b : Option Int)
  /-- R251: the levels of PM_SLEEP_REQ sampled in the frame that ends. -/ | frameEdge (pmSleepReq : BitVec 16)
  /-- R276 -/ | meterRefill
  /-- R229 -/ | placementWindowClose (slice : Nat)
  /-- R228 -/ | decayVisit (slice : Nat)
  /-- R372 -/ | leakEdge
  /-- R553 -/ | secondTick
  /-- R547 -/ | checkpointDue
  /-- R319 -/ | streamGapExpiry (agent : Nat)
  /-- R310 -/ | watchEntryExpiry (slice pos : Nat)
  /-- R545: counter `8 * slice + k`, or 128 for the cycle counter. -/ | pmcWrap (n : Nat)
  /-- R149 -/ | rdShared (a : Arrival)
  /-- R149 -/ | rdOwn (a : Arrival)
  /-- R149 -/ | upgrade (a : Arrival)
  /-- R149 -/ | rdCur (a : Arrival)
  /-- R149 -/ | claim (a : Arrival)
  /-- R301 -/ | atomNear (a : Arrival)
  /-- R305 -/ | atomFar (a : Arrival)
  /-- R155 -/ | evictClean (a : Arrival)
  /-- R154 -/ | wbDirty (a : Arrival)
  /-- R440 -/ | agentSleep (a : Arrival)
  /-- R316 -/ | wrFull (a : Arrival)
  /-- R317 -/ | wrPart (a : Arrival)
  /-- R327 -/ | wrStream (a : Arrival)
  /-- R333 -/ | fence (a : Arrival)
  /-- R268: the next request that the slice samples, if it came on the lane. -/ | requestSample (slice lane : Nat)
  /-- R137, with how the stored words decode. -/ | slotIssue (pass : Pass) (slot : Nat) (store : StoreRead)
  /-- R135 -/ | waiterResume (pass : Pass) (slot : Nat)
  /-- R588 -/ | homeWaiterResume (pass : Pass) (tag : Nat)
  /-- R197, with whether a later stage finds the header's parity wrong (R342) -/ | replayIssue (slice : Nat) (hdrFail : Bool)
  /-- R182 -/ | spillwayIssue (pass : Pass)
  /-- R181 -/ | stageEntryObtain (slice tag : Nat)
  /-- R213 -/ | evganWriteEnter (slice tag : Nat)
  /-- R213 -/ | evganWriteDrain (slice : Nat)
  /-- R205 -/ | correctionWriteback (slice : Nat)
  /-- R367: whether the reread finds any error of the row itself. -/ | wordReread (slice : Nat) (rowError : Bool)
  /-- R368 -/ | rowRemap (slice : Nat)
  /-- R231 -/ | placementMoveStart (slice : Nat)
  /-- R232 -/ | placementMoveCommit (slice : Nat)
  /-- R144 -/ | rspI (a : Arrival)
  /-- R144 -/ | rspS (a : Arrival)
  /-- R147 -/ | rspCross (a : Arrival)
  /-- R144 -/ | rspIData (a : Arrival)
  /-- R417 -/ | rspReport (a : Arrival)
  /-- R418 -/ | reportApply (slice : Nat)
  /-- R420 -/ | reportRepeat (slice agent : Nat)
  /-- R157 -/ | ackGo (a : Arrival)
  /-- R157 -/ | holdEnd (slice tag : Nat)
  /-- R435 -/ | capOffer (a : Arrival)
  /-- R144 -/ | memData (m : MemArrival)
  /-- R154 -/ | memCmp (m : MemArrival)
  /-- R101 -/ | snoopContractExpiry (slice tag agent line : Nat)
  /-- R165 -/ | resendExpiry (slice tag agent line : Nat)
  /-- R167 -/ | finalWaitExpiry (slice tag agent line : Nat)
  /-- R94 -/ | ackgoWaitExpiry (slice tag : Nat)
  /-- R147 -/ | wbdirtyWaitExpiry (slice tag agent line : Nat)
  /-- R145 -/ | crossingWaitExpiry (slice tag agent line : Nat)
  /-- R107 -/ | flushContractExpiry (slice agent : Nat)
  /-- R323 -/ | gatherWindowClose (slice tag : Nat)
  /-- R322 -/ | mergeEntryTake (slice tag : Nat)
  /-- R302 -/ | aluExecute (slice tag : Nat)
  /-- R197 -/ | watchdogFire (slice tag : Nat)
  /-- R398: the failed slice. -/ | takeoverMapWrite (failed : Nat)
  /-- R398 -/ | takeoverScan (failed : Nat)
  /-- R408 -/ | takeoverOpen (failed : Nat)
  /-- R411, of the failed slice -/ | takeoverReplay (pass : Pass) (slot : Nat)
  /-- R404 -/ | zeroingWalkStep (failed : Nat)
  /-- R421 -/ | sweepEnd (slice : Nat)
  /-- R483: router, lane and the hclk after the edge of the change. -/ | bypassLaneChange (router lane hclk : Nat)
  /-- R390: the holding slice and how the record decodes. -/ | journalRecordReceive (slice : Nat) (ecc : Ecc)
  /-- R329 -/ | streamReadyReport (slice tag : Nat)
  /-- R329 -/ | streamReleaseNotice (slice tag : Nat)
  /-- R333 -/ | fenceNotice (slice tag : Nat)
  /-- R293 -/ | laneCreditReturn (lane slice : Nat) (c0 : Bool)
  /-- R339: the routers of the hop, and whether the refused flit is the one that was refused last on it (R340). -/ | flitHopRetry (src dst : Nat) (again : Bool)
  /-- R238 -/ | rinvStart (w : RegAccess)
  /-- R239 -/ | rinvSetRead (slice : Nat)
  /-- R239 -/ | rinvTransaction (pass : Pass)
  /-- R381 -/ | scrubStart (w : RegAccess)
  /-- R382 -/ | scrubSetRead (slice : Nat)
  /-- R382 -/ | scrubRecovery (pass : Pass)
  /-- R361 -/ | orphanRecovery (pass : Pass)
  /-- R364 -/ | recountSetRead (slice : Nat)
  /-- R446 -/ | agentwalkStart (w : RegAccess)
  /-- R446 -/ | agentwalkSetRead (slice : Nat)
  /-- R447 -/ | agentwalkTransaction (pass : Pass)
  /-- R458 -/ | lossSweepSetRead (slice : Nat)
  /-- R458 -/ | lossSweepTransaction (pass : Pass)
  /-- R459 -/ | lossDone (agent : Nat)
  /-- R531 -/ | meminitStart (w : RegAccess)
  /-- R531 -/ | meminitTransaction (pass : Pass)
  /-- R533: the debug read in a selvedge slot of the slice. -/ | debugRead (slice : Nat)
  /-- R244 -/ | filterDisable (w : RegAccess)
  /-- R246 -/ | filterStaleEnable (w : RegAccess)
  /-- R245 -/ | filterRebuild (w : RegAccess)
  /-- R378 -/ | flipArm (w : RegAccess)
  /-- R429 -/ | takeoverForce (w : RegAccess)
  /-- R427 -/ | sliceReturn (w : RegAccess)
  /-- R428: the returning slice and whether its self-test passes. -/ | returnComplete (slice : Nat) (testOk : Bool)
  /-- R520 -/ | cfgBegin (init : Nat)
  /-- R519 -/ | cfgCommit (init : Nat)
  /-- R520 -/ | cfgRollback (init : Nat)
  /-- R521 -/ | cfgTimeout (init : Nat)
  /-- R518 -/ | rwlWrite (w : RegAccess)
  /-- R523 -/ | drainMaskWrite (w : RegAccess)
  /-- R542 -/ | logRdWrite (w : RegAccess)
  /-- R535 -/ | evtPendClear (w : RegAccess)
  /-- R546 -/ | pmcSnap (w : RegAccess)
  /-- R546 -/ | pmcFreeze (w : RegAccess)
  /-- R547 -/ | cisternSave (w : RegAccess)
  /-- R553 -/ | calendarWrite (w : RegAccess)
  /-- R554 -/ | nvmRead (w : RegAccess)
  /-- R554 -/ | nvmProgram (w : RegAccess)
  /-- R554 -/ | nvmErase (w : RegAccess)
  /-- R555 -/ | nvmReload (w : RegAccess)
  /-- R548 -/ | nvmItemStart
  /-- R550: the bytes a flash read returns; none after an erase or program. -/ | flashOpComplete (data : List Byte)
  /-- R551 -/ | flashOpTimeout
  /-- R525: the boundary (0 to 7) and whether the target completes the transfer in its 4 hclk. -/ | busTransferGrant (boundary : Nat) (completes : Bool)
  /-- R527 -/ | busTimeout
  /-- R540 -/ | logCollect
  /-- R562: a write, or a read, for which the table has no row of its own -/ | registerWrite (w : RegAccess)
  /-- R450 -/ | hpPermitFall (agent : Nat)
  deriving DecidableEq, Repr

end Sys2Proof
end

