-- ==== Sys2Proof/Config.lean ====
section
/-! DEFINITION. The free values: what the manual leaves open and no statement may know, and the fixed sizes of the part. -/

namespace Sys2Proof

/-- The 32 check bits of a journal record: R343 fixes the shape of the code, R386 the number of bits, and no rule their values.
A free value, UNVERIFIED (log entry 2). -/
opaque Config.journalCheck : Record → BitVec 32

/-- Whether an odd number, three or more, of inverted check bits equals a data column: R343 gives the columns odd weight, R380 says the
decoder may then invert a good data bit, and no rule lists the columns. A free value, UNVERIFIED (log entry 2). -/
opaque Config.heavyFlipCorrects : BitVec 8 → Bool

/-- The data bit, of 64, that the decoder then inverts. A free value, UNVERIFIED (log entry 2). -/
opaque Config.heavyFlipBit : BitVec 8 → Nat

/-- A value that the manual does not state and that is fresh at each use. UNVERIFIED (log entry 2). -/
opaque Config.freeValue : Nat → Reg

/-- The data of a line that is only known to be poisoned (R171, R356): no rule states it. UNVERIFIED (log entry 2). -/
opaque Config.freeLine : Nat → Line

/-- Frames per millisecond (R18). -/
def Config.framesPerMs : Nat := 62500

/-- Tags per slice (R128). -/
def Config.tags : Nat := 1024

/-- On-die sets and Evgan sets of a slice (R209). -/
def Config.ondieSets : Nat := 4096
@[inherit_doc Config.ondieSets] def Config.evganSets : Nat := 16384

/-- Stage entries, Evgan write-buffer entries, request-store entries, merge entries (R179, R213, R290, R321). -/
def Config.stageEntries : Nat := 8
@[inherit_doc Config.stageEntries] def Config.writeBuffer : Nat := 32
@[inherit_doc Config.stageEntries] def Config.storeEntries : Nat := 608
@[inherit_doc Config.stageEntries] def Config.mergeEntries : Nat := 32

end Sys2Proof
end

