-- ==== Sys2Proof/Machine/State.lean ====
section
/-! DEFINITION. The state of the block as plain data, the fault and refusal reasons, and the state after reset.
INVENTORY.md lists every piece with the rule that names it. -/

namespace Sys2Proof.Machine

/-- A table: (index, value) pairs, indices strictly rising. -/
abbrev Tbl (α : Type) := List (Nat × α)

/-- The two fusings (R5). -/
inductive Fusing where
  | kr16 | kr16x8
  deriving DecidableEq, Repr

/-- The requests (R68, R88). -/
inductive ReqOp where
  | rdShared | rdOwn | upgrade | rdCur | claim | atomNear | atomFar | evictClean | agentSleep
  | wrFull | wrPart | wrStream | fence | wbDirty
  deriving DecidableEq, Repr

/-- A request with the fields of its header and payload (R69, R79, R82). -/
structure Req where
  op      : ReqOp := .rdShared
  lane    : Nat := 0
  nc      : Bool := false
  src     : Nat := 0
  rtid    : BitVec 10 := 0
  tenant  : Nat := 0
  cls     : Nat := 0
  addr    : WireAddr := 0
  poison  : Bool := false
  seq     : BitVec 16 := 0
  atop    : Nat := 0
  asize   : Nat := 0
  aoff    : Nat := 0
  data    : Line := 0
  mask    : BitVec 64 := 0
  operand : BitVec 64 := 0
  swap    : BitVec 64 := 0
  /-- A `Claim` marked by the streaming detector (R319). -/
  marked  : Bool := false
  /-- A `Fence` that the tracker marked clear (R332). -/
  clear   : Bool := false
  /-- The port-arrival frame (R249, R267). -/
  arrival : Nat := 0
  /-- The frame in which its port took it: earlier than `arrival` when it waited in its lane (R292, R294). -/
  taken   : Nat := 0
  /-- The header as it arrived. -/
  hdr     : Header := 0
  /-- Its flits with their parity as they arrived, until its slice samples it (R475). -/
  flits   : List (Flit × Par) := []
  deriving DecidableEq, Repr

/-- The colors of the meter (R278). -/
inductive Color where
  | green | yellow | red
  deriving DecidableEq, Repr

/-- A request that the weir holds: queued, held red, or on the C0 path (R268, R282). -/
structure QReq where
  req     : Req := {}
  /-- The logical slice whose line (or service) it asks for. -/
  home    : Nat := 0
  /-- The tenant it is served as (R54). -/
  ten     : Nat := 0
  /-- The effective class (R56). -/
  cls     : Nat := 1
  /-- The sampled cost K (R272). -/
  cost    : Nat := 0
  color   : Color := .green
  /-- The finish time F, modulo 2^32 (R284). -/
  fin     : Nat := 0
  /-- It occupies a C0 credit of its lane (R291). -/
  c0pool  : Bool := false
  /-- The request was red and later recolored (R278). -/
  held    : Bool := false
  /-- Inverted check bits of the first word of the two copies of its stored header (R343, R378, bank 15). -/
  flip    : BitVec 8 := 0
  flip2   : BitVec 8 := 0
  /-- Its place in the order of sampling (R324). -/
  order   : Nat := 0
  /-- Its entry: 0 to 607 of the request store (R290), 608 to 799 of the writeback store (R189). -/
  entry   : Nat := 0
  deriving DecidableEq, Repr

/-- A request in flight between a port and a slice (R249, R253). -/
structure NetReq where
  /-- The physical slice its head names (R466). -/
  dest : Nat
  /-- The logical slice it belongs to. -/
  home : Nat
  req  : Req
  /-- The number of its packet. -/
  id : Nat := 0
  /-- Its packet has been given to the network. -/
  sent : Bool := false
  /-- The frame in which its last flit reached the slice's ingress (R249). -/
  reached : Option Nat := none
  deriving DecidableEq, Repr

/-- The line snoops (R97) and the range snoops (R104, R105). -/
inductive Snoop where
  | inv | down | back | report | flush
  deriving DecidableEq, Repr

/-- The waits on an agent (R165). -/
inductive WaitKind where
  | first | resent | final | ackGo | wbCross | wbRspI | range
  deriving DecidableEq, Repr

/-- One wait on an agent: which line of the sector (0 for a request), when its contract started, its length and its count of
expiries (R164 to R167). -/
structure Wait where
  agent : Nat
  j     : Nat := 0
  kind  : WaitKind
  snp   : Snoop := .inv
  start : Nat
  len   : Nat
  count : Nat := 0
  deriving DecidableEq, Repr

/-- The memory requests (R118). -/
inductive MemOp where
  | rd | wr | wrRd | wrPoison
  deriving DecidableEq, Repr

/-- A memory request whose answer is awaited (R120): what it carried, when it is or was sent, whether its data is discarded
(R61) and whether it was already sent a second time (R344). -/
structure MemWait where
  op      : MemOp
  j       : Nat := 0
  data    : Line := 0
  poison  : Bool := false
  discard : Bool := false
  sent    : Nat := 0
  again   : Bool := false
  deriving DecidableEq, Repr

/-- A dirty line that a transaction took from an agent (R144, R355, R356). -/
structure Dirty where
  agent  : Nat
  j      : Nat := 0
  data   : Line
  poison : Bool
  /-- The synthesized answer of a lost agent (R171). -/
  synth  : Bool := false
  /-- A home transaction has sent its write to memory (R182). -/
  written : Bool := false
  /-- Inverted check bits of the first word of its data buffer (R343, R378, bank 14). -/
  flip   : BitVec 8 := 0
  /-- Its data buffer was read with an uncorrectable word (R343, R350). -/
  bad    : Bool := false
  deriving DecidableEq, Repr

/-- The place of a filter entry (R210). -/
inductive Loc where
  | ondie (set way : Nat) | evgan (set way : Nat) | stage (i : Nat)
  deriving DecidableEq, Repr

/-- The home-side state of a line (R121, R122). -/
inductive LineState where
  | untracked | shared (v : Agents) | owned (a : Nat)
  deriving DecidableEq, Repr

/-- What a probe knows of a line: its state, or that its record is lost (R123, R208). -/
inductive Known where
  | found (st : LineState) | lost
  deriving DecidableEq, Repr

/-- The transaction states (R136, R336). -/
inductive TState where
  | free | waiting | probing | snooping | memory | ackwait | holding | alu | gather | orderwait | home
  deriving DecidableEq, Repr

/-- Why the home runs a transaction on its own account. -/
inductive HomeKind where
  /-- R182: the stage entry that waits for the way. -/  | spill (stage : Nat)
  /-- R239 -/ | rinv
  /-- R447 -/ | awalk (agent : Nat)
  /-- R458: the agents the sweep covers. -/ | lsweep (agents : Agents)
  /-- R531 -/ | meminit
  /-- R382: line `j` of the sector. -/ | scrub (j : Nat)
  /-- R361: the slice of the orphaned entry, and the candidates still to do. -/ | orphan (slice : Nat) (rest : List SectorAddr)
  /-- R416 -/ | sweep
  deriving DecidableEq, Repr

/-- A conflict-table entry with the transaction's headers, answers and data buffers (R131, R188). -/
structure Txn where
  home      : Option HomeKind := none
  st        : TState := .free
  req       : Req := {}
  ten       : Nat := 0
  cls       : Nat := 3
  color     : Color := .green
  held      : Bool := false
  cost      : Nat := 0
  line      : LineAddr := 0
  /-- Lines to lock: 1 for a request with a line, 4 for a sector, 0 for `AgentSleep` and `Fence` (R132). -/
  want      : Nat := 1
  /-- Lines now locked (R588). -/
  locked    : Nat := 0
  /-- The frame from which it may resume with the line just released to it (R135). -/
  resumeAt  : Option Nat := none
  /-- Issue frame and slot of the transaction that released the line (R255). -/
  relKey    : Nat × Nat := (0, 0)
  issue     : Nat := 0
  slot      : Nat := 0
  passed    : Nat := 0
  promoted  : Bool := false
  probed    : Bool := false
  loc       : Option Loc := none
  /-- The record at frame P of each line the transaction works on. -/
  known     : List Known := []
  recovery  : Bool := false
  bcast     : Bool := false
  /-- A rebuild sweep over its range has ended while it was in broadcast-snoop mode (R415). -/
  swept     : Bool := false
  replayed  : Bool := false
  waits     : List Wait := []
  taken     : Agents := 0
  /-- Of the agents taken, which line's answer was taken (R103, R197). -/
  answers   : List (Nat × Nat) := []
  rspS      : Bool := false
  /-- Agents, with the line, whose wait of R145 has expired (R174). -/
  gone      : List (Nat × Nat) := []
  dirties   : List Dirty := []
  /-- The `WbDirty` requests absorbed into it (R151 to R153). -/
  absorbed  : List Req := []
  mems      : List MemWait := []
  memData   : Option (Line × Bool) := none
  /-- Inverted check bits of the first word of its memory data buffer (R343, R378, bank 14). -/
  dflip     : BitVec 8 := 0
  /-- The block created poison for its line (R350), or counted poison that passes through it (R351). -/
  madePoison : Bool := false
  seenPoison : Bool := false
  /-- It has sent a snoop (R311). -/
  snooped   : Bool := false
  memDone   : Bool := false
  cmpSent   : Bool := false
  far       : Bool := false
  holdEnd   : Option Nat := none
  merge     : Option Nat := none
  window    : Option Nat := none
  winClosed : Bool := false
  /-- The writes merged into it (R325). -/
  merged    : List Req := []
  wdStart   : Option Nat := none
  wdFired   : Bool := false
  wdSkip    : Nat := 0
  hdrAborts : Nat := 0
  resSt     : BitVec 2 := 0
  resVec    : Agents := 0
  claim     : Option Nat := none
  /-- A claim of R262 found no stage entry free and is repeated. -/
  claimDue  : Bool := false
  waitStage : Bool := false
  waitWbuf  : Bool := false
  /-- The frame in which it last found the stage or the write buffer full (R181, R263). -/
  waitAt    : Nat := 0
  reqLost   : Bool := false
  dAt       : Nat := 0
  noticed   : Bool := false
  /-- The decision on an `AgentSleep`: granted or not (R440). -/
  granted   : Option Bool := none
  /-- Its record is already written (it waited for the write buffer, R213). -/
  recDone   : Bool := false
  deriving DecidableEq, Repr

/-- A stage entry (R179): its word, its set index in the tier where its victim is chosen, the tenant whose masks apply, the
frame it entered, and whether it is taken or only claimed (R262). -/
structure Stage where
  used    : Bool := false
  claimed : Bool := false
  word    : Entry := 0
  evgan   : Bool := true
  set     : Nat := 0
  ten     : Nat := 0
  since   : Nat := 0
  /-- The spillway victim chosen for it: its place and its sector (R180). -/
  victim  : Option (Loc × SectorAddr) := none
  deriving DecidableEq, Repr

/-- A merge-buffer entry (R321). -/
structure Merge where
  used   : Bool := false
  tag    : Nat := 0
  line   : LineAddr := 0
  data   : Line := 0
  mask   : BitVec 64 := 0
  poison : Bool := false
  /-- A staged write of R303, holding its entry until `MemCmp`. -/
  staged : Bool := false
  /-- The epoch of the tag of a staged write. -/
  ep     : BitVec 2 := 0
  /-- Its `MemCmp` has arrived in this frame, at whose end the entry frees (R303). -/
  done   : Bool := false
  flip   : BitVec 8 := 0
  deriving DecidableEq, Repr

/-- A watch-table entry (R310). -/
structure Watch where
  line   : LineAddr
  agent  : Nat
  expiry : Nat
  deriving DecidableEq, Repr

/-- A move of the placement engine (R231). -/
structure Move where
  sector  : SectorAddr
  start   : Nat
  evSet   : Nat
  evWay   : Nat
  onSet   : Nat
  onWay   : Option Nat
  /-- The sector to demote, when the on-die way is not free. -/
  demote  : Option SectorAddr
  /-- The way found for the demotion (R231). -/
  toWay   : Option Nat := none
  /-- A line of a moving sector was locked since the start (R232). -/
  dirty   : Bool := false
  /-- The move ends at the end of this frame (R231 step 3). -/
  ending  : Bool := false
  deriving DecidableEq, Repr

/-- A remap of a row that is under way (R368): its tier and set, the remap word, its source, the frame it began, and whether a scrub's
reread called for it (R384). -/
structure RowCopy where
  ev     : Bool
  set    : Nat
  k      : Nat
  source : Nat
  start  : Nat
  scrub  : Bool
  deriving DecidableEq, Repr

/-- A timer that has expired in this frame (R14, R161). -/
inductive Expiry where
  /-- A wait of a transaction on an agent. -/ | wait (slice tag agent j : Nat) (kind : WaitKind)
  /-- R197 -/ | watchdog (slice tag : Nat)
  /-- R323 -/ | window (slice tag : Nat)
  deriving DecidableEq, Repr

/-- A timer of a port or of start-up that expires at the end of the frame (R14): a configuration transaction (R521), the probe of the Evgan
tier (R507), MEM_WAIT (R493), a fill write (R512), a flash operation (R551, R554); and what a rule puts at the end of the frame: the close of
a placement window (R229) and the end of a sweep (R421). -/
inductive Lapse where
  | config (init : Nat) | probe | memWait | fill (port : Nat) | flash | place (slice : Nat) | sweep (slice : Nat)
  deriving DecidableEq, Repr

/-- Work for the selvedge slot (R530): a replay of R197, one of R408, a home waiter with its rank, a spillway, an orphan recovery, a step of
the maintenance engine, a scrub's write-back and its recovery of a line, a reread, a remap, memory initialization of a sector, the self-test
of a slice that returns. -/
inductive Selv where
  | selftest | replay (tag : Nat) | takeover | waiter (tag rank : Nat) | spill (i : Nat) | orphan (l : Loc) | engine | fix (l : Loc)
  | lost (l : LineAddr) | reread (l : Loc) | remap (ev : Bool) (set : Nat) | init (x : SectorAddr)
  deriving DecidableEq, Repr

/-- The operations of the maintenance engine (R448). -/
inductive MaintOp where
  | lossSweep (agents : Agents) | agentWalk (agent : Nat) | recount | scrub | rinv
  deriving DecidableEq, Repr

/-- The maintenance engine (R239, R364, R382, R446, R448, R458). -/
structure Maint where
  running : Option MaintOp := none
  queue   : List MaintOp := []
  /-- Sets read: on-die sets, then Evgan sets, then the stage. -/
  pos     : Nat := 0
  /-- Sectors found that still need their transaction. -/
  found   : List SectorAddr := []
  /-- The retry list of R240. -/
  retry   : List SectorAddr := []
  /-- The frame in which the operation started. -/
  since   : Nat := 0
  shadow  : Tbl Nat := []
  /-- A recovery started during the recount walk (R364). -/
  again   : Bool := false
  /-- Corrected words of a scrub that wait for their write-back (R382 step 4). -/
  fixes   : List Loc := []
  /-- Lines a scrub found uncorrectable (R382 step 5). -/
  lostAt  : List LineAddr := []
  /-- Rereads, and remaps of rows, that this scrub called for (R367, R384). -/
  rereads : List Loc := []
  rows    : List (Bool × Nat) := []
  deriving DecidableEq, Repr

/-- A rebuild sweep (R416). -/
structure Sweep where
  tag      : Nat
  /-- Agents whose report lost payloads (R420). -/
  cut      : Agents := 0
  /-- Of these, agents whose last report message has arrived. -/
  lastSeen : Agents := 0
  deriving DecidableEq, Repr

/-- The takeover of a slice, kept with the failed slice (R398). -/
structure Takeover where
  active   : Bool := false
  frame0   : Nat := 0
  mapped   : Bool := false
  scanPos  : Nat := 0
  /-- Requests of the stores whose place in the order of sampling is below this have had their headers read. -/
  hdrNext  : Nat := 0
  opened   : Bool := false
  /-- Sets below this position have been zeroed by the walker (R404). -/
  zeroPos  : Nat := 20480
  /-- Sets above it that a probe, an allocation or a report zeroed. -/
  zeroed   : List Nat := []
  badBank  : Option Nat := none
  /-- Requests sampled for the range before it opens (R399). -/
  waiting  : List QReq := []
  returning : Bool := false
  /-- The checkers of the returning slice have been tested (R428). -/
  tested    : Bool := false
  /-- Tags on the replay list of R408. -/
  replays  : List Nat := []
  deriving DecidableEq, Repr

/-- A response of an agent inside the block. -/
inductive RspOp where
  | rspI | rspS | rspCross | rspIData | rspReport | ackGo
  deriving DecidableEq, Repr

/-- An answer toward a slice, as its port took it. -/
inductive Answer where
  | response (op : RspOp) (a : Arrival)
  | memData (m : MemArrival)
  | memCmp (m : MemArrival)
  deriving DecidableEq, Repr

/-- A response, `AckGo`, report or memory answer that has passed its port and is on its way to a slice, or waits at its ingress to be
sampled (R249): the physical slice that its head names (R466), the edge router and DPORT of its port, and as for a request its packet. -/
structure Inbound where
  dest    : Nat
  place   : Nat × Nat
  msg     : Answer
  id      : Nat := 0
  sent    : Bool := false
  reached : Option Nat := none
  deriving DecidableEq, Repr

/-- What is taken in a frame's first hclk and did not fit in the 128 records of its frame: it is taken in the next (R388). -/
inductive Late where
  | answer (m : Answer)
  /-- The sampling of a `WbDirty` that a transaction absorbs. -/
  | sample (n : NetReq)
  /-- The loss of an agent in the transaction of a tag (R171, R455, R456). -/
  | loss (slice tag agent : Nat)
  deriving DecidableEq, Repr

/-- Work of the transaction of a tag that a rule assigns to a later frame (R250). -/
inductive Act where
  | specRead | probe | act | release
  | resend (snp : Snoop) (agent j : Nat) | openFinal (agent j : Nat) | reAck | reCross (agent j : Nat)
  /-- A memory request that is sent again (R344). -/
  | resendMem (m : MemWait)
  /-- The slice's own answers for a failed memory port (R345). -/
  | portDown
  deriving DecidableEq, Repr

/-- An entry of the agenda. -/
structure Todo where
  frame : Nat
  slice : Nat
  tag   : Nat
  act   : Act
  deriving DecidableEq, Repr

/-- One home slice: the stores of the logical slice with its number, and the engine of the physical slice with its number. -/
structure Slice where
  txns      : Tbl Txn := []
  epochs    : Tbl (BitVec 2) := []
  /-- Waiter chains: a line and the tags that wait for it, in order (R133). -/
  chains    : List (LineAddr × List Nat) := []
  ondie     : Tbl Entry := []
  evgan     : Tbl Entry := []
  stage     : Tbl Stage := []
  /-- Replacement words, each with its parity bit (bit 64), and heat words, a counter with its parity bit (bit 3) (R213, R214). -/
  replOn    : Tbl (BitVec 65) := []
  replEv    : Tbl (BitVec 65) := []
  heat      : Tbl (BitVec 4) := []
  /-- The Evgan write buffer: entry key and word, oldest first (R213). -/
  wbuf      : List (Nat × Entry × Nat) := []
  presence  : Tbl Nat := []
  theta     : Nat := 4
  hOn       : Nat := 0
  hEv       : Nat := 0
  promote   : List SectorAddr := []
  /-- Windows of R229 closed so far. -/
  windows   : Nat := 0
  move      : Option Move := none
  /-- Remaps of rows under way (R368). -/
  copies    : List RowCopy := []
  /-- Ways freed in this frame (R207). -/
  freed     : List Loc := []
  decaySet  : Nat := 0
  decayDue  : Nat := 0
  /-- Words to write back corrected, with the frame of the read (R205). -/
  correct   : List (Nat × Loc) := []
  /-- Words to reread (R367). -/
  reread    : List Loc := []
  /-- Hard-failed rows (R367): tier and set. -/
  hardRows  : List (Bool × Nat) := []
  /-- Entries whose tag parity failed, awaiting an orphan recovery (R359). -/
  orphans   : List Loc := []
  /-- Of entries whose recovery has begun, the candidates for which no home tag was free (R361). -/
  orphanRest : List (Loc × List SectorAddr) := []
  /-- Stage entries whose spillway transaction is queued (R180). -/
  spillQ    : List Nat := []
  c0q       : List QReq := []
  queued    : List QReq := []
  redHold   : List QReq := []
  /-- The virtual time V, modulo 2^32 (R284). -/
  vtime     : Nat := 0
  cBkt      : Tbl Int := []
  pBkt      : Tbl Int := []
  c0credit  : Tbl Nat := []
  /-- Credits whose entries have freed but have not reached their lanes: lane and pool (R293). -/
  returning : List (Nat × Bool) := []
  slots     : BitVec 16 := 0
  /-- The work that is ready for the selvedge slot, each with the frame since which it is (R529). -/
  selv      : List (Selv × Nat) := []
  evUsed    : Nat := 0
  /-- An Evgan access after the lookups has been granted in this frame (R236). -/
  evLate    : Bool := false
  recsSent  : Nat := 0
  deferring : Bool := false
  /-- Tags whose changes did not fit in this frame (R388). -/
  deferTags : List Nat := []
  predictor : Tbl (BitVec 2) := []
  rises     : List LineAddr := []
  falls     : List LineAddr := []
  watch     : Tbl Watch := []
  merges    : Tbl Merge := []
  /-- ALU transactions that waited for a merge entry when the frame's accesses ended (R302, R303). -/
  aluWaits  : List Nat := []
  /-- Inverted check bits of the stored conflict-table words, by tag (R378, bank 12). -/
  tflips    : Tbl (BitVec 8) := []
  journal   : Tbl Record := []
  invalid   : List Nat := []
  /-- Records that failed to decode once and were asked for again (R391). -/
  asked     : List Nat := []
  runnel    : List (Nat × Nat × Record) := []
  /-- Tags whose record the buddy has asked for again, with the frame (R390). -/
  resends   : List (Nat × Nat) := []
  /-- Inverted check bits of stored journal records (R378, bank 13). -/
  jflips    : Tbl (BitVec 8) := []
  /-- Records with an uncorrectable error since the last leak edge (R391). -/
  jrecErrs  : List Nat := []
  replayQ   : List Nat := []
  maint     : Maint := {}
  /-- Operations in progress whose summary fields this engine has cleared (R384). -/
  summed    : List MaintOp := []
  initPos   : Option Nat := none
  initFound : List SectorAddr := []
  sweep     : Option Sweep := none
  /-- A sweep of the range is due and waits for a home tag (R416). -/
  sweepDue  : Bool := false
  /-- Report records were applied in this frame (R417). -/
  applied   : Bool := false
  reports   : List (Nat × List (BitVec 48)) := []
  tk        : Takeover := {}
  evq       : List (BitVec 128) := []
  /-- Sets of a bank with an uncorrectable error since the last leak edge: bank and set (R370). -/
  ucSets    : List (Nat × Nat) := []
  rebuildOn : Bool := false
  deriving DecidableEq, Repr

/-- The steps of an orderly retirement (R450). -/
inductive Retire where
  | none | drain | walk | evictions | closed
  deriving DecidableEq, Repr

/-- What the block keeps of an agent beside its table registers. -/
structure Agent where
  took      : Bool := false
  expired   : Bool := false
  lossDue   : List Nat := []
  offer     : Option Header := none
  intakeClosed : Bool := false
  retire    : Retire := .none
  /-- The loss sweep that covers it is not done in these slices (R459). -/
  sweepIn   : List Nat := []
  lossAt    : Nat := 0
  last      : WireAddr := 0
  idle      : Nat := 0
  /-- The frame in which the sleep `CmpGo` leaves (R441). -/
  sleepGo   : Option Nat := none
  /-- PM_SLEEP_GRANT or HP_PERMIT falls at the next edge (R443, R450). -/
  fallDue   : Bool := false
  /-- HP_PERMIT rises for an agent lost while retiring (R452). -/
  permitDue : Bool := false
  /-- A link-up was sampled since the sluice closed for sleep or retirement (R444). -/
  upSince   : Bool := false
  /-- Its `CapAccept` was sent in this frame: its messages are taken from the next (R437). -/
  joining   : Bool := false
  deriving DecidableEq, Repr

/-- A posted-write stream (R326 to R330): its requester, NEXT, its frontier, the sequence numbers accepted and not yet
visible, those ready, and the frame from which nothing has been in flight. -/
structure Stream where
  req      : Nat
  next     : BitVec 16
  frontier : BitVec 16
  inflight : List (BitVec 16) := []
  ready    : List (BitVec 16) := []
  idleFrom : Nat := 0
  deriving DecidableEq, Repr

/-- Why a non-caching lane takes no further VC0 message (R326 to R328). -/
inductive Stall where
  /-- All 64 streams active with writes in flight. -/ | full
  /-- A stream break: the stream restarts after this message's SEQ. -/ | broken (req : Nat)
  /-- 1,024 writes of the stream in flight. -/ | window (req : Nat)
  deriving DecidableEq, Repr

/-- The stream tracker of a hub port. -/
structure Tracker where
  streams : List Stream := []
  stall   : Option Stall := none
  /-- The message that met the stall. -/
  waiting : Option Req := none
  /-- Fences not yet noticed: requester, RTID, stamp. -/
  fences  : List (Nat × BitVec 10 × BitVec 16) := []
  /-- Ready reports taken but not yet applied: requester, SEQ, frame. -/
  reports : List (Nat × BitVec 16 × Nat) := []
  /-- Writes with the frame of their release, which are visible from the frame after it (R331): requester, SEQ, frame. -/
  released : List (Nat × BitVec 16 × Nat) := []
  deriving DecidableEq, Repr

/-- A lane of a port (R290 to R293). -/
structure LaneSt where
  c0      : Tbl Int := []
  gen     : Tbl Int := []
  waitC0  : List NetReq := []
  waitGen : List NetReq := []
  /-- The VC0 message that found its wait queue full and stops the lane (R292). -/
  blocked : Option Req := none
  deriving DecidableEq, Repr

/-- A port of the block as messages leave it. -/
inductive Port where
  | agent (a : Nat) | nc (hub : Nat) | mem (p : Nat)
  deriving DecidableEq, Repr

/-- Completions (R74). -/
inductive CmpOp where
  | cmpGo | cmpWr | cmpEvict | retry | cmpData | cmpAtom
  deriving DecidableEq, Repr

/-- A completion header's fields (R74). -/
structure Cmp where
  op     : CmpOp
  dest   : Nat
  rtid   : BitVec 10
  htid   : Nat := 0
  hslice : Nat := 0
  tepoch : BitVec 2 := 0
  gstate : BitVec 2 := 0
  status : BitVec 3 := 0
  ack    : Bool := false
  poison : Bool := false
  delay  : Nat := 0
  data   : Line := 0
  old    : BitVec 64 := 0
  deriving DecidableEq, Repr

/-- A message the block sends (R68, R118). -/
inductive Msg where
  | cmp (c : Cmp)
  | snoop (s : Snoop) (resend : Bool) (target htid hslice : Nat) (tepoch : BitVec 2) (addr : WireAddr)
      (base limit : BitVec 40) (lslice : Nat)
  | capAccept (agent rev : Nat) (caps : BitVec 3) (masks : List (BitVec 40)) (nbits : Nat)
  | mem (op : MemOp) (cls htid hslice : Nat) (tepoch : BitVec 2) (addr : WireAddr) (poison : Bool) (data : Line)
  deriving DecidableEq, Repr

/-- A message with the frame and port in which it leaves the block. -/
structure OutMsg where
  frame : Nat
  port  : Port
  msg   : Msg
  deriving DecidableEq, Repr

/-- A configuration transaction as its initiator sees it (R517 to R521). -/
structure CfgView where
  isOpen  : Bool := false
  writes  : Nat := 0
  result  : Nat := 0
  /-- Offset, bits written and value of each register written, in the order of the first writes (R518). -/
  shadow  : List (Nat × Reg × Reg) := []
  begunAt : Nat := 0
  /-- How many COMMITs had been applied at its BEGIN. -/
  begunSeq : Nat := 0
  deriving DecidableEq, Repr

/-- What waits for the next frame edge (R251 step 2): a register write, or the COMMIT of an initiator's transaction, closed when the
COMMIT was served (R520). -/
inductive EdgeOp where
  | write (w : RegAccess)
  | commit (init : Nat) (view : CfgView)
  deriving DecidableEq, Repr

/-- A fill engine of a memory port (R511). -/
structure FillEngine where
  range   : Nat := 0
  /-- Next line, PA[43:6]; 0 stands for the first line of the range. -/
  pos     : Nat := 0
  /-- Writes sent and not answered: HTID, line, frame sent. -/
  waiting : List (Nat × Nat × Nat) := []
  /-- Writes to send again: HTID, line, frame of the discarded answer. -/
  resend  : List (Nat × Nat × Nat) := []
  /-- Lines offered in a frame (R512): the frame and how many. -/
  offered : Nat × Nat := (0, 0)
  deriving DecidableEq, Repr

/-- What start-up keeps (R498 to R512). -/
structure Boot where
  /-- The wait of R498 is over. -/
  waited   : Bool := false
  hdrA     : Option (List Byte) := none
  hdrB     : Option (List Byte) := none
  /-- The copies still to be tried, in order; the head is under trial (R504). -/
  toTry    : List Bool := []
  tried    : Nat := 0
  /-- The accepted copy, until its load edge (R492). -/
  accepted : Option (List Byte) := none
  /-- The frame that begins at the load edge. -/
  loadAt   : Option Nat := none
  memWait  : Nat := 1
  /-- Zero-fill ranges, first and last 4 KiB page (R502). -/
  fills    : List (Nat × Nat) := []
  engines  : Tbl FillEngine := []
  /-- The last frame with work of phase ZERO. -/
  zeroAt   : Nat := 0
  deriving DecidableEq, Repr

/-- A fault entry of a fault record (R549). -/
structure FaultEntry where
  frame  : Nat
  source : Nat
  code   : Nat
  detail : BitVec 40
  deriving DecidableEq, Repr

/-- The items of the flash port (R529, R547). -/
inductive NvmItem where
  | checkpoint | fault | lifetime | firmware
  deriving DecidableEq, Repr

/-- What the flash port is doing (R550, R554). -/
inductive FlashStep where
  | gather | erase | program (page : Nat) | commit | fwRead | fwProgram | fwErase | reload
  deriving DecidableEq, Repr

/-- The cistern writer and the flash port (R547 to R555). -/
structure Cistern where
  due       : List NvmItem := []
  faults    : List FaultEntry := []
  faults2   : List FaultEntry := []
  slotWrites : Tbl Nat := []
  newest    : Option Nat := none
  seq       : BitVec 32 := 0
  /-- The slot the next record goes to, when a record failed (R551). -/
  skipTo    : Option Nat := none
  busy      : Option (NvmItem × FlashStep) := none
  /-- The slot of the record being written. -/
  slot      : Nat := 0
  /-- The record being written. -/
  record    : List Byte := []
  since     : Nat := 0
  fwOp      : Nat := 0
  fwInit    : Nat := 0
  /-- The transfers of R525 gathered for the record, in order. -/
  gathered  : List (BitVec 128) := []
  /-- POWERED when the last checkpoint fell due. -/
  ckptAt    : Nat := 0
  /-- LZ_NVM_ADDR and LZ_NVM_LEN when the operation was written (R554). -/
  fwAddr    : Nat := 0
  fwLen     : Nat := 0
  /-- The last write of LZ_LIFE_CALENDAR (R563): the frame that begins at its edge, the register before it, the bits it wrote. -/
  seededAt  : Option (Nat × Reg × Reg) := none
  deriving DecidableEq, Repr

/-- The masters of the maintenance service bus (R525). -/
inductive Master where
  | collector | gatherer | regPort | sampler | debug
  deriving DecidableEq, Repr

/-- The maintenance service bus (R525 to R527). Boundaries are numbered through: 8 times the frame plus the boundary. -/
structure Bus where
  /-- The transfer that has not ended: its master, its target slice, the frame it began. -/
  owner    : Option (Master × Nat × Nat) := none
  /-- Boundaries lost in a row, by rank, and the last boundary of a withdrawal (R526). -/
  losses   : Tbl Nat := []
  holdOff  : Tbl Nat := []
  /-- Collector transfers of the frame. -/
  evtSent  : Nat := 0
  /-- The first boundary that has not come yet. -/
  nextAt   : Nat := 0
  /-- The slice that the collector served last (R540). -/
  lastRr   : Nat := 15
  /-- Register-port accesses received and not served, oldest first (R562). -/
  port     : List RegAccess := []
  /-- Transfers of the snapshot done (R546). -/
  sampling : Option Nat := none
  /-- A debug word read and not yet moved: its slice, its words, transfers done (R533). -/
  debug    : Option (Nat × List Reg × Nat) := none
  /-- A debug read was started and waits for its slot (R533). -/
  dbgStart : Bool := false
  deriving DecidableEq, Repr

/-- The performance counters' latches and the wraps not yet reported (R545, R546). -/
structure Pmc where
  latch  : Tbl Reg := []
  wraps  : List Nat := []
  deriving DecidableEq, Repr

/-- A network flit (R474): its payload, its sideband, and the hclk in which it entered the buffer that it is in. -/
structure NetFlit where
  flit : Flit
  side : BitVec 16
  since : Nat := 0
  /-- Of a packet from a port, its number. -/
  id : Nat := 0
  /-- Of a packet toward an agent, the agent, and whether the message is the `CmpGo` of a granted sleep (R441). -/
  agent : Option Nat := none
  last : Bool := false
  /-- Refusals in a row on the hop before it (R340). -/
  tries : Nat := 0
  deriving DecidableEq, Repr

/-- The routers (R460). A lane of a router is numbered by the router, the port and the virtual channel; the port of a neighbor is the
neighbor's number, and a local port is 32 more than its DPORT. -/
structure Net where
  /-- Flits of the messages taken at a port's checks, or sent by a slice, that wait to be injected. -/
  source   : Tbl (List NetFlit) := []
  /-- The input buffers (R470). -/
  bufs     : Tbl (List NetFlit) := []
  /-- Input lanes whose worm holds an output lane, with its port (R471). -/
  worms    : Tbl Nat := []
  /-- Output lanes with the port where their round robin goes on, twice for each: heads with PRI, and the others (R471). -/
  turns    : Tbl Nat := []
  /-- The egress buffers of the edge routers (R473). -/
  egress   : Tbl (List NetFlit) := []
  /-- The buffers of the ports' bridges in the direction out of the block (R478). -/
  bridge   : Tbl (List NetFlit) := []
  /-- Local ports whose link is paused in this frame (R473): 8 times the router plus the DPORT. -/
  paused   : List Nat := []
  /-- Hops on which the next flit is refused (R339): both routers, one entry for each refusal. -/
  refuse   : List (Nat × Nat) := []
  /-- Consecutive refusals per hop (R340). -/
  refused  : Tbl Nat := []
  /-- Input lanes of a slice router that are still changing mode (R483): 4 times the input plus the virtual channel. -/
  changing : Tbl (List Nat) := []
  /-- The hclk that begins at the edge of the change. -/
  changeAt : Tbl Nat := []
  /-- LZ_SLICE_MAP fields that change at the next edge (R42). -/
  mapDue   : List (Nat × Nat) := []
  deriving DecidableEq, Repr

/-- The event-log ring (R542): WR and RD of LZ_LOG_PTR, and the entries. -/
structure LogRing where
  wr      : BitVec 13 := 0
  rd      : BitVec 13 := 0
  entries : Tbl (BitVec 128) := []
  deriving DecidableEq, Repr

/-- What a read of a register can show, as it stood at the edge that began the frame (R560, R562). -/
structure Shown where
  regs    : Tbl Reg := []
  cfg     : Tbl CfgView := []
  slices  : Tbl Slice := []
  hubs    : Tbl Tracker := []
  ring    : LogRing := {}
  vectors : BitVec 8 := 0
  latch   : Tbl Reg := []
  deriving DecidableEq, Repr

/-- A read answered by the register port (R562): the frame, the initiator, the offset, the size, the value. -/
structure RegAnswer where
  frame : Nat
  init  : Nat
  off   : Nat
  size  : Nat
  value : Reg
  deriving DecidableEq, Repr

/-- The state of the block. -/
structure State where
  fusing     : Fusing := .kr16
  /-- LZ_RST_N is 0 (R485). -/
  inReset    : Bool := true
  ready      : Bool := false
  failPin    : Bool := false
  /-- LZ_FRAME_COUNT (R13). -/
  frame      : Nat := 0
  /-- The registers by window offset; a register not listed reads its reset value (R566). -/
  regs       : Tbl Reg := []
  /-- What the block counted or set in the frame, by register and lowest bit (R535, R563): 64 times the offset plus the bit. -/
  marks      : Tbl Nat := []
  cfg        : Tbl CfgView := []
  /-- The number of the last COMMIT applied that wrote each offset, and how many have been applied (R519 test 2). -/
  committed  : Tbl Nat := []
  commits    : Nat := 0
  edgeQ      : List EdgeOp := []
  slices     : Tbl Slice := []
  agents     : Tbl Agent := []
  hubs       : Tbl Tracker := []
  lanes      : Tbl LaneSt := []
  /-- Hub ports whose link has reported up (R87). -/
  hubUp      : BitVec 4 := 0
  net        : List NetReq := []
  /-- Answers between their ports and the slices (R249). -/
  inbound    : List Inbound := []
  /-- The number of the next packet from a port. -/
  packets    : Nat := 1
  agenda     : List Todo := []
  /-- The timers that have expired in this frame, in order (R14, R161). -/
  expired    : List Expiry := []
  /-- The other timers that have expired in this frame, in order (R14). -/
  lapsed     : List Lapse := []
  /-- Tenants whose held requests are recolored at the edge; `true`: they all become green (R296, R297). -/
  recolorDue : List (Nat × Bool) := []
  /-- Tenants whose METER_EN has fallen: their buckets have stopped changing (R296). -/
  meterOff   : BitVec 64 := 0
  /-- Answers of earlier frames that are still to be taken (R388). -/
  late       : List Late := []
  /-- Requests sampled so far: the order of sampling (R324). -/
  samples    : Nat := 0
  out        : List OutMsg := []
  /-- The reads that the register port has answered (R562). -/
  reads      : List RegAnswer := []
  /-- What reads see until the next edge (R560). -/
  shown      : Shown := {}
  memFailed  : BitVec 12 := 0
  /-- Ports whose down report was sampled in this frame (R345). -/
  memDownDue : List Nat := []
  pmSleepReq : BitVec 16 := 0
  pmGrant    : BitVec 16 := 0
  hpRetireReq : BitVec 8 := 0
  hpPermit   : BitVec 8 := 0
  hpSurprise : BitVec 8 := 0
  /-- The interrupt vectors of the event port (R537). -/
  vectors    : BitVec 8 := 0
  ring       : LogRing := {}
  /-- Entries of this frame on their way to the ring, by the number of their block source; 128: brought by the collector (R540). -/
  logNew     : List (Nat × List (BitVec 128)) := []
  routers    : Net := {}
  boot       : Boot := {}
  cistern    : Cistern := {}
  bus        : Bus := {}
  pmc        : Pmc := {}
  /-- Slices whose thermal fatal event is not re-armed (R575). -/
  hotSlices  : List Nat := []
  /-- Slices that fail at the next edge, with CAUSE (R394). -/
  failDue    : List (Nat × Nat) := []
  refillAt   : Nat := 0
  leakAt     : Nat := 0
  secondAt   : Nat := 0
  freeCount  : Nat := 0
  pending    : List Instr := []
  deriving DecidableEq, Repr

/-- Why the block stops. -/
inductive Fault where
  /-- A command names a slice, tag, agent, lane, port, router, hub or initiator that the part does not have (R5, R6, R16).
  Raised by the meanings of commands that name one. Safe: the hardware has no such part. -/
  | noSuchPart
  deriving DecidableEq, Repr

/-- Why a command has no meaning. -/
inductive Refusal where
  /-- Raised by the arms of `exec` that have no meaning yet. Safe. -/
  | notModelled (mnemonic : String)
  deriving DecidableEq, Repr

/-- The answer of a command. -/
abbrev Outcome := Host.Outcome State Fault Refusal

/-- The state right after reset (R21, R485): every register at its reset value, LZ_RST_N still 0, and nothing in any store.
DESIGN CHOICE, log entry 1; DESIGN CHOICE, log entry 3; DESIGN CHOICE, log entry 5. -/
def State.reset : State :=
  { slices := (List.range 16).map fun k => (k, {})
    agents := (List.range 24).map fun a => (a, {})
    hubs := (List.range 4).map fun h => (h, {})
    lanes := (List.range 24).map fun l => (l, {})
    cfg := (List.range 16).map fun i => (i, {}) }

end Sys2Proof.Machine
end

