-- ==== Sys2Proof/Machine/Ops.lean ====
section
/-! DEFINITION. The named operations over tables, registers, slices, transactions and agents. -/

namespace Sys2Proof.Machine

/-! Tables: a list of (index, value) pairs with indices strictly rising. -/

/-- The value at an index, `d` where the table lists none. -/
def tget {α : Type} (d : α) : Tbl α → Nat → α
  | [], _ => d
  | (j, v) :: t, k => if k = j then v else tget d t k

/-- Whether the table lists an index. -/
def thas {α : Type} : Tbl α → Nat → Bool
  | [], _ => false
  | (j, _) :: t, k => if k = j then true else thas t k

/-- List a value at an index, in place of the one listed there. -/
def tput {α : Type} (k : Nat) (v : α) : Tbl α → Tbl α
  | [] => [(k, v)]
  | (j, w) :: t => if k < j then (k, v) :: (j, w) :: t else if k = j then (k, v) :: t else (j, w) :: tput k v t

/-- List nothing at an index. -/
def tdel {α : Type} (k : Nat) : Tbl α → Tbl α
  | [] => []
  | (j, w) :: t => if k = j then tdel k t else (j, w) :: tdel k t

/-- Write a value; the value an unlisted index reads as is not listed. -/
def tputD {α : Type} [DecidableEq α] (d : α) (k : Nat) (v : α) (t : Tbl α) : Tbl α :=
  if v = d then tdel k t else tput k v t

/-- The canonical form: every index is above `lo` and below the next, and no listed value is the default. -/
def tblWf {α : Type} [DecidableEq α] (d : α) : Option Nat → Tbl α → Bool
  | _, [] => true
  | lo, (j, v) :: t => (match lo with | none => true | some l => decide (l < j)) && decide (v ≠ d) && tblWf d (some j) t

/-! Register offsets (R557, R566). -/

/-- Offset of a register in the window of slice `k`. -/
def oSl (k off : Nat) : Nat := 0x100000 + 0x10000 * k + off
/-- Offset of a register of tenant entry `t`. -/
def oTn (t off : Nat) : Nat := 0x20000 + 0x100 * t + off
/-- Offset of a register of agent entry `a`. -/
def oAg (a off : Nat) : Nat := 0x24000 + 0x80 * a + off

/-- R566: LZ_BOOT_STATUS, LZ_FILL_STAT, LZ_CFG, LZ_CFG_CTL, LZ_BUS_CTL. -/
def oBoot : Nat := 0x10
@[inherit_doc oBoot] def oFill : Nat := 0x18
@[inherit_doc oBoot] def oCfg : Nat := 0x20
@[inherit_doc oBoot] def oCfgCtl : Nat := 0x28
@[inherit_doc oBoot] def oBus : Nat := 0x30
/-- R566: LZ_HASH_MASKn, LZ_SLICE_MAP, LZ_MEMROUTE_n. -/
def oMask (n : Nat) : Nat := 0x100 + 8 * n
@[inherit_doc oMask] def oMap : Nat := 0x120
@[inherit_doc oMask] def oRoute (n : Nat) : Nat := 0x180 + 8 * n
/-- R566: LZ_HOME_CTL to LZ_IOWR_CTL. -/
def oHome : Nat := 0x200
@[inherit_doc oHome] def oProgress : Nat := 0x208
@[inherit_doc oHome] def oSlot : Nat := 0x210
@[inherit_doc oHome] def oWeir : Nat := 0x218
@[inherit_doc oHome] def oAgentCtl : Nat := 0x220
@[inherit_doc oHome] def oAtom : Nat := 0x228
@[inherit_doc oHome] def oIowr : Nat := 0x230
@[inherit_doc oHome] def oStream (h : Nat) : Nat := 0x240 + 8 * h
/-- R566: LZ_FILTER_CFG, LZ_WAYLOCK, LZ_EVGAN_CTL, LZ_RINV_*. -/
def oFilter : Nat := 0x300
@[inherit_doc oFilter] def oWaylock : Nat := 0x308
@[inherit_doc oFilter] def oEvgan : Nat := 0x310
@[inherit_doc oFilter] def oRinv : Nat := 0x318
@[inherit_doc oFilter] def oRinvBase : Nat := 0x320
@[inherit_doc oFilter] def oRinvLimit : Nat := 0x328
/-- R566: LZ_NET_INTEG to LZ_DRAIN_IDLE. -/
def oNetInteg : Nat := 0x400
@[inherit_doc oNetInteg] def oNetStatus : Nat := 0x408
@[inherit_doc oNetInteg] def oCe : Nat := 0x410
@[inherit_doc oNetInteg] def oFlip : Nat := 0x418
@[inherit_doc oNetInteg] def oScrub : Nat := 0x420
@[inherit_doc oNetInteg] def oScrubRange : Nat := 0x428
@[inherit_doc oNetInteg] def oTakeover : Nat := 0x430
@[inherit_doc oNetInteg] def oWalk : Nat := 0x438
@[inherit_doc oNetInteg] def oMeminit : Nat := 0x440
@[inherit_doc oNetInteg] def oMeminitRange : Nat := 0x448
@[inherit_doc oNetInteg] def oDrain : Nat := 0x450
@[inherit_doc oNetInteg] def oDrainIdle : Nat := 0x458
/-- R566: LZ_DBG_*, LZ_EVT_*, LZ_LOG_*, LZ_PMC_*, LZ_CISTERN_*, LZ_LIFE_*, LZ_NVM_*. -/
def oDbg : Nat := 0x500
@[inherit_doc oDbg] def oDbgData (n : Nat) : Nat := 0x520 + 8 * n
@[inherit_doc oDbg] def oEvtRoute (k : Nat) : Nat := 0x600 + 8 * k
@[inherit_doc oDbg] def oEvtPend (n : Nat) : Nat := 0x700 + 8 * n
@[inherit_doc oDbg] def oEvtSummary : Nat := 0x710
@[inherit_doc oDbg] def oLogPtr : Nat := 0x718
@[inherit_doc oDbg] def oLogCtl : Nat := 0x720
@[inherit_doc oDbg] def oPmcCtl : Nat := 0x800
@[inherit_doc oDbg] def oCycles : Nat := 0x808
@[inherit_doc oDbg] def oPmcSnap (n : Nat) : Nat := 0xC00 + 8 * n
@[inherit_doc oDbg] def oCistern : Nat := 0x1100
@[inherit_doc oDbg] def oCisternStat : Nat := 0x1108
@[inherit_doc oDbg] def oPowered : Nat := 0x1110
@[inherit_doc oDbg] def oCalendar : Nat := 0x1118
@[inherit_doc oDbg] def oHot : Nat := 0x1120
@[inherit_doc oDbg] def oNvm : Nat := 0x1180
@[inherit_doc oDbg] def oNvmBuf (k : Nat) : Nat := 0x1200 + 8 * k
@[inherit_doc oDbg] def oLifeCe (n : Nat) : Nat := 0x1400 + 8 * n

/-- The reset value of a block register (R566); 0 for every offset the tables do not name (R561). -/
def resetBlock (f : Fusing) (off : Nat) : Reg :=
  if off = 0x10 then 0x1
  else if off = 0x28 then 0x17D8
  else if off = 0x30 then 0x410
  else if 0x100 ≤ off ∧ off < 0x120 ∧ off % 8 = 0 then 0x1111111111#64 <<< ((off - 0x100) / 8)
  else if off = 0x120 then (match f with | .kr16 => 0xFEDCBA9876543210 | .kr16x8 => 0x76543210)
  else if off = 0x200 then 0x4002
  else if off = 0x208 then 0x100100
  else if off = 0x210 then 0x11114
  else if off = 0x218 then 0x2010410
  else if off = 0x220 then 0x4
  else if off = 0x228 then 0x1000
  else if off = 0x230 then 0x401008
  else if off = 0x300 then 0x105504
  else if off = 0x310 then 0x80
  else if off = 0x408 then (match f with | .kr16 => 0 | .kr16x8 => 0xFF00)
  else if off = 0x410 then 0x1003BA
  else if off = 0x420 then 0x30000
  else if off = 0x428 then 0x3FFF0000
  else if off = 0x458 then 0xFFFFFFFFFFFFFFFF
  else if off = 0x660 then 0x03031F030303031F
  else if off = 0x668 then 0x030303031F030303
  else if off = 0x670 then 0x0303031F03030303
  else if 0x600 ≤ off ∧ off < 0x6C8 ∧ off % 8 = 0 then 0x0303030303030303
  else if off = 0x1100 then 0xF
  else 0

/-- The reset value of a tenant-table register (R566), at offset `o` of entry `t`. -/
def resetTenant (t o : Nat) : Reg :=
  if o = 0x00 then (if t = 0 then 0x1 else 0x6)
  else if o = 0x08 then 0xFFFFFFFF
  else if o = 0x10 then (if t = 0 then 0x220 else 0)
  else if o = 0x20 then 0x10
  else 0

/-- The reset value of a slice register (R566), at offset `o` of the window. -/
def resetSlice (o : Nat) : Reg :=
  if o = 0x00 then 0x843E0
  else if o = 0x28 then 0x1
  else if o = 0x38 then 0x4
  else if o = 0x48 then 0x8000
  else if o = 0x88 then 0x1
  else if 0x200 ≤ o ∧ o < 0x280 ∧ o % 8 = 0 then 0x100
  else if 0x500 ≤ o ∧ o < 0x540 ∧ o % 8 = 0 then 0xF0000
  else 0

/-- The reset value of the register at a window offset (R21, R566). -/
def resetWord (f : Fusing) (off : Nat) : Reg :=
  if off < 0x10000 then resetBlock f off
  else if off < 0x20000 then 0
  else if off < 0x24000 then resetTenant ((off - 0x20000) / 0x100) ((off - 0x20000) % 0x100)
  else if off < 0x25000 then (if (off - 0x24000) % 0x80 = 8 ∧ off < 0x24C00 then 0xC008 else 0)
  else if off < 0x100000 then 0
  else if off < 0x200000 then resetSlice ((off - 0x100000) % 0x10000)
  else 0

/-- A register as stored. -/
def State.reg (s : State) (off : Nat) : Reg := tget (resetWord s.fusing off) s.regs off

/-- Store a register. -/
def State.setReg (s : State) (off : Nat) (v : Reg) : State :=
  { s with regs := tputD (resetWord s.fusing off) off v s.regs }

/-- The field `[lo+w-1:lo]` of a register, as a number. -/
def State.fld (s : State) (off lo w : Nat) : Nat := (bits (s.reg off) lo w).toNat

/-- Store a field of a register. -/
def State.setFld (s : State) (off lo w v : Nat) : State :=
  s.setReg off (setBits (s.reg off) lo w (BitVec.ofNat w v))

/-- Note that the block counted or set a field in this frame (R563). DEDUCED, log entry 33. -/
def State.mark (s : State) (off lo n : Nat) : State :=
  { s with marks := tput (64 * off + lo) (tget 0 s.marks (64 * off + lo) + n) s.marks }

/-- Add to a count that saturates at all ones. -/
def State.incFld (s : State) (off lo w n : Nat) : State :=
  (s.setFld off lo w (min (s.fld off lo w + n) (2 ^ w - 1))).mark off lo n

/-- The block records a value beside a count. -/
def State.noteFld (s : State) (off lo w v : Nat) : State := (s.setFld off lo w v).mark off lo 1

/-- A one-bit field. -/
def State.flag (s : State) (off b : Nat) : Bool := (s.reg off).getLsbD b

/-- Set or clear a one-bit field. -/
def State.setFlag (s : State) (off b : Nat) (v : Bool) : State :=
  if v then (s.setFld off b 1 1).mark off b 1 else s.setFld off b 1 0

/-! Slices, transactions, agents, lanes, hubs. -/

/-- Home slices of the part (R5). -/
def State.nSlices (s : State) : Nat := match s.fusing with | .kr16 => 16 | .kr16x8 => 8

/-- Logical slice bits of the part (R5). -/
def State.nBits (s : State) : Nat := match s.fusing with | .kr16 => 4 | .kr16x8 => 3

/-- The buddy of a slice (R39). -/
def buddy (k : Nat) : Nat := k ^^^ 1

/-- The slice with a number. -/
def State.sl (s : State) (k : Nat) : Slice := tget {} s.slices k
/-- Store a slice. -/
def State.setSl (s : State) (k : Nat) (v : Slice) : State := { s with slices := tput k v s.slices }
/-- Change a slice. -/
def State.updSl (s : State) (k : Nat) (f : Slice → Slice) : State := s.setSl k (f (s.sl k))

/-- The transaction of a tag of a logical slice. -/
def State.txn (s : State) (k t : Nat) : Txn := tget {} (s.sl k).txns t
/-- Store a transaction; a FREE one is not listed. -/
def State.setTxn (s : State) (k t : Nat) (v : Txn) : State :=
  s.updSl k fun sl => { sl with txns := tputD {} t v sl.txns }
/-- Change a transaction. -/
def State.updTxn (s : State) (k t : Nat) (f : Txn → Txn) : State := s.setTxn k t (f (s.txn k t))

/-- The agent with an ID. -/
def State.ag (s : State) (a : Nat) : Agent := tget {} s.agents a
/-- Store an agent. -/
def State.setAg (s : State) (a : Nat) (v : Agent) : State := { s with agents := tput a v s.agents }
/-- Change an agent. -/
def State.updAg (s : State) (a : Nat) (f : Agent → Agent) : State := s.setAg a (f (s.ag a))

/-- The lane with a number. -/
def State.lane (s : State) (l : Nat) : LaneSt := tget {} s.lanes l
/-- Store a lane. -/
def State.setLane (s : State) (l : Nat) (v : LaneSt) : State := { s with lanes := tput l v s.lanes }

/-- The stream tracker of a hub. -/
def State.hub (s : State) (h : Nat) : Tracker := tget {} s.hubs h
/-- Store a tracker. -/
def State.setHub (s : State) (h : Nat) (v : Tracker) : State := { s with hubs := tput h v s.hubs }

/-- The configuration view of an initiator. -/
def State.view (s : State) (i : Nat) : CfgView := tget {} s.cfg i
/-- Store a configuration view. -/
def State.setView (s : State) (i : Nat) (v : CfgView) : State := { s with cfg := tput i v s.cfg }

/-- The physical slice that LZ_SLICE_MAP gives for a logical slice (R40). -/
def State.phys (s : State) (h : Nat) : Nat := s.fld oMap (4 * h) 4

/-- A fresh value that the manual leaves open. UNVERIFIED, log entry 2. -/
def State.fresh (s : State) : Reg × State := (Config.freeValue s.freeCount, { s with freeCount := s.freeCount + 1 })

/-- A fresh line of data that the manual leaves open. UNVERIFIED, log entry 2. -/
def State.freshLine (s : State) : Line × State := (Config.freeLine s.freeCount, { s with freeCount := s.freeCount + 1 })

/-- The block sends a message in frame `f`. -/
def State.send (s : State) (f : Nat) (p : Port) (m : Msg) : State := { s with out := s.out ++ [⟨f, p, m⟩] }

/-- Assign work to a later frame. DEDUCED, log entry 11. -/
def State.plan (s : State) (f k t : Nat) (a : Act) : State :=
  let d : Todo := ⟨f, k, t, a⟩
  if d ∈ s.agenda then s else { s with agenda := s.agenda ++ [d] }

/-- Drop the work planned for a tag, but for answers in place of a failed port. -/
def State.unplan (s : State) (k t : Nat) : State :=
  { s with agenda := s.agenda.filter fun d => !(d.slice == k && d.tag == t && d.act != .portDown) }

/-- ROLE of a slice (R393, SL_TAKEOVER_STAT): 0 normal, 1 failed, 2 serving its buddy's range. -/
def State.role (s : State) (k : Nat) : Nat := s.fld (oSl k 0x90) 0 2

/-- The slice is failed (R394). -/
def State.sliceFailed (s : State) (k : Nat) : Bool := s.role k == 1

/-- The pair of a slice is lost (R396). -/
def State.pairLost (s : State) (k : Nat) : Bool := s.flag oTakeover (16 + k / 2)

/-- Whether the engine of physical slice `e` serves logical slice `h` now (R398, R402). -/
def State.serves (s : State) (e h : Nat) : Bool :=
  !s.sliceFailed e && !s.pairLost e && (e == h || (e == buddy h && s.sliceFailed h))

/-- The engine that serves a logical slice: the slice itself, or its buddy while it is failed. DEDUCED, log entry 39. -/
def State.engine (s : State) (h : Nat) : Nat := if s.sliceFailed h then buddy h else h

/-- The logical slice is served, and a taken-over range has opened (R398). -/
def State.rangeOpen (s : State) (h : Nat) : Bool :=
  !s.pairLost h && (!s.sliceFailed h || (s.sl h).tk.opened)

/-- Transaction `t` of the slice runs: its range is served, and no replay of it is still to come (R394, R408, R410).
DEDUCED, log entry 15. -/
def State.tagOpen (s : State) (h t : Nat) : Bool := s.rangeOpen h && !((s.sl h).tk.replays.contains t)

/-- In service: BLOCK_READY is high and the block is not in reset (R513). -/
def State.inService (s : State) : Bool := !s.inReset && s.ready

/-- Guard: a part that the block does not have is a fault; otherwise go on. DESIGN CHOICE, log entry 7. -/
def need (p : Bool) (r : Outcome) : Outcome := if p then r else .fault .noSuchPart

/-- The state `t` with what no command between two edges drives: the pin LZ_RST_N, the fuses, the queue of the commands, LZ_FRAME_COUNT (R13),
and the event-log ring, whose entries are written at the edge (R540, log entry 35). -/
def State.held (s t : State) : State :=
  { t with inReset := s.inReset, fusing := s.fusing, pending := s.pending, frame := s.frame, ring := s.ring }

/-- While LZ_RST_N is 0 the block does nothing (R485): a command changes nothing. -/
def live (s : State) (r : Outcome) : Outcome :=
  if s.inReset then .next s else match r with | .next t => .next (s.held t) | o => o

/-- The same for a row that stands at the edge that began the frame and may write the log's ring. -/
def liveAtEdge (s : State) (r : Outcome) : Outcome :=
  if s.inReset then .next s else match r with | .next t => .next { s.held t with ring := t.ring } | o => o

/-- A step that takes place only when `p` holds; otherwise the event does not occur and nothing changes. DESIGN CHOICE, log entry 7. -/
def when' (p : Bool) (s t : State) : Outcome := .next (if p then t else s)

/-- Insert in a list after the elements that come before it. -/
def insertBy {α : Type} (before : α → α → Bool) (x : α) : List α → List α
  | [] => [x]
  | y :: t => if before x y then x :: y :: t else y :: insertBy before x t

/-- The element for which `key` is least; the first of equals. -/
def minBy {α : Type} (key : α → Nat) : List α → Option α
  | [] => none
  | x :: t =>
    match minBy key t with
    | none => some x
    | some y => if key y < key x then some y else some x

/-- Run an update for every number of a list, in order. -/
def foldSt (l : List Nat) (f : State → Nat → State) (s : State) : State := l.foldl f s

/-- A timer of a port or of start-up expires at the end of this frame, after what arrives in it (R14). -/
def State.lapseAt (s : State) (x : Lapse) : State := if s.lapsed.contains x then s else { s with lapsed := s.lapsed ++ [x] }

/-- A request is injected toward the slice that serves its logical slice (R292, R466); it arrives at its port in this frame (R249, R294). -/
def State.injectReq (s : State) (n : NetReq) : State :=
  { s with net := s.net ++ [{ n with dest := s.phys n.home, id := s.packets, req := { n.req with arrival := s.frame } }], packets := s.packets + 1 }

/-- An answer is injected toward the slice that serves the logical slice that it names (R78, R249, R466). -/
def State.injectAnswer (s : State) (h : Nat) (place : Nat × Nat) (m : Answer) : State :=
  { s with inbound := s.inbound ++ [{ dest := s.phys h, place := place, msg := m, id := s.packets }], packets := s.packets + 1 }

/-! What reads see (R560, R562). -/

/-- The values that reads show, as they stand now. -/
def State.snapshot (s : State) : Shown :=
  { regs := s.regs, cfg := s.cfg, slices := s.slices, hubs := s.hubs, ring := s.ring, vectors := s.vectors, latch := s.pmc.latch }

/-- The state as reads see it: with the values of the edge that began the frame. -/
def State.asShown (s : State) : State :=
  { s with regs := s.shown.regs, cfg := s.shown.cfg, slices := s.shown.slices, hubs := s.shown.hubs, ring := s.shown.ring
           vectors := s.shown.vectors, pmc := { s.pmc with latch := s.shown.latch } }

/-- A frame begins: reads see the values of its edge. -/
def State.showEdge (s : State) : State := { s with shown := s.snapshot }

/-- A step of the edge that began the frame, whose command stands after that of the edge: reads and the interrupt vectors see it as they
would at the edge. DESIGN CHOICE, log entry 10. -/
def State.edgeDo (s : State) (f : State → State) : State := { f s with shown := (f s.asShown).snapshot, vectors := (f s.asShown).vectors }

end Sys2Proof.Machine
end

