-- ==== Sys2Proof/Machine/Flags.lean ====
section
/-! DEFINITION. Event sources, pending bits, the event log and the status counts (R534 to R542). -/

namespace Sys2Proof.Machine

/-- Routing byte `r` (R536). -/
def State.routeByte (s : State) (r : Nat) : BitVec 8 := bits (s.reg (oEvtRoute (r / 8))) (8 * (r % 8)) 8

/-- A log entry (R538). -/
def logEntry (frame source : Nat) (cont : Bool) (code : Nat) (detail : BitVec 64) : BitVec 128 :=
  (detail.setWidth 128 <<< 64) ||| ((BitVec.ofNat 4 code).setWidth 128 <<< 60) |||
  ((b1 cont).setWidth 128 <<< 59) ||| ((BitVec.ofNat 11 source).setWidth 128 <<< 48) |||
  (BitVec.ofNat 48 frame).setWidth 128

/-- CONT of a log entry. -/
def isCont (e : BitVec 128) : Bool := e.getLsbD 59

/-- Entries the ring holds unread: (WR - RD) modulo 8,192 (R542). -/
def LogRing.used (r : LogRing) : Nat := (r.wr - r.rd).toNat
@[inherit_doc LogRing.used] def State.logUsed (s : State) : Nat := s.ring.used

/-- Set the pending bit of block source `j` (R535). -/
def State.pendBlk (s : State) (j : Nat) : State := s.setFlag (oEvtPend (j / 64)) (j % 64) true

/-- Set the pending bit of slice source `i` of slice `k` (R535). -/
def State.pendSl (s : State) (k i : Nat) : State :=
  if i < 64 then s.setFlag (oSl k 0xA8) i true else s.setFlag (oSl k 0xB0) (i - 64) true

/-- Count lost entries; the log-overflow event is raised when the count leaves 0 (R542). -/
def State.logLost (s : State) (n : Nat) : State :=
  let was := s.fld oLogCtl 16 15
  let s := s.incFld oLogCtl 16 15 n
  if was == 0 && n != 0 then s.pendBlk 39 else s

/-- MODE 0 of R542: advance RD past the oldest entry, and past its CONT entry too. -/
def State.logDropOldest (s : State) : State :=
  let r := s.ring
  let n := if isCont (tget 0 r.entries ((r.rd + 1).toNat % 4096)) && 1 < r.used then 2 else 1
  { s with ring := { r with rd := r.rd + BitVec.ofNat 13 n } }.logLost n

/-- Write one entry to the ring, which has room. -/
def State.logPut1 (s : State) (e : BitVec 128) : State :=
  let r := s.ring
  { s with ring := { r with wr := r.wr + 1, entries := tputD 0 (r.wr.toNat % 4096) e r.entries } }

/-- Bring entries (one, or a pair) to the ring (R542). -/
def State.logPut (s : State) (es : List (BitVec 128)) : State :=
  if s.fld oLogCtl 0 1 == 1 then
    if s.logUsed + es.length ≤ 4096 then es.foldl State.logPut1 s else s.logLost es.length
  else
    es.foldl (fun s e => (if s.logUsed ≥ 4096 then s.logDropOldest else s).logPut1 e) s

/-- Entries reach the ring in this frame: those of block sources in ascending source order, then those that the collector brings, which
have the number 128 (R540). -/
def State.logDue (s : State) (j : Nat) (es : List (BitVec 128)) : State :=
  { s with logNew := insertBy (fun a b => a.1 < b.1) (j, es) s.logNew }

/-- The entries of the frame are written into the ring (R540, R542). DEDUCED, log entry 35. -/
def State.logFlush (s : State) : State := s.logNew.foldl (fun s e => s.logPut e.2) { s with logNew := [] }

/-- Raise block source `j` (R535, R537, R540): its pending bit, and its log entry. -/
def State.raise (s : State) (j code : Nat) (detail : BitVec 64) : State :=
  let s := s.pendBlk j
  if (s.routeByte (72 + j)).getLsbD 1 && j != 39 then s.logDue j [logEntry s.frame (1152 + j) false code detail] else s

/-- Raise a malformed-message or sluice-violation source with its pair of entries (R537, R539). -/
def State.raisePair (s : State) (j code : Nat) (flit : Flit) : State :=
  let s := s.pendBlk j
  if (s.routeByte (72 + j)).getLsbD 1 then
    s.logDue j [logEntry s.frame (1152 + j) false code (bits flit 0 64), logEntry s.frame (1152 + j) true code (bits flit 64 64)]
  else s

/-- Raise source `i` of slice `k` (R535, R540, R541): pending bit, and its log entry into the slice's queue of 16. -/
def State.raiseSl (s : State) (k i code : Nat) (detail : BitVec 64) : State :=
  let s := s.pendSl k i
  if (s.routeByte i).getLsbD 1 then
    if (s.sl k).evq.length < 16 then
      s.updSl k fun sl => { sl with evq := sl.evq ++ [logEntry s.frame (72 * k + i) false code detail] }
    else s.incFld (oSl k 0xB0) 8 16 1
  else s

/-- The pending sources of a pair of PEND registers whose sources start at `base`. -/
def pendList (lo hi : Reg) (n base : Nat) : List Nat :=
  if lo = 0 && hi = 0 then []
  else ((List.range n).filter fun i => if i < 64 then lo.getLsbD i else hi.getLsbD (i - 64)).map fun i => base + i

/-- The routing bytes of the pending sources with EN = 1 (R536, R537). -/
def State.pendingBytes (s : State) : List (BitVec 8) :=
  let l := (List.range s.nSlices).flatMap (fun k => pendList (s.reg (oSl k 0xA8)) (s.reg (oSl k 0xB0)) 72 0) ++
    pendList (s.reg (oEvtPend 0)) (s.reg (oEvtPend 1)) 128 72
  (l.map s.routeByte).filter fun b => b.getLsbD 0

/-- The interrupt vectors and BLOCK_FAIL (R489, R537). -/
def State.pinsOut (s : State) : State :=
  let v := s.pendingBytes.foldl (fun (m : BitVec 8) b => m ||| (1 <<< (bits b 2 3).toNat)) 0
  { s with vectors := v, failPin := s.flag oBoot 5 }

/-- DETAIL of slice sources 32 to 34, 37, 38, 42 and block source 20 (R539). -/
def lineDetail (line : LineAddr) (who tag : Nat) : BitVec 64 :=
  line.setWidth 64 ||| ((BitVec.ofNat 10 who).setWidth 64 <<< 38) ||| ((BitVec.ofNat 10 tag).setWidth 64 <<< 48)

/-- DETAIL of slice sources 0 to 31 and 40 (R539). -/
def setDetail (set tier : Nat) : BitVec 64 :=
  (BitVec.ofNat 14 set).setWidth 64 ||| ((BitVec.ofNat 2 tier).setWidth 64 <<< 14)

/-- A fault record falls due and gathers the fault (R547): up to 16 in the pending record, the rest in a second one. -/
def State.faultDue (s : State) (source code : Nat) (detail : BitVec 64) : State :=
  let e : FaultEntry := ⟨s.frame, source, code, bits detail 0 40⟩
  let c := s.cistern
  let c := { c with due := if NvmItem.fault ∈ c.due then c.due else c.due ++ [.fault] }
  let c := if c.faults.length < 16 then { c with faults := c.faults ++ [e] }
           else if c.faults2.length < 16 then { c with faults2 := c.faults2 ++ [e] } else c
  ({ s with cistern := c }).setFlag oCisternStat 42 true

/-- Slice `f` is to be declared failed with a cause at the next edge, once (R394). -/
def State.failSlice (s : State) (f cause : Nat) : State :=
  if s.failDue.any fun p => p.1 == f then s else { s with failDue := s.failDue ++ [(f, cause)] }

/-- A filter bank failure (R370): the slice fails with CAUSE 0x5 at the next edge, and a fault record is due (R547). -/
def State.bankFailure (s : State) (k b : Nat) : State :=
  let due := s.failDue.any fun p => p.1 == k
  let s := if due then s else s.updSl k fun sl => { sl with tk := { sl.tk with badBank := some b } }
  (s.failSlice k 5).faultDue (1152 + 25) 5 (BitVec.ofNat 64 k)

/-- A correctable error in bank `b` of slice `k` (R372, R373), in its lifetime count as well. -/
def State.correctable (s : State) (k b set tier : Nat) : State :=
  let o := oSl k (0x200 + 8 * b)
  let s := (s.incFld o 16 16 1).incFld (oLifeCe (16 * k + b)) 0 32 1
  let s := s.incFld o 0 8 1
  let th := max 1 (s.fld oCe 16 8)
  if s.flag o 8 && s.fld o 0 8 == th then (s.setFlag o 8 false).raiseSl k b 0 (setDetail set tier) else s

/-- An uncorrectable error in bank `b` at `set` (R370, R374); a filter bank with four such sets since the last leak edge fails
its slice with CAUSE 0x5 at the next edge. -/
def State.uncorrectable (s : State) (k b set tier : Nat) : State :=
  let o := oSl k (0x200 + 8 * b)
  let s := (s.incFld o 32 8 1).raiseSl k (16 + b) 0 (setDetail set tier)
  if b ≤ 11 then
    let old := (s.sl k).ucSets
    let sets := if (b, set) ∈ old then old else old ++ [(b, set)]
    let n := (sets.filter fun p => p.1 == b).length
    let s := (s.updSl k fun sl => { sl with ucSets := sets }).setFld o 40 3 (min n 4)
    if n = 4 && !(old.contains (b, set)) then s.bankFailure k b else s
  else s

/-! SEC-DED words (R343, R378, R380). -/

/-- What a SEC-DED word decodes as: no error, corrected, a good data bit inverted, or uncorrectable. -/
inductive FlipDec where
  | clean | fixed | wrong | bad
  deriving DecidableEq, Repr

/-- Decode a word whose check bits are inverted by a mask (R343, R380): a syndrome of weight 1 marks a check bit, and the data columns
have odd weight of 3 or more. -/
def decodeFlip (m : BitVec 8) : FlipDec :=
  let n := onesBelow m 8
  if n = 0 then .clean else if n = 1 then .fixed
  else if n % 2 = 1 && Config.heavyFlipCorrects m then .wrong else .bad

/-- The data bits that decoding a word inverts (R380). -/
def flipData (m : BitVec 8) : BitVec 64 := if decodeFlip m = .wrong then 1 <<< (Config.heavyFlipBit m % 64) else 0

/-- A read of a SEC-DED word in bank `b` is counted (R372, R374). -/
def State.readDec (s : State) (k b set : Nat) (d : FlipDec) : State :=
  match d with
  | .clean => s
  | .bad => s.uncorrectable k b set 2
  | _ => s.correctable k b set 2
@[inherit_doc State.readDec] def State.readFlip (s : State) (k b set : Nat) (m : BitVec 8) : State := s.readDec k b set (decodeFlip m)

/-- How a word reads whose check bits a mask inverts and which decodes so beside it. -/
def readWord (m : BitVec 8) (e : Ecc) : FlipDec :=
  match e, decodeFlip m with
  | .uncorrectable, _ => .bad
  | .corrected, .clean => .fixed
  | _, d => d

/-! Counts of a pipeline, a weir and a maintenance engine are those of the slice that does the work: of the buddy while the range is
taken over (R565). -/

/-- A home protocol violation of a kind (R150, R176, R300, R315). DEDUCED, log entry 39. -/
def State.violation (s : State) (k kind agent : Nat) (line : LineAddr) (tag : Nat) : State :=
  let k := s.engine k
  let o := oSl k 0x08
  (((s.incFld o 0 16 1).noteFld o 16 5 agent).noteFld o 21 4 kind).raiseSl k 32 kind (lineDetail line agent tag)

/-- The block creates poison with a cause (R350). -/
def State.poisonCreated (s : State) (k cause agent : Nat) (line : LineAddr) (tag : Nat) : State :=
  let k := s.engine k
  let o := oSl k 0x70
  ((s.incFld o 24 16 1).noteFld o 40 3 cause).raiseSl k 37 cause (lineDetail line agent tag)

/-- Poison that the block did not create passes through it (R351). -/
def State.poisonPassed (s : State) (k : Nat) : State := s.incFld (oSl (s.engine k) 0x70) 0 24 1

/-- Counter `n`, in the register `o`, has wrapped: OVF is set, and its event is to be raised (R545). -/
def State.wrapped (s : State) (n o : Nat) : State := { s.setFlag o 48 true with pmc := { s.pmc with wraps := s.pmc.wraps ++ [n] } }

/-- One event of code `ev` occurs in slice `k` (R543 to R545): every counter that selects it advances; the filtered events
count only a matching tenant and class. A wrap is remembered for its event. -/
def State.count (s : State) (k ev : Nat) (filter : Option (Nat × Nat)) : State :=
  if s.flag oPmcCtl 0 then s else
  foldSt (List.range 8) (fun s i =>
    let sel := s.reg (oSl k (0x500 + 8 * i))
    let fits := match filter with
      | none => true
      | some (ten, cls) => (!sel.getLsbD 14 || (bits sel 8 6).toNat == ten) && sel.getLsbD (16 + cls)
    if (bits sel 0 6).toNat == ev && ev != 0 && fits then
      let o := oSl k (0x540 + 8 * i)
      let n := s.fld o 0 48 + 1
      let s := s.setFld o 0 48 (n % 2 ^ 48)
      if n = 2 ^ 48 then s.wrapped (8 * k + i) o else s
    else s) s

end Sys2Proof.Machine
end

