-- ==== Sys2Proof/Machine/Operands.lean ====
section
/-! DEFINITION. What a command's operands say: the wire formats (R63 to R84, R111 to R118), the ingress checks (R33), and the
address functions (R36 to R46, R201). -/

namespace Sys2Proof.Machine

/-! Parity (R64). -/

/-- PAR of a flit: PAR[q] makes the XOR of flit bits [32q+31:32q] and PAR[q] equal 0. -/
def parOf (f : Flit) : Par :=
  (b1 (xorBits (bits f 0 32) 32)).setWidth 4 ||| ((b1 (xorBits (bits f 32 32) 32)).setWidth 4 <<< 1) |||
  ((b1 (xorBits (bits f 64 32) 32)).setWidth 4 <<< 2) ||| ((b1 (xorBits (bits f 96 32) 32)).setWidth 4 <<< 3)

/-- Every flit of the message carries its parity. -/
def flitsOk (l : List (Flit × Par)) : Bool := l.all fun p => decide (parOf p.1 = p.2)

/-! Opcodes (R68). -/

/-- Opcode value of a request (R68). -/
def ReqOp.code : ReqOp → BitVec 6
  | .rdShared => 0x00 | .rdOwn => 0x01 | .upgrade => 0x02 | .rdCur => 0x03 | .claim => 0x04 | .atomNear => 0x05
  | .atomFar => 0x06 | .evictClean => 0x07 | .agentSleep => 0x08 | .wrFull => 0x09 | .wrPart => 0x0A | .wrStream => 0x0B
  | .fence => 0x0C | .wbDirty => 0x30

/-- Opcode value of a response (R68). -/
def RspOp.code : RspOp → BitVec 6
  | .rspI => 0x20 | .rspS => 0x21 | .rspCross => 0x22 | .ackGo => 0x23 | .rspIData => 0x31 | .rspReport => 0x32

/-- The requests, in opcode order. -/
def allReqOps : List ReqOp :=
  [.rdShared, .rdOwn, .upgrade, .rdCur, .claim, .atomNear, .atomFar, .evictClean, .agentSleep, .wrFull, .wrPart, .wrStream,
   .fence, .wbDirty]

/-- The responses, in opcode order. -/
def allRspOps : List RspOp := [.rspI, .rspS, .rspCross, .ackGo, .rspIData, .rspReport]

/-- The request an opcode value names. -/
def reqOpOf (c : BitVec 6) : Option ReqOp := allReqOps.find? fun o => o.code == c

/-- The response an opcode value names. -/
def rspOpOf (c : BitVec 6) : Option RspOp := allRspOps.find? fun o => o.code == c

/-- Payload flits of a request (R68). -/
def ReqOp.payload : ReqOp → Nat
  | .atomNear | .atomFar => 1
  | .wrFull | .wrStream | .wbDirty => 4
  | .wrPart => 5
  | _ => 0

/-- Payload flits of a response (R68). -/
def RspOp.payload : RspOp → Nat
  | .rspIData | .rspReport => 4
  | _ => 0

/-! Lanes and ports (R30 to R32, R85). -/

/-- A lane is an agent port, the coherent lane of a hub or its non-caching lane. -/
def isAgentLane (l : Nat) : Bool := l < 16
@[inherit_doc isAgentLane] def isCohLane (l : Nat) : Bool := 16 ≤ l && l < 24 && l % 2 == 0
@[inherit_doc isAgentLane] def isNcLane (l : Nat) : Bool := 16 ≤ l && l < 24 && l % 2 == 1

/-- Hub port of a hub lane. -/
def hubOf (l : Nat) : Nat := (l - 16) / 2

/-- Malformed-message source of the port of a lane (R534). -/
def malformedSrc (l : Nat) : Nat := if l < 16 then l else 16 + hubOf l

/-- Whether the port of a lane may carry an agent ID (R30, R31). -/
def laneCarries (l a : Nat) : Bool := (isAgentLane l && a == l) || (isCohLane l && (a == 16 + 2 * hubOf l || a == 17 + 2 * hubOf l))

/-- The lane of an agent. -/
def laneOfAgent (a : Nat) : Nat := if a < 16 then a else 16 + 2 * ((a - 16) / 2)

/-- The request opcodes each lane accepts (R85). -/
def laneAllows (l : Nat) : ReqOp → Bool
  | .rdShared | .rdOwn | .upgrade | .claim | .evictClean | .wbDirty | .atomFar => !isNcLane l
  | .rdCur | .atomNear => true
  | .agentSleep => isAgentLane l
  | .wrFull | .wrPart => !isAgentLane l
  | .wrStream | .fence => isNcLane l

/-! Fields of headers. -/

/-- OPCODE of a header. -/
def hOp (h : Header) : BitVec 6 := bits h 0 6

/-- SRC of a response, AGENT of an offer (R73, R111). -/
def hAgent (h : Header) : Nat := (bits h 8 5).toNat

/-- The header flit of a message. -/
def headOf (l : List (Flit × Par)) : Header := match l with | [] => 0 | p :: _ => p.1

/-- Payload flit `k`. Nothing checks the count of payload flits against the opcode's (R63): one that is missing reads as zeros, and one
too many is ignored. DESIGN CHOICE, log entry 40. -/
def payloadAt (l : List (Flit × Par)) (k : Nat) : Flit := match l[k + 1]? with | some p => p.1 | none => 0

/-- A line payload whose first flit is payload flit `k` (R65). -/
def lineAt (l : List (Flit × Par)) (k : Nat) : Line :=
  (payloadAt l k).setWidth 512 ||| ((payloadAt l (k + 1)).setWidth 512 <<< 128) |||
  ((payloadAt l (k + 2)).setWidth 512 <<< 256) ||| ((payloadAt l (k + 3)).setWidth 512 <<< 384)

/-- The request a message carries (R69, R79, R82). -/
def parseReq (op : ReqOp) (a : Arrival) (frame : Nat) : Req :=
  let h := headOf a.flits
  let wide := (bits h 102 2).toNat == 1
  let cut (x : BitVec 64) : BitVec 64 := if wide then x else x &&& 0xFFFFFFFF
  let data := match op with
    | .wrFull | .wrStream | .wbDirty => lineAt a.flits 0
    | .wrPart => lineAt a.flits 1
    | _ => 0
  { op := op, lane := a.lane, nc := isNcLane a.lane, src := (bits h 8 10).toNat, rtid := bits h 18 10
    tenant := (bits h 28 6).toNat, cls := (bits h 34 2).toNat, addr := bits h 36 46
    poison := (match op with | .wbDirty | .wrFull | .wrPart | .wrStream => h.getLsbD 6 | _ => false)
    seq := (match op with | .wrStream => bits h 82 16 | _ => 0)
    atop := (bits h 98 4).toNat, asize := (bits h 102 2).toNat, aoff := (bits h 104 6).toNat
    data := data
    mask := (match op with | .wrPart => bits (payloadAt a.flits 0) 0 64 | .wrFull | .wrStream => BitVec.allOnes 64 | _ => 0)
    operand := cut (bits (payloadAt a.flits 0) 0 64), swap := cut (bits (payloadAt a.flits 0) 64 64)
    arrival := frame, taken := frame, hdr := h, flits := a.flits }

/-! Agent table fields. -/

/-- STATE of an agent (R430). -/
def State.agSt (s : State) (a : Nat) : Nat := s.fld (oAg a 0x18) 0 3

/-- The codes of R430. -/
def agDown : Nat := 0
@[inherit_doc agDown] def agAwait : Nat := 1
@[inherit_doc agDown] def agService : Nat := 2
@[inherit_doc agDown] def agSleeping : Nat := 3
@[inherit_doc agDown] def agRetiring : Nat := 4
@[inherit_doc agDown] def agRetired : Nat := 5
@[inherit_doc agDown] def agLost : Nat := 6

/-- The sluice of an agent is open in SERVICE and RETIRING (R430). -/
def State.sluice (s : State) (a : Nat) : Bool := s.agSt a == agService || s.agSt a == agRetiring

/-- Put an agent in a state; SLUICE follows it (R430). -/
def State.setAgSt (s : State) (a st : Nat) : State :=
  (s.setFld (oAg a 0x18) 0 3 st).setFlag (oAg a 0x18) 3 (st == agService || st == agRetiring)

/-- Granted capabilities (R109). -/
def State.rspCross (s : State) (a : Nat) : Bool := s.flag (oAg a 0) 8
@[inherit_doc State.rspCross] def State.farAtomic (s : State) (a : Nat) : Bool := s.flag (oAg a 0) 9
@[inherit_doc State.rspCross] def State.snpReport (s : State) (a : Nat) : Bool := s.flag (oAg a 0) 10

/-- The snoop contract of an agent in frames; 0 and 1 act as 2. -/
def State.snoopContract (s : State) (a : Nat) : Nat := max 2 (s.fld (oAg a 8) 0 6)

/-- The range-snoop contract of an agent in frames; 0 acts as 1 unit of 256. -/
def State.flushContract (s : State) (a : Nat) : Nat := 256 * max 1 (s.fld (oAg a 8) 8 12)

/-! Ingress checks (R33). -/

/-- Check 2 for a request: the lane accepts it, and an atomic's ATOP and ASIZE are defined (R71, R85). -/
def check2Req (l : Nat) (op : ReqOp) (h : Header) : Bool :=
  laneAllows l op &&
  (match op with
   | .atomNear | .atomFar => (bits h 98 4).toNat ≤ 9 && (bits h 102 2).toNat ≤ 1
   | _ => true)

/-- Check 2 for a response: only lanes of agents carry it, and what a revision-2 agent lacks is undefined (R86, R108, R109). -/
def State.check2Rsp (s : State) (l : Nat) (op : RspOp) (h : Header) : Bool :=
  !isNcLane l &&
  (match op with
   | .rspCross => s.rspCross (hAgent h)
   | .rspReport => s.snpReport (hAgent h)
   | _ => true)

/-- Check 3 for a request: an agent ID or requester ID that the port may carry (R30 to R32). -/
def check3Req (l : Nat) (h : Header) : Bool :=
  let src := (bits h 8 10).toNat
  if isNcLane l then src / 256 == hubOf l else laneCarries l src

/-- Check 4 for a request (R70). -/
def check4Req (op : ReqOp) (h : Header) : Bool :=
  match op with
  | .agentSleep | .fence => bits h 36 46 == 0
  | .atomNear | .atomFar => (bits h 104 6).toNat % (4 * 2 ^ (bits h 102 2).toNat) == 0
  | _ => true

/-- The ingress checks of a message, in order: the number of the first that fails, or 0 (R33, R67). -/
def State.ingress (s : State) (a : Arrival) : Nat :=
  let h := headOf a.flits
  if !flitsOk a.flits then 1
  else if bits h 4 2 != a.vc then 2
  else match reqOpOf (hOp h), rspOpOf (hOp h) with
    | some op, _ => if !check2Req a.lane op h then 2 else if !check3Req a.lane h then 3 else if !check4Req op h then 4 else 0
    | none, some op => if !s.check2Rsp a.lane op h then 2 else if !laneCarries a.lane (hAgent h) then 3 else 0
    | none, none => if hOp h == 0x2F && !isNcLane a.lane then (if laneCarries a.lane (hAgent h) then 0 else 3) else 2

/-! Addresses. -/

/-- The logical slice of a line address (R36, R37). -/
def State.hash (s : State) (a : WireAddr) : Nat :=
  let x : BitVec 40 := bits a 2 40
  let bit (n : Nat) : Nat := if xorBits (x &&& bits (s.reg (oMask n)) 0 40) 40 then 2 ^ n else 0
  bit 0 + bit 1 + bit 2 + (if s.nBits = 4 then bit 3 else 0)

/-- The winning memory route entry of a line (R43). -/
def State.routeOf (s : State) (a : WireAddr) : Option Nat :=
  let g := (bits a 24 14).toNat
  (List.range 16).find? fun n =>
    let r := s.reg (oRoute n)
    r.getLsbD 0 && (bits r 32 14).toNat ≤ g && g ≤ (bits r 48 14).toNat

/-- Whether a line is homed: below 2^44 (2^43 on KR16/8) and matched by a valid route entry (R46). -/
def State.homed (s : State) (a : WireAddr) : Bool :=
  a.toNat < 2 ^ (34 + s.nBits) && (s.routeOf a).isSome

/-- The memory port of a homed line (R44). -/
def State.memPort (s : State) (a : WireAddr) : Nat :=
  match s.routeOf a with
  | none => 0
  | some n =>
    let r := s.reg (oRoute n)
    let ports := (List.range 12).filter fun p => r.getLsbD (4 + p)
    let g := match (bits r 1 2).toNat with | 0 => 4 | 1 => 16 | _ => 64
    (ports[(a.toNat / g) % ports.length]?).getD 0

/-- The homed line of a wire address (PA[43:6]). -/
def lineOf (a : WireAddr) : LineAddr := bits a 0 38
/-- The wire address of a homed line. -/
def wireOf (l : LineAddr) : WireAddr := l.setWidth 46
/-- The sector of a line, and line `j` of a sector (R15). -/
def sectorOf (l : LineAddr) : SectorAddr := bits l 2 36
@[inherit_doc sectorOf] def lineIn (x : SectorAddr) (j : Nat) : LineAddr := (x.setWidth 38 <<< 2) ||| BitVec.ofNat 38 j
/-- Index of a line in its sector. -/
def lineIdx (l : LineAddr) : Nat := (bits l 0 2).toNat

/-- T = PA[43:14] of a sector (R201). -/
def tagOf (x : SectorAddr) : BitVec 30 := bits x 6 30

/-- On-die set index D (R201). -/
def setD (x : SectorAddr) : Nat :=
  let t := tagOf x
  (bits t 0 6 ^^^ bits t 6 6 ^^^ bits t 12 6 ^^^ bits t 18 6 ^^^ bits t 24 6).toNat * 64 + (bits x 0 6).toNat

/-- Evgan set index E (R201). -/
def setE (x : SectorAddr) : Nat :=
  let t := tagOf x
  (bits t 0 8 ^^^ bits t 8 8 ^^^ bits t 16 8 ^^^ (bits t 24 6).setWidth 8).toNat * 64 + (bits x 0 6).toNat

/-- The sector of an entry: its TAG and the low six bits of its set index (R201). -/
def sectorFrom (t : BitVec 30) (set : Nat) : SectorAddr := (t.setWidth 36 <<< 6) ||| BitVec.ofNat 36 (set % 64)

/-! Encoding of the messages the block sends (R72, R74, R114, R117). -/

/-- Opcode of a completion (R68). -/
def CmpOp.code : CmpOp → BitVec 6
  | .cmpGo => 0x28 | .cmpWr => 0x29 | .cmpEvict => 0x2A | .retry => 0x2B | .cmpData => 0x38 | .cmpAtom => 0x39

/-- Opcode of a snoop (R68). -/
def Snoop.code : Snoop → BitVec 6
  | .inv => 0x10 | .down => 0x11 | .back => 0x12 | .report => 0x13 | .flush => 0x14

/-- Opcode of a memory request (R118). -/
def MemOp.code : MemOp → BitVec 6
  | .rd => 0x00 | .wr => 0x01 | .wrRd => 0x02 | .wrPoison => 0x03

/-- Place a field in a header. -/
def put (lo : Nat) {w : Nat} (v : BitVec w) : Header := v.setWidth 128 <<< lo

/-- The header of a message the block sends. -/
def Msg.header : Msg → Header
  | .cmp c => put 0 c.op.code ||| put 6 (b1 c.poison) ||| put 7 (b1 c.ack) ||| put 8 (BitVec.ofNat 10 c.dest) ||| put 18 c.rtid |||
      put 28 (BitVec.ofNat 10 c.htid) ||| put 38 (BitVec.ofNat 4 c.hslice) ||| put 42 c.tepoch ||| put 44 c.gstate |||
      put 46 c.status ||| put 49 (BitVec.ofNat 4 c.delay)
  | .snoop k re target htid hslice ep addr base limit ls =>
      put 0 k.code ||| put 7 (b1 re) ||| put 8 (BitVec.ofNat 5 target) ||| put 18 (BitVec.ofNat 10 htid) |||
      put 28 (BitVec.ofNat 4 hslice) ||| put 32 ep |||
      (match k with
       | .inv | .down | .back => put 36 addr
       | .report => put 36 base ||| put 76 limit ||| put 116 (BitVec.ofNat 4 ls)
       | .flush => put 36 base ||| put 76 limit)
  | .capAccept a rev caps _ _ => put 0 (0x3F : BitVec 6) ||| put 8 (BitVec.ofNat 5 a) ||| put 16 (BitVec.ofNat 4 rev) ||| put 24 caps
  | .mem op cls htid hslice ep addr poison _ =>
      put 0 op.code ||| put 6 (b1 poison) ||| put 34 (BitVec.ofNat 2 cls) ||| put 36 addr ||| put 88 (BitVec.ofNat 10 htid) |||
      put 98 (BitVec.ofNat 4 hslice) ||| put 102 ep

/-- The four payload flits of a line (R65). -/
def lineFlits (d : Line) : List Flit := [bits d 0 128, bits d 128 128, bits d 256 128, bits d 384 128]

/-- The payload flits of a message the block sends (R63, R80, R114). -/
def Msg.payload : Msg → List Flit
  | .cmp c => (match c.op with | .cmpData => lineFlits c.data | .cmpAtom => [c.old.setWidth 128] | _ => [])
  | .snoop .. => []
  | .capAccept _ _ _ masks n =>
      (List.range 4).map fun k =>
        let m : Flit := ((masks[k]?).getD 0).setWidth 128
        if k = 0 then m ||| put 40 (BitVec.ofNat 4 n) else m
  | .mem op _ _ _ _ _ _ d => (match op with | .wr | .wrRd => lineFlits d | _ => [])

/-- A message as flits with their parity (R63, R64). -/
def Msg.encode (m : Msg) : List (Flit × Par) := (m.header :: m.payload).map fun f => (f, parOf f)

/-- The port of an agent ID or requester ID (R466). -/
def portOf (nc : Bool) (who : Nat) : Port := if nc then .nc (who / 256) else .agent who

/-- HSLICE, HTID, TEPOCH and ADDR of a response (R73). -/
def rHslice (h : Header) : Nat := (bits h 28 4).toNat
@[inherit_doc rHslice] def rHtid (h : Header) : Nat := (bits h 18 10).toNat
@[inherit_doc rHslice] def rEpoch (h : Header) : BitVec 2 := bits h 32 2
@[inherit_doc rHslice] def rAddr (h : Header) : WireAddr := bits h 36 46

/-- Tag, slice and epoch of a memory answer (R74, R117). -/
def mHtid (h : Header) : Nat := (bits h 28 10).toNat
@[inherit_doc mHtid] def mHslice (h : Header) : Nat := (bits h 38 4).toNat
@[inherit_doc mHtid] def mEpoch (h : Header) : BitVec 2 := bits h 42 2

end Sys2Proof.Machine
end

