-- ==== Sys2Proof/Machine/Filter.lean ====
section
/-! DEFINITION. The two-tier snoop filter: entries and their codes (R200 to R207), probes (R208, R211), allocation (R215 to
R220), replacement (R221 to R224), the write buffer (R213), remapped rows (R366) and the flip mask (R378). -/

namespace Sys2Proof.Machine

/-! The entry word. -/

/-- The column values of R203, in order. -/
def checkColumns : List (BitVec 6) :=
  [0x07, 0x0B, 0x0D, 0x0E, 0x13, 0x15, 0x16, 0x19, 0x1A, 0x1C, 0x1F, 0x23, 0x25, 0x26, 0x29, 0x2A, 0x2C, 0x2F, 0x31, 0x32,
   0x34, 0x37, 0x38, 0x3B, 0x3D, 0x3E]

/-- The 26 data bits of a record: STATE in [1:0], VECTOR in [25:2] (R203). -/
def recData (st : BitVec 2) (v : Agents) : BitVec 26 := st.setWidth 26 ||| (v.setWidth 26 <<< 2)

/-- XOR of the columns of the data bits that are 1, from data bit `k` on. -/
def checkFrom (d : BitVec 26) : Nat → List (BitVec 6) → BitVec 6
  | _, [] => 0
  | k, c :: t => (if d.getLsbD k then c else 0) ^^^ checkFrom d (k + 1) t

/-- The check code of a record (R203). -/
def checkCode (st : BitVec 2) (v : Agents) : BitVec 6 := checkFrom (recData st v) 0 checkColumns

/-- TPAR of a tag (R202). -/
def tagPar (t : BitVec 30) : BitVec 2 :=
  (b1 (xorBits (bits t 0 15) 15)).setWidth 2 ||| ((b1 (xorBits (bits t 15 15) 15)).setWidth 2 <<< 1)

/-- TAG, TPAR, and the fields of line `j` (R200). -/
def eTag (e : Entry) : BitVec 30 := bits e 0 30
@[inherit_doc eTag] def eTpar (e : Entry) : BitVec 2 := bits e 30 2
@[inherit_doc eTag] def ePresent (e : Entry) (j : Nat) : Bool := e.getLsbD (32 + 33 * j)
@[inherit_doc eTag] def eState (e : Entry) (j : Nat) : BitVec 2 := bits e (33 + 33 * j) 2
@[inherit_doc eTag] def eVector (e : Entry) (j : Nat) : Agents := bits e (35 + 33 * j) 24
@[inherit_doc eTag] def eCheck (e : Entry) (j : Nat) : BitVec 6 := bits e (59 + 33 * j) 6

/-- State bits and vector of a line state (R122). -/
def stBits : LineState → BitVec 2
  | .untracked => 0 | .shared _ => 1 | .owned _ => 2
@[inherit_doc stBits] def stVec : LineState → Agents
  | .untracked => 0 | .shared v => v | .owned a => vecOf a

/-- A shared state, or Untracked when no bit is left. -/
def sharedOr (v : Agents) : LineState := if v = 0 then .untracked else .shared v

/-- Write the record of line `j` with its check code (R200, R203). -/
def setRec (e : Entry) (j : Nat) (st : LineState) : Entry :=
  let b := stBits st
  let v := stVec st
  setBits (setBits (setBits (setBits e (32 + 33 * j) 1 (b1 (b != 0))) (33 + 33 * j) 2 b) (35 + 33 * j) 24 v) (59 + 33 * j) 6
    (checkCode b v)

/-- An entry for a sector that tracks no line yet. -/
def newEntry (x : SectorAddr) : Entry := setBits (setBits 0 0 30 (tagOf x)) 30 2 (tagPar (tagOf x))

/-- A way is free when all four PRESENT bits are 0 (R207). -/
def isFree (e : Entry) : Bool := !(ePresent e 0 || ePresent e 1 || ePresent e 2 || ePresent e 3)

/-- Tag parity holds (R202). -/
def tagOk (e : Entry) : Bool := eTpar e == tagPar (eTag e)

/-- What decoding a record gives (R204): no error, an error corrected, or uncorrectable. -/
inductive Dec where
  | good (k : Known) | fixed (k : Known) | bad
  deriving DecidableEq, Repr

/-- R122 and R123: a record whose code is right. -/
def classify (p : Bool) (st : BitVec 2) (v : Agents) : Known :=
  if !p then .found .untracked
  else if st = 1 ∧ v ≠ 0 then .found (.shared v)
  else if st = 2 then (match vecAgents v with | [a] => .found (.owned a) | _ => .lost)
  else .lost

/-- Position of a column value in R203's list. -/
def columnIdx (s : BitVec 6) : Option Nat := checkColumns.findIdx? fun c => c == s

/-- Decode the record of line `j` (R204). -/
def decodeRec (e : Entry) (j : Nat) : Dec :=
  let p := ePresent e j
  let st := eState e j
  let v := eVector e j
  let s := eCheck e j ^^^ checkCode st v
  let agree (st : BitVec 2) : Bool := p == (st != 0)
  if s = 0 then
    if agree st then .good (classify p st v) else .fixed (classify (st != 0) st v)
  else if onesBelow s 6 = 1 then
    if agree st then .fixed (classify p st v) else .bad
  else match columnIdx s with
    | none => .bad
    | some k =>
      let d := recData st v ^^^ ((1 : BitVec 26) <<< k)
      let st' := bits d 0 2
      let v' := bits d 2 24
      if agree st' then .fixed (classify p st' v') else .bad

/-- What the home knows of a line after decoding its record. -/
def Dec.known : Dec → Known
  | .good k => k | .fixed k => k | .bad => .lost

/-- The record of line `j` as the home knows it. -/
def knownAt (e : Entry) (j : Nat) : Known := (decodeRec e j).known

/-- The line state the home knows; a lost one counts as Untracked. -/
def Known.state : Known → LineState
  | .found st => st | .lost => .untracked

/-- The agents a known record names. -/
def Known.vec (k : Known) : Agents := stVec k.state

/-- The owner a known record names. -/
def Known.owner (k : Known) : Option Nat := match k with | .found (.owned a) => some a | _ => none

/-- An entry with each correctable record written corrected (R205). -/
def fixEntry (e : Entry) : Entry :=
  (List.range 4).foldl (fun e j => match decodeRec e j with | .fixed (.found st) => setRec e j st | _ => e) e

/-- Some record of the entry was corrected; some record is uncorrectable. -/
def anyFixed (e : Entry) : Bool := (List.range 4).any fun j => match decodeRec e j with | .fixed _ => true | _ => false
@[inherit_doc anyFixed] def anyBad (e : Entry) : Bool := (List.range 4).any fun j => decodeRec e j == .bad

/-! Rows, ways and the stage. -/

/-- The Evgan tier is present and in use (R8). -/
def State.evganPresent (s : State) : Bool := s.flag oFilter 0

/-- The row that a set uses: a spare row while a valid remap word names the set (R366). -/
def State.row (s : State) (k : Nat) (ev : Bool) (set : Nat) : Nat :=
  let n := if ev then 32 else 16
  let base := if ev then 0x400 else 0x300
  let total := if ev then Config.evganSets else Config.ondieSets
  match (List.range n).find? fun i =>
      let r := s.reg (oSl k (base + 8 * i))
      r.getLsbD 0 && (bits r 4 14).toNat == set with
  | some i => total + i
  | none => set

/-- Position of a set in the order of the walks: on-die sets, then Evgan sets. -/
def setPos (ev : Bool) (set : Nat) : Nat := if ev then Config.ondieSets + set else set

/-- A set that a takeover has marked unzeroed and nothing has zeroed yet (R404). -/
def Slice.unzeroed (sl : Slice) (ev : Bool) (set : Nat) : Bool :=
  sl.tk.zeroPos ≤ setPos ev set && !(sl.tk.zeroed.contains (setPos ev set))

/-- The word of a way as a read sees it: the newest buffered write, else the array (R213). -/
def State.wayAt (s : State) (k : Nat) (ev : Bool) (set way : Nat) : Entry :=
  let sl := s.sl k
  if sl.unzeroed ev set then 0
  else
    let key := 16 * s.row k ev set + way
    if ev then
      match (sl.wbuf.reverse.find? fun w => w.1 == key) with
      | some w => w.2.1
      | none => tget 0 sl.evgan key
    else tget 0 sl.ondie key

/-- The stage entry at an index. -/
def State.stageAt (s : State) (k i : Nat) : Stage := tget {} (s.sl k).stage i

/-- The word of an entry. -/
def State.entry (s : State) (k : Nat) : Loc → Entry
  | .ondie set way => s.wayAt k false set way
  | .evgan set way => s.wayAt k true set way
  | .stage i => (s.stageAt k i).word

/-- Bank of a place (R371). -/
def bankOf : Loc → Nat
  | .ondie set _ => set / 1024 | .evgan set _ => 4 + set / 2048 | .stage _ => 12
/-- Set and tier of a place, as events report them (R539). -/
def setOf : Loc → Nat × Nat
  | .ondie set _ => (set, 0) | .evgan set _ => (set, 1) | .stage i => (i, 2)

/-- The flip mask meets a write of a filter word to a bank (R378): the word as stored. -/
def State.flipWord (s : State) (k bank : Nat) (e : Entry) : Entry × State :=
  if s.flag oFlip 0 && s.fld oFlip 4 4 == k && s.fld oFlip 8 4 == bank && s.fld oFlip 12 2 ≤ 1 then
    let m := bits (s.reg oFlip) 16 8
    let j := s.fld oFlip 14 2
    let e' := if s.fld oFlip 12 2 = 0 then setBits e (59 + 33 * j) 6 (eCheck e j ^^^ bits m 0 6)
              else setBits e 30 2 (eTpar e ^^^ bits m 0 2)
    (e', (s.setFlag oFlip 0 false).setFlag oFlip 1 true)
  else (e, s)

/-- The flip mask meets a write of a SEC-DED word in banks 12 to 15 (R378): the bits inverted. -/
def State.flipStore (s : State) (k bank : Nat) : BitVec 8 × State :=
  if s.flag oFlip 0 && s.fld oFlip 4 4 == k && s.fld oFlip 8 4 == bank && s.fld oFlip 12 2 == 2 then
    (bits (s.reg oFlip) 16 8, (s.setFlag oFlip 0 false).setFlag oFlip 1 true)
  else (0, s)

/-- A store is written: the flip mask meets the first SEC-DED word of the write in bank `bank`, whose inverted check bits `f` keeps (R378). -/
def State.withFlip (s : State) (k bank : Nat) (f : State → BitVec 8 → State) : State :=
  let (m, s) := s.flipStore k bank
  f s m

/-- The conflict-table word of a tag is written, and the flip mask may meet it; a failed slice's table has left service (R378, R395). -/
def State.flipTable (s : State) (h t : Nat) : State :=
  if s.sliceFailed h then s
  else s.withFlip h 12 fun s m => s.updSl h fun sl => { sl with tflips := tputD 0 t m sl.tflips }

/-- Charge accesses of a slice's Evgan partition in the frame (R236); a failed slice's partition stays in service with its own budget
(R395). -/
def State.useEvgan (s : State) (h n : Nat) : State := s.updSl h fun sl => { sl with evUsed := sl.evUsed + n }

/-- Zero a set that a takeover marked unzeroed, with its replacement and heat words, at a cost of one access (R404); the flip mask
meets the first word of an on-die set (R378). -/
def State.zeroSet (s : State) (k : Nat) (ev : Bool) (set : Nat) : State :=
  if (s.sl k).unzeroed ev set then
    let r := s.row k ev set
    let keys := (List.range 16).map fun w => 16 * r + w
    let (e, s) := if ev then (0, s.useEvgan k 1) else s.flipWord k (set / 1024) 0
    s.updSl k fun sl =>
      let tk := { sl.tk with zeroed := sl.tk.zeroed ++ [setPos ev set] }
      if ev then { sl with evgan := keys.foldl (fun t i => tdel i t) sl.evgan, replEv := tdel r sl.replEv
                           heat := keys.foldl (fun t i => tdel i t) sl.heat
                           wbuf := sl.wbuf.filter (fun w => !(keys.contains w.1)), tk := tk }
      else { sl with ondie := tputD 0 (16 * r) e (keys.foldl (fun t i => tdel i t) sl.ondie), replOn := tdel r sl.replOn, tk := tk }
  else s

/-- Queue a word for its reread (R367); `scrub`: the running scrub calls for it (R384). -/
def Slice.addReread (sl : Slice) (l : Loc) (scrub : Bool) : Slice :=
  { sl with reread := if sl.reread.contains l then sl.reread else sl.reread ++ [l]
            maint := if scrub && sl.maint.running == some .scrub then { sl.maint with rereads := sl.maint.rereads ++ [l] } else sl.maint }

/-- A write of a word carries the correction of an error that a read found in it, and the word is then to be reread (R205, R367). -/
def Slice.wordWritten (sl : Slice) (l : Loc) : Slice :=
  let scrub := sl.maint.fixes.contains l
  let due := (sl.correct.any fun c => c.2 == l) || scrub
  let sl := { sl with correct := sl.correct.filter fun c => c.2 != l
                      maint := { sl.maint with fixes := sl.maint.fixes.filter fun p => p != l } }
  if due then sl.addReread l scrub else sl

/-- Write an entry (R213): into the on-die way, the write buffer, or the stage. -/
def State.putEntry (s : State) (k : Nat) (l : Loc) (e : Entry) : State :=
  let s := s.updSl k fun sl => sl.wordWritten l
  match l with
  | .ondie set way =>
    let s := s.zeroSet k false set
    let (e, s) := s.flipWord k (set / 1024) e
    s.updSl k fun sl => { sl with ondie := tputD 0 (16 * s.row k false set + way) e sl.ondie }
  | .evgan set way =>
    let s := s.zeroSet k true set
    s.updSl k fun sl => { sl with wbuf := sl.wbuf ++ [(16 * s.row k true set + way, e, s.frame)] }
  | .stage i =>
    let (e, s) := s.flipWord k 12 e
    s.updSl k fun sl => { sl with stage := tput i { tget {} sl.stage i with used := true, claimed := false, word := e } sl.stage }

/-- A stage entry frees: its word is written to zeros, and a spillway transaction that has not issued for it is cancelled (R183,
R378, R587). -/
def State.clearStage (s : State) (k i : Nat) : State :=
  let (e, s) := s.flipWord k 12 0
  s.updSl k fun sl => { sl.wordWritten (.stage i) with stage := tputD {} i { word := e } sl.stage, spillQ := sl.spillQ.filter fun j => j != i }

/-- Every stage entry is written to zeros; the flip mask meets the first word (R378, R398). -/
def State.zeroStage (s : State) (k : Nat) : State :=
  let (e, s) := s.flipWord k 12 0
  s.updSl k fun sl => { sl with stage := tputD {} 0 { word := e } [] }

/-- The on-die array is written to zeros; the flip mask meets the first word of its bank (R245, R378). -/
def State.zeroOndie (s : State) (k : Nat) : State :=
  foldSt (List.range 4) (fun s b =>
    let (e, s) := s.flipWord k b 0
    s.updSl k fun sl => { sl with ondie := tputD 0 (16 * s.row k false (1024 * b)) e sl.ondie }) (s.updSl k fun sl => { sl with ondie := [] })

/-! The side arrays and their parity (R213, R214). -/

/-- A replacement word, and a heat counter, with its parity bit. -/
def replWord (x : BitVec 64) : BitVec 65 := x.setWidth 65 ||| ((b1 (xorBits x 64)).setWidth 65 <<< 64)
@[inherit_doc replWord] def heatWord (x : BitVec 3) : BitVec 4 := x.setWidth 4 ||| ((b1 (xorBits x 3)).setWidth 4 <<< 3)

/-- The replacement word of a set as a read takes it: zeros where its parity fails (R214). -/
def State.replAt (s : State) (k : Nat) (ev : Bool) (set : Nat) : BitVec 64 :=
  let x := tget 0 (if ev then (s.sl k).replEv else (s.sl k).replOn) (s.row k ev set)
  if xorBits x 65 then 0 else x.setWidth 64

/-- A heat counter as a read takes it: 0 where its parity fails (R214). -/
def Slice.heatAt (sl : Slice) (key : Nat) : Nat :=
  let x := tget 0 sl.heat key
  if xorBits x 4 then 0 else (x.setWidth 3).toNat

/-- Write a heat counter. -/
def Slice.putHeat (sl : Slice) (key n : Nat) : Slice := { sl with heat := tputD 0 key (heatWord (BitVec.ofNat 3 n)) sl.heat }

/-- A read of a set's replacement word: one that fails its parity is reset to zeros and counted with its bank's correctable errors
(R214, R372). -/
def State.readRepl (s : State) (k : Nat) (ev : Bool) (set : Nat) : State :=
  let r := s.row k ev set
  if xorBits (tget 0 (if ev then (s.sl k).replEv else (s.sl k).replOn) r) 65 then
    (s.correctable k (if ev then 4 + set / 2048 else set / 1024) set (if ev then 1 else 0)).updSl k fun sl =>
      if ev then { sl with replEv := tdel r sl.replEv } else { sl with replOn := tdel r sl.replOn }
  else s

/-- A read of a heat counter: one that fails its parity reads as 0 and is counted with its bank's correctable errors (R214, R372). -/
def State.readHeat (s : State) (k set way : Nat) : State :=
  let key := 16 * s.row k true set + way
  if xorBits (tget 0 (s.sl k).heat key) 4 then
    (s.correctable k (4 + set / 2048) set 1).updSl k fun sl => { sl with heat := tdel key sl.heat }
  else s

/-! Replacement (R221 to R223). -/

/-- The nodes on a way's path, with the branch taken (R222). -/
def plruPath (w : Nat) : List (Nat × Bool) :=
  let b3 := w / 8 % 2; let b2 := w / 4 % 2; let b1 := w / 2 % 2; let b0 := w % 2
  [(0, b3 == 1), (1 + b3, b2 == 1), (3 + 2 * b3 + b2, b1 == 1), (7 + 4 * b3 + 2 * b2 + b1, b0 == 1)]

/-- Set bit `n` of a word. -/
def setBit (x : BitVec 64) (n : Nat) (v : Bool) : BitVec 64 := setBits x n 1 (b1 v)

/-- touch(w): each node points away from the way; with `away := false`, toward it (R222, R320). -/
def plruTouch (x : BitVec 64) (w : Nat) (away : Bool) : BitVec 64 :=
  (plruPath w).foldl (fun x p => setBit x p.1 (if away then !p.2 else p.2)) x

/-- victim(candidates) of R222: walk `levels` levels from node `n` that covers the ways from `lo`. -/
def plruVictim (x : BitVec 64) (cand : List Nat) : (levels n lo : Nat) → Nat
  | 0, n, _ => n - 15
  | l + 1, n, lo =>
    let half := 2 ^ l
    let dir := x.getLsbD n
    let under (d : Bool) : Bool := cand.any fun w => (if d then lo + half else lo) ≤ w && w < (if d then lo + 2 * half else lo + half)
    let dir := if under dir then dir else !dir
    plruVictim x cand l (2 * n + 1 + (if dir then 1 else 0)) (if dir then lo + half else lo)

/-- The order of use a word holds, least recently touched first; all zeros reads as 0, 1, …, 15 (R223). -/
def lruOrder (x : BitVec 64) : List Nat :=
  if x = 0 then List.range 16 else (List.range 16).map fun r => (bits x (4 * r) 4).toNat

/-- The word that holds an order of use. -/
def lruWord (l : List Nat) : BitVec 64 :=
  (List.range 16).foldl (fun x r => x ||| ((BitVec.ofNat 64 ((l[r]?).getD 0)) <<< (4 * r))) 0

/-- LRU_MODE (R224): exact LRU. -/
def State.exactLru (s : State) : Bool := s.flag oFilter 1

/-- Touch a way: it becomes the most recently used one, or with `last := false` the next victim (R221, R320). -/
def State.touch (s : State) (k : Nat) (ev : Bool) (set way : Nat) (last : Bool) : State :=
  let s := s.readRepl k ev set
  let r := s.row k ev set
  let x := s.replAt k ev set
  let y := if s.exactLru then
      let o := (lruOrder x).filter (fun w => w != way)
      lruWord (if last then o ++ [way] else way :: o)
    else plruTouch x way last
  s.updSl k fun sl =>
    if ev then { sl with replEv := tputD 0 r (replWord y) sl.replEv } else { sl with replOn := tputD 0 r (replWord y) sl.replOn }

/-- The replacement victim among candidates (R222, R223). -/
def State.victim (s : State) (k : Nat) (ev : Bool) (set : Nat) (cand : List Nat) : Option Nat :=
  if cand.isEmpty then none
  else
    let x := s.replAt k ev set
    if s.exactLru then (lruOrder x).find? fun w => cand.contains w else some (plruVictim x cand 4 0 0)

/-! Masks and locks (R217, R218). -/

/-- The ways a tenant may allocate in a tier; a mask of 0 acts as all ways. -/
def State.maskWays (s : State) (ten : Nat) (ev : Bool) : List Nat :=
  let m := s.fld (oTn ten 8) (if ev then 16 else 0) 16
  (List.range 16).filter fun w => m = 0 || m.testBit w

/-- A way is locked in every set (R218). -/
def State.wayLocked (s : State) (ev : Bool) (w : Nat) : Bool := s.flag oWaylock (if ev then 16 + w else w)

/-- A set of the bank whose failure failed the slice: no mask includes its ways (R405). -/
def State.badSet (s : State) (k : Nat) (l : Loc) : Bool :=
  s.sliceFailed k && s.fld (oSl k 0x90) 2 4 == 5 && (s.sl k).tk.badBank == some (bankOf l)

/-- The staged entry may move into a way: its set, and its tenant's masks allow the way (R587). -/
def State.stageFits (s : State) (k i : Nat) (l : Loc) : Bool :=
  let g := s.stageAt k i
  g.used && !isFree g.word && tagOk g.word &&
  (match l with
   | .ondie set w =>
      setD (sectorFrom (eTag g.word) g.set) == set && (s.maskWays g.ten false).contains w && !s.badSet k l
   | .evgan set w =>
      setE (sectorFrom (eTag g.word) g.set) == set && (s.maskWays g.ten true).contains w && !s.badSet k l
   | .stage _ => false)

/-- The oldest staged entry of a set whose tenant's masks allow a way (R587). -/
def State.stagedFor (s : State) (k : Nat) (l : Loc) : Option Nat :=
  minBy (fun i => (s.stageAt k i).since) ((List.range Config.stageEntries).filter fun i => s.stageFits k i l)

/-- A way of a tier. -/
def wayLoc (ev : Bool) (set w : Nat) : Loc := if ev then .evgan set w else .ondie set w

/-- A way is free: its entry tracks no line, and it did not become so in this frame (R207). -/
def State.wayFree (s : State) (k : Nat) (ev : Bool) (set w : Nat) : Bool :=
  isFree (s.wayAt k ev set w) && !((s.sl k).freed.contains (wayLoc ev set w))

/-- A free allowed way: a locked one before an unlocked one, lowest first (R215); one that a staged entry is to move into is kept for it
(R226, R587). -/
def State.freeWay (s : State) (k ten : Nat) (ev : Bool) (set : Nat) : Option Nat :=
  if s.badSet k (wayLoc ev set 0) then none
  else
    let free := (s.maskWays ten ev).filter fun w => s.wayFree k ev set w && (s.stagedFor k (wayLoc ev set w)).isNone
    match free.find? fun w => s.wayLocked ev w with
    | some w => some w
    | none => free.head?

/-- Where a new entry of a sector goes (R215; for a marked `Claim` the Evgan tier first, R320); none: to the stage. -/
def State.placeFor (s : State) (k ten : Nat) (x : SectorAddr) (marked : Bool) : Option Loc :=
  let on := (s.freeWay k ten false (setD x)).map fun w => Loc.ondie (setD x) w
  let ev := if s.evganPresent then (s.freeWay k ten true (setE x)).map fun w => Loc.evgan (setE x) w else none
  if marked then ev.or on else on.or ev

/-- Stage entries neither used nor claimed, lowest first (R179, R262). -/
def State.stageFree (s : State) (k : Nat) : List Nat :=
  (List.range Config.stageEntries).filter fun i => !(s.stageAt k i).used && !(s.stageAt k i).claimed

/-- The stage entry a transaction of a class may take: one it claimed, else the lowest free one under the C0 reserve (R262). -/
def State.stageFor (s : State) (k cls : Nat) (claim : Option Nat) : Option Nat :=
  match claim with
  | some i => some i
  | none => if cls = 0 || 2 < (s.stageFree k).length then (s.stageFree k).head? else none

/-- The Evgan write buffer has room for a class (R263). -/
def State.wbufRoom (s : State) (k cls : Nat) : Bool :=
  let free := Config.writeBuffer - (s.sl k).wbuf.length
  if cls = 0 then 0 < free else 4 < free

/-! Locks. -/

/-- The transaction holds the lock of a line (R132, R588). -/
def Txn.holds (t : Txn) (l : LineAddr) : Bool :=
  t.st != .free &&
  (if t.want = 4 then sectorOf t.line == sectorOf l && lineIdx l < t.locked else t.want == 1 && t.locked == 1 && t.line == l)

/-- The tag that holds the lock of a line. -/
def State.holder (s : State) (k : Nat) (l : LineAddr) : Option Nat :=
  ((s.sl k).txns.find? fun p => p.2.holds l).map fun p => p.1

/-- The waiter chain of a line (R133). -/
def State.chain (s : State) (k : Nat) (l : LineAddr) : List Nat :=
  match (s.sl k).chains.find? fun c => c.1 == l with | some c => c.2 | none => []

/-- A request that issues finds the line locked: held, or released to the head of its chain (R163). -/
def State.lineBusy (s : State) (k : Nat) (l : LineAddr) : Bool := (s.holder k l).isSome || !(s.chain k l).isEmpty

/-- Some line of the sector is locked. -/
def State.sectorLocked (s : State) (k : Nat) (x : SectorAddr) : Bool :=
  (List.range 4).any fun j => s.lineBusy k (lineIn x j)

/-- Victim candidates of a set for a tenant (R178, R219). -/
def State.candidates (s : State) (k ten : Nat) (ev : Bool) (set : Nat) : List Nat :=
  let ok (w : Nat) : Bool :=
    let e := s.wayAt k ev set w
    !isFree e && tagOk e && !s.sectorLocked k (sectorFrom (eTag e) set)
  let ways := if s.badSet k (wayLoc ev set 0) then [] else s.maskWays ten ev
  if ways.all fun w => s.wayLocked ev w then ways.filter ok else ways.filter fun w => !s.wayLocked ev w && ok w

/-! Presence counts (R127). -/

/-- Presence count of an agent in a slice. -/
def State.presence (s : State) (k a : Nat) : Nat := tget 0 (s.sl k).presence a

/-- The maintenance engine has already read the set of a place (R364). -/
def Maint.passedLoc (m : Maint) : Loc → Bool
  | .ondie set _ => set < m.pos | .evgan set _ => Config.ondieSets + set < m.pos
  | .stage _ => Config.ondieSets + Config.evganSets < m.pos

/-- The record of a line at a place changes from `old` to `new`: presence counts follow, and the shadow counts of a recount
walk that has passed the place (R127, R364). Counts are frozen while the filter is disabled (R244), until
a rebuild or the sweep of a takeover counts anew (R245, R419). -/
def State.presenceChange (s : State) (k : Nat) (l : Loc) (old new : Agents) : State :=
  let step (t : Tbl Nat) : Tbl Nat :=
    let t := (vecAgents (old &&& ~~~new)).foldl (fun t a => tputD 0 a (tget 0 t a - 1) t) t
    (vecAgents (new &&& ~~~old)).foldl (fun t a => tputD 0 a (tget 0 t a + 1) t) t
  let frozen := !s.flag (oSl k 0x28) 0 && !s.flag (oSl k 0x28) 4 && (s.sl k).sweep.isNone
  s.updSl k fun sl =>
    let sl := if frozen then sl else { sl with presence := step sl.presence }
    if sl.maint.running == some .recount && sl.maint.passedLoc l then
      { sl with maint := { sl.maint with shadow := step sl.maint.shadow } }
    else sl

/-! Freeing a way and the staged move (R207, R587). -/

/-- The agents that an entry's records name. -/
def entryAgents (e : Entry) : Agents :=
  (List.range 4).foldl (fun v j => v ||| (match decodeRec e j with | .bad => 0 | d => d.known.vec)) 0

/-- A sector lies in the range of the range invalidation (R238), which is that of the registers now: a write of LZ_RINV_BASE or
LZ_RINV_LIMIT while BUSY changes it. DESIGN CHOICE, log entry 44. -/
def State.inRinv (s : State) (x : SectorAddr) : Bool :=
  (bits (s.reg oRinvBase) 0 36).toNat ≤ x.toNat && x.toNat ≤ (bits (s.reg oRinvLimit) 0 36).toNat

/-- An operation has a transaction to start for an entry of a sector (R239, R447, R458, R586). -/
def State.opCovers (s : State) (op : MaintOp) (x : SectorAddr) (e : Entry) : Bool :=
  match op with
  | .rinv => s.inRinv x
  | .agentWalk a => (entryAgents e).getLsbD a || anyBad e
  | .lossSweep v => (entryAgents e &&& v) != 0 || anyBad e
  | .recount | .scrub => false

/-- Add an entry's vector bits to shadow counts, or take them away (R364). -/
def shadowAdd (add : Bool) (t : Tbl Nat) (e : Entry) : Tbl Nat :=
  (List.range 4).foldl (fun t j =>
    match decodeRec e j with
    | .bad => t
    | d => (vecAgents d.known.vec).foldl (fun t a => tputD 0 a (if add then tget 0 t a + 1 else tget 0 t a - 1) t) t) t

/-- An entry moves from one place to another while an operation reads the sets: one that has passed the new place but not the old one
visits the sector as well, and the shadow counts of a recount follow the entry (R242, R364, R449, R459). DEDUCED, log entry 41. -/
def State.entryMoved (s : State) (k : Nat) (src dst : Loc) (x : SectorAddr) (e : Entry) : State :=
  let m := (s.sl k).maint
  match m.running with
  | none => s
  | some op =>
    let seen := m.passedLoc dst
    if m.passedLoc src == seen then s
    else
      let m := if op = MaintOp.recount then { m with shadow := shadowAdd seen m.shadow e }
        else if seen && s.opCovers op x e && !(m.found.contains x) then { m with found := m.found ++ [x] } else m
      s.updSl k fun sl => { sl with maint := m }

/-- The correction of an error in the word at a place is due already. -/
def Slice.fixDue (sl : Slice) (l : Loc) : Bool := (sl.correct.any fun c => c.2 == l) || sl.maint.fixes.contains l

/-- A word is read to be moved: each correction that is not due already is counted, the word that is written is corrected, and the place
that it leaves is to be reread (R205, R367, R372). -/
def State.moveRead (s : State) (k : Nat) (l : Loc) : Entry × State :=
  let e := s.entry k l
  if (s.sl k).fixDue l || !anyFixed e then (fixEntry e, s)
  else
    let s := (List.range 4).foldl (fun s j => match decodeRec e j with
      | .fixed _ => s.correctable k (bankOf l) (setOf l).1 (setOf l).2 | _ => s) s
    (fixEntry e, s.updSl k fun sl => sl.addReread l false)

/-- Move staged entry `i` into a way: the way is touched, its heat is 0, and the stage entry frees (R183, R205, R227, R587). -/
def State.stageMove (s : State) (k i : Nat) (l : Loc) : State :=
  let g := s.stageAt k i
  let (e, s) := s.moveRead k (.stage i)
  let s := (s.putEntry k l e).entryMoved k (.stage i) l (sectorFrom (eTag e) g.set) e
  let s := match l with
    | .ondie set w => s.touch k false set w true
    | .evgan set w => (s.touch k true set w true).updSl k fun sl => { sl with heat := tdel (16 * s.row k true set + w) sl.heat }
    | .stage _ => s
  s.clearStage k i

/-- Write an entry to zeros: its way is free from the next frame (R207). -/
def State.zeroEntry (s : State) (k : Nat) (l : Loc) : State :=
  match l with
  | .stage i => s.clearStage k i
  | _ => (s.putEntry k l 0).updSl k fun sl => { sl with freed := sl.freed ++ [l] }

/-- The free way that a staged entry may move into, in the order of R215 (R587). -/
def State.wayForStaged (s : State) (k i : Nat) : Option Loc :=
  let g := s.stageAt k i
  let x := sectorFrom (eTag g.word) g.set
  let inTier (ev : Bool) : Option Loc :=
    let set := if ev then setE x else setD x
    ((List.range 16).find? fun w => s.wayFree k ev set w && s.stageFits k i (wayLoc ev set w)).map (wayLoc ev set)
  if !g.used then none else (inTier false).or (if s.evganPresent then inTier true else none)

/-- Staged entries, oldest first. -/
def State.stagedOrder (s : State) (k : Nat) : List Nat :=
  (((s.sl k).stage.filter fun p => p.2.used).foldl (fun l p => insertBy (fun a b => (s.stageAt k a).since < (s.stageAt k b).since) p.1 l) [])

/-- Write the record of a line in its entry; an entry left with no line is written to zeros (R143, R207). `lost`: the record that is
replaced was lost, and no count is decremented for it (R358). -/
def State.writeAt (s : State) (k : Nat) (l : Loc) (j : Nat) (st : LineState) (lost : Bool) : State :=
  let e := s.entry k l
  let old := if lost then 0 else match decodeRec e j with | .bad => (0 : Agents) | d => d.known.vec
  let s := s.presenceChange k l old (stVec st)
  let e' := setRec e j st
  if isFree e' then s.zeroEntry k l else s.putEntry k l (fixEntry e')

/-! Probes (R208, R211). -/

/-- The answer of a probe: the place of the sector's entry, what is known of the line, and the places whose tag failed. -/
structure Probe where
  loc     : Option Loc
  known   : Known
  failing : List Loc
  deriving DecidableEq, Repr

/-- The places a probe searches: stage, on-die set, Evgan set. -/
def State.probePlaces (s : State) (x : SectorAddr) : List Loc :=
  ((List.range Config.stageEntries).map Loc.stage) ++ ((List.range 16).map fun w => Loc.ondie (setD x) w) ++
  (if s.evganPresent then (List.range 16).map fun w => Loc.evgan (setE x) w else [])

/-- The set index that completes an entry's address (R201). -/
def State.setIdx (s : State) (k : Nat) : Loc → Nat
  | .ondie set _ => set | .evgan set _ => set | .stage i => (s.stageAt k i).set

/-- Probe for a line (R208, R211). -/
def State.probe (s : State) (k : Nat) (l : LineAddr) : Probe :=
  let x := sectorOf l
  let used := (s.probePlaces x).filter fun p => !isFree (s.entry k p)
  let failing := used.filter fun p => !tagOk (s.entry k p)
  let hit := used.find? fun p => tagOk (s.entry k p) && sectorFrom (eTag (s.entry k p)) (s.setIdx k p) == x
  let known := match hit with | some p => knownAt (s.entry k p) (lineIdx l) | none => .found .untracked
  ⟨hit, if failing.isEmpty then known else .lost, failing⟩

/-- Find the entry of a sector, without effect. -/
def State.find (s : State) (k : Nat) (x : SectorAddr) : Option Loc := (s.probe k (lineIn x 0)).loc

end Sys2Proof.Machine
end

