-- ==== Sys2Proof/Machine/Journal.lean ====
section
/-! DEFINITION. Journal records (R389), what a change of a transaction sends over the runnel (R62, R385 to R388), and the
journal store (R386, R390, R391). -/

namespace Sys2Proof.Machine

/-- State codes (R136, R336); 0xA to 0xF are the home-account states, of which the spec names none singly. -/
def TState.code : TState → Nat
  | .free => 0 | .waiting => 1 | .probing => 2 | .snooping => 3 | .memory => 4 | .ackwait => 5 | .holding => 6
  | .alu => 7 | .gather => 8 | .orderwait => 9 | .home => 10

/-- The state a code names. -/
def stateOfCode (c : Nat) : TState :=
  if c = 0 then .free else if c = 1 then .waiting else if c = 2 then .probing else if c = 3 then .snooping
  else if c = 4 then .memory else if c = 5 then .ackwait else if c = 6 then .holding else if c = 7 then .alu
  else if c = 8 then .gather else if c = 9 then .orderwait else .home

/-- The epoch of a tag (R75). -/
def State.epoch (s : State) (h t : Nat) : BitVec 2 := tget 0 (s.sl h).epochs t

/-- The epoch advances by 1, modulo 4 (R75). -/
def State.bumpEpoch (s : State) (h t : Nat) : State :=
  s.updSl h fun sl => { sl with epochs := tputD 0 t (s.epoch h t + 1) sl.epochs }

/-- Agents whose answer a transaction awaits: PENDING (R107, R139, R142). -/
def Txn.pendingVec (x : Txn) : Agents :=
  x.waits.foldl (fun v w => match w.kind with | .first | .resent | .final | .range => vecSet v w.agent | _ => v) 0

/-- The memory field of a record. -/
def Txn.memCode (x : Txn) : Nat :=
  if x.mems.any (fun m => m.op != .rd) then 3
  else if x.mems.any (fun m => !m.discard) then 1
  else if x.mems.isEmpty then 0 else 2

/-- The next waiter behind a tag: behind a waiter, the one after it in its chain; behind a holder, the head of its line's
chain. -/
def State.nextWaiter (s : State) (h t : Nat) (x : Txn) : Option Nat :=
  let c := s.chain h (if x.want = 4 then lineIn (sectorOf x.line) (if x.st = .waiting then x.locked else 0) else x.line)
  if x.st = .waiting then (c.dropWhile (fun u => u != t)).tail.head? else c.head?

/-- Place a field in a record. -/
def rput (lo w v : Nat) : Record := (BitVec.ofNat w v).setWidth 256 <<< lo

/-- NEXT, OPCODE, MERGE_IDX, and ATOP, ASIZE and AOFF of a record; the last three do not apply but to an atomic. -/
def nextField (n : Option Nat) : Record := match n with | some n => rput 8 1 1 ||| rput 9 10 n | none => 0
@[inherit_doc nextField] def opField (x : Txn) : Record := if x.home.isSome then 0 else x.req.op.code.setWidth 256 <<< 21
@[inherit_doc nextField] def mergeField (m : Option Nat) : Record :=
  match m with | some m => rput 242 5 m ||| rput 247 1 1 | none => 0

@[inherit_doc nextField] def atomField (x : Txn) : Record :=
  if x.home.isNone && (x.req.op == .atomNear || x.req.op == .atomFar) then
    rput 194 4 x.req.atop ||| rput 198 2 x.req.asize ||| rput 200 6 x.req.aoff
  else 0

/-- The journal record of a transaction (R389); a tag that is not allocated has its state and its epoch (R75). A home transaction has no
effective class: CLASS is then 0. DEDUCED, log entry 15. -/
def State.record (s : State) (h t : Nat) : Record :=
  let x := s.txn h t
  if x.st = .free then (s.epoch h t).setWidth 256 <<< 5 else
  let r := x.req
  rput 0 1 1 ||| rput 1 4 x.st.code ||| (s.epoch h t).setWidth 256 <<< 5 |||
  rput 7 1 (if x.locked = 0 then 0 else 1) |||
  nextField (s.nextWaiter h t x) |||
  rput 19 2 (if x.home.isSome then 0 else x.cls) ||| opField x ||| rput 27 10 r.src |||
  r.rtid.setWidth 256 <<< 37 ||| rput 47 6 r.tenant ||| x.line.setWidth 256 <<< 53 ||| x.pendingVec.setWidth 256 <<< 91 |||
  x.taken.setWidth 256 <<< 115 ||| rput 139 1 (if x.absorbed.isEmpty then 0 else 1) |||
  rput 140 1 (if x.dirties.isEmpty then 0 else 1) ||| rput 141 2 x.memCode ||| rput 143 1 (if x.cmpSent then 1 else 0) |||
  rput 144 1 (if x.far then 1 else 0) ||| rput 145 1 (if x.promoted then 1 else 0) ||| rput 146 6 x.passed |||
  x.resSt.setWidth 256 <<< 152 ||| x.resVec.setWidth 256 <<< 154 ||| r.seq.setWidth 256 <<< 178 ||| atomField x |||
  rput 206 16 r.arrival ||| rput 222 16 x.issue ||| rput 238 4 x.slot |||
  mergeField x.merge

/-- Field `[lo+w-1:lo]` of a record. -/
def rget (r : Record) (lo w : Nat) : Nat := (bits r lo w).toNat

/-- The record of tag `t` of slice `h` is in the store of `h`'s buddy (R386). -/
def State.storeRecord (s : State) (h t : Nat) (r : Record) : State :=
  let b := buddy h
  if s.flag (oSl b 0x88) 1 then s else
  let (flip, s) := s.flipStore b 13
  s.updSl b fun sl => { sl with journal := tputD 0 t r sl.journal, jflips := tputD 0 t flip sl.jflips }

/-- Journal a change of tag `t` of logical slice `h`: one record per tag and frame, holding the latest state (R62, R387); a
range served by the buddy keeps its records there directly (R402), and a retired store receives none (R391). The change is a write of
the tag's conflict-table word, which the flip mask may meet (R378). DEDUCED, log entry 15. -/
def State.jr (s : State) (h t : Nat) : State :=
  let s := s.flipTable h t
  let r := s.record h t
  if s.flag (oSl (buddy h) 0x88) 1 then s
  else if s.sliceFailed h then s.storeRecord h t r
  else
    let old := (s.sl h).runnel.filter fun e => !(e.1 == s.frame && e.2.1 == t)
    let sent := (s.sl h).recsSent + (if old.length = (s.sl h).runnel.length then 1 else 0)
    s.updSl h fun sl => { sl with runnel := old ++ [(s.frame, t, r)], recsSent := sent }

/-- Store a transaction and journal the change. -/
def State.put (s : State) (h t : Nat) (x : Txn) : State := (s.setTxn h t x).jr h t

/-- Change a transaction and journal the change. -/
def State.upd (s : State) (h t : Nat) (f : Txn → Txn) : State := s.put h t (f (s.txn h t))

/-- The chain of a line changes: every tag whose NEXT differs is journaled (R62, R387). -/
def State.setChain (s : State) (h : Nat) (l : LineAddr) (new : List Nat) : State :=
  let r := s.updSl h fun sl =>
    { sl with chains := if new.isEmpty then sl.chains.filter fun c => c.1 != l
                        else if sl.chains.any fun c => c.1 == l then sl.chains.map fun c => if c.1 = l then (l, new) else c
                        else (l, new) :: sl.chains }
  let tags := (match s.holder h l with | some t => [t] | none => []) ++ new
  tags.foldl (fun r t => if r.nextWaiter h t (r.txn h t) = s.nextWaiter h t (s.txn h t) then r else r.jr h t) r

/-- The transaction of a tag is one of class C0 (R388). -/
def State.isC0 (s : State) (h t : Nat) : Bool := (s.txn h t).home.isNone && (s.txn h t).cls == 0

/-- C0 transactions that still have work in this frame and no record in it yet: their records go before the others (R388). -/
def State.c0Owed (s : State) (k : Nat) : Nat :=
  (((s.agenda.filter fun d => d.frame ≤ s.frame && d.slice == k && s.isC0 k d.tag &&
    !((s.sl k).runnel.any fun e => e.1 == s.frame && e.2.1 == d.tag)).map fun d => d.tag).eraseDups).length

/-- The slices in which the changes of a step do not fit in the 128 records of a frame (R385, R388): those of class C0 need room for
themselves, the others beside what C0 has still to send. -/
def State.unfit (s : State) (c0 : Bool) (r : State) : List Nat :=
  (List.range s.nSlices).filter fun k =>
    (r.sl k).recsSent != (s.sl k).recsSent && 128 < (r.sl k).recsSent + (if c0 then 0 else r.c0Owed k)

/-- The changes of a step fit in the 128 records that a slice sends in a frame (R385, R388). DEDUCED, log entry 16. -/
def State.fits (s : State) (c0 : Bool) (r : State) : Bool := (s.unfit c0 r).isEmpty

/-- A frame in which slice `k` defers a record is counted once (R388). -/
def State.noteDefer (s : State) (k : Nat) : State :=
  if (s.sl k).deferring then s else (s.incFld (oSl k 0x88) 29 24 1).updSl k fun sl => { sl with deferring := true }

/-- The changes from `s` to `r`, or, where their records do not fit in the frame, none of them (R388). DEDUCED, log entry 16. -/
def State.recorded (s : State) (c0 : Bool) (r : State) : State :=
  if s.fits c0 r then r else (s.unfit c0 r).foldl State.noteDefer s

/-- The changes of a tag's transaction, or none: the frame is then one that its watchdog does not count (R388). -/
def State.recordedFor (s : State) (h t : Nat) (r : State) : State :=
  if s.fits (s.isC0 h t) r then r
  else (s.recorded (s.isC0 h t) r).updSl h fun sl => { sl with deferTags := sl.deferTags ++ [t] }

/-- The changes of what is taken in a frame's first hclk, or, where their records do not fit in the frame, none: it is taken in the next
(R388). DEDUCED, log entry 16. -/
def State.taken (s : State) (h t : Nat) (l : Late) (r : State) : State :=
  if s.fits (s.isC0 h t) r then r else let d := s.recordedFor h t r; { d with late := d.late ++ [l] }

/-- The holding slice retires its journal store (R391). -/
def State.retireJournal (s : State) (h : Nat) : State :=
  if s.flag (oSl h 0x88) 1 then s else
  let s := ((s.setFlag (oSl h 0x88) 0 false).setFlag (oSl h 0x88) 1 true).faultDue (72 * h + 41) 0 (BitVec.ofNat 64 h)
  (s.raiseSl h 41 0 (BitVec.ofNat 64 h)).updSl h fun sl => { sl with invalid := [] }

/-- An uncorrectable journal record of tag `t` in the store of slice `h` (R374, R390, R391); a failed writer sends nothing (R394). -/
def State.badRecord (s : State) (h t : Nat) : State :=
  let s := (s.uncorrectable h 13 t 2).raiseSl h 41 0 (BitVec.ofNat 64 h)
  let sl := s.sl h
  let errs := if t ∈ sl.jrecErrs then sl.jrecErrs else sl.jrecErrs ++ [t]
  let again := t ∈ sl.asked
  let inv := if t ∈ sl.invalid then sl.invalid else sl.invalid ++ [t]
  let s := (s.setSl h { sl with jrecErrs := errs, invalid := inv, asked := sl.asked.filter (fun u => u != t) ++ [t] }).setFld
    (oSl h 0x88) 2 11 inv.length
  let w := buddy h
  if again || 4 ≤ errs.length then s.retireJournal h
  else if s.sliceFailed w then s
  else
    let s := s.incFld (oSl w 0x88) 13 16 1
    s.updSl w fun sl => { sl with resends := sl.resends ++ [(s.frame, t)] }

/-- The records that the buddy asked for in an earlier frame are sent again, after the regular records of this frame; a regular one of the
tag stands in for it (R390). -/
def State.sendAgainRecs (s : State) (w : Nat) : State :=
  let due := (s.sl w).resends.filter fun e => e.1 < s.frame
  let s := s.updSl w fun sl => { sl with resends := sl.resends.filter fun e => !(e.1 < s.frame) }
  due.foldl (fun s e =>
    if (s.sl w).runnel.any fun r => r.1 == s.frame && r.2.1 == e.2 then s
    else s.updSl w fun sl => { sl with runnel := sl.runnel ++ [(s.frame, e.2, s.record w e.2)] }) s

/-- A record arrives in the store of slice `h` and is decoded (R390). -/
def State.takeRecord (s : State) (h : Nat) (e : Nat × Nat × Record) (ecc : Ecc) : State :=
  if s.flag (oSl h 0x88) 1 then s else
  match ecc with
  | .uncorrectable => s.badRecord h e.2.1
  | _ =>
    let s := if ecc = .corrected then s.correctable h 13 e.2.1 2 else s
    let s := s.storeRecord (buddy h) e.2.1 e.2.2
    let inv := (s.sl h).invalid.filter fun u => u != e.2.1
    (s.updSl h fun sl => { sl with invalid := inv, asked := sl.asked.filter fun u => u != e.2.1 }).setFld (oSl h 0x88) 2 11
      inv.length

/-- JOURNAL_RECORD_RECEIVE: the oldest record on the runnel to a slice arrives and is decoded (R385, R390). -/
def execJournalRecordReceive (k : Nat) (ecc : Ecc) (s : State) : Outcome :=
  live s <| need (k < s.nSlices) <|
  match (s.sl (buddy k)).runnel with
  | [] => .next s
  | e :: rest =>
    if s.frame < e.1 then .next s
    else .next ((s.updSl (buddy k) fun sl => { sl with runnel := rest }).takeRecord k e ecc)

/-- The records sent in earlier frames are in their stores by the end of the frame (R385). -/
def State.flushRunnel (s : State) (w : Nat) : State :=
  let due := (s.sl w).runnel.filter fun e => e.1 < s.frame
  let s := s.updSl w fun sl => { sl with runnel := sl.runnel.filter fun e => !(e.1 < s.frame) }
  due.foldl (fun s e => s.takeRecord (buddy w) e .clean) s

end Sys2Proof.Machine
end

