-- ==== Sys2Proof/Machine/Weir.lean ====
section
/-! DEFINITION. The weir: allowance, class, meter, fair queues, red hold, credits and the request store (R54, R56, R258 to R260,
R268 to R297, R450, R523). -/

namespace Sys2Proof.Machine

/-- Base cost of a request (R271). -/
def ReqOp.cost : ReqOp → Nat
  | .rdShared | .rdOwn | .rdCur => 8 | .upgrade | .claim => 4 | .atomNear | .atomFar => 12 | .evictClean => 2
  | .wbDirty | .wrFull | .wrStream => 8 | .wrPart => 12 | .agentSleep | .fence => 1

/-- C0_SLOTS in force: values 9 to 15 act as 8 (R254). -/
def State.c0Slots (s : State) : Nat := min 8 (s.fld oSlot 0 4)
/-- The C0 slots for a count (R254). -/
def c0Map (n : Nat) : List Nat := (List.range n).map fun k => 16 * k / n
/-- C0_TAGS in force: values below 16 act as 16. -/
def State.c0Tags (s : State) : Nat := max 16 (s.fld oHome 8 8)
/-- PRIV of a tenant (R312). -/
def State.priv (s : State) (t : Nat) : Bool := s.flag (oTn t 0x28) 0
/-- METER_EN of a tenant. -/
def State.meterEn (s : State) (t : Nat) : Bool := s.flag (oTn t 0x20) 12

/-! Buckets (R275 to R278). -/

/-- Effective meter settings of a tenant: CRATE, PRATE, CBS, PBS (R277). -/
def State.meter (s : State) (t : Nat) : Nat × Nat × Nat × Nat :=
  let f (lo : Nat) := s.fld (oTn t 0x18) lo 16
  (f 0, max (f 16) (max (f 0) 1), f 32, max (f 48) (max (f 32) 1))

/-- A bucket after a charge (R275). -/
def charge (b : Int) (k : Nat) : Int := max (b - k) (-(2 ^ 23))

/-- C and P bucket of a tenant in a slice. -/
def State.cBucket (s : State) (e t : Nat) : Int := tget 0 (s.sl e).cBkt t
@[inherit_doc State.cBucket] def State.pBucket (s : State) (e t : Nat) : Int := tget 0 (s.sl e).pBkt t

/-- Store both buckets. -/
def State.setBuckets (s : State) (e t : Nat) (c p : Int) : State :=
  s.updSl e fun sl => { sl with cBkt := tputD 0 t c sl.cBkt, pBkt := tputD 0 t p sl.pBkt }

/-- The meter colors a request of cost `k` and charges its tenant (R278). -/
def State.colorReq (s : State) (e t k : Nat) : Color × State :=
  if !s.meterEn t then (.green, s)
  else
    let c := s.cBucket e t
    let p := s.pBucket e t
    if p ≤ 0 then (.red, s)
    else if c ≤ 0 then (.yellow, s.setBuckets e t c (charge p k))
    else (.green, s.setBuckets e t (charge c k) (charge p k))

/-- Charge P alone (R279, R281). -/
def State.chargeP (s : State) (e t k : Nat) : State :=
  if s.meterEn t then s.setBuckets e t (s.cBucket e t) (charge (s.pBucket e t) k) else s

/-- The buckets of a tenant in an engine at a refill edge (R276); those of a tenant whose METER_EN has fallen have stopped changing (R296).
DEDUCED, log entry 34; DEDUCED, log entry 39. -/
def State.refill (s : State) (e t : Nat) : State :=
  if s.meterOff.getLsbD t then s
  else
    let (cr, pr, cbs, pbs) := s.meter t
    s.setBuckets e t (min (s.cBucket e t + cr) cbs) (min (s.pBucket e t + pr) pbs)

/-- The fan-out charge of frame P (R273, R274, R278). -/
def State.chargeFanout (s : State) (e : Nat) (x : Txn) (snoops : Nat) : State :=
  let k := min 64 (s.fld oWeir 24 4 * snoops)
  if x.home.isSome || x.replayed || (x.recovery && !x.bcast) || !s.meterEn x.ten then s
  else match x.color with
    | .green => s.setBuckets e x.ten (charge (s.cBucket e x.ten) k) (charge (s.pBucket e x.ten) k)
    | _ => s.setBuckets e x.ten (s.cBucket e x.ten) (charge (s.pBucket e x.ten) k)

/-! C0 credit (R258, R259). -/

/-- The credit of a tenant when the block leaves reset: full under the reset TN_C0ALLOW. -/
def c0Full (t : Nat) : Nat := if t = 0 then 128 else 0
/-- The C0 credit of a tenant in a slice, in 1/64 of a request. -/
def State.c0Credit (s : State) (e t : Nat) : Nat := tget (c0Full t) (s.sl e).c0credit t
/-- Store it. -/
def State.setC0Credit (s : State) (e t v : Nat) : State :=
  s.updSl e fun sl => { sl with c0credit := tputD (c0Full t) t v sl.c0credit }

/-- The C0 allowance (R259): the request's class after it. -/
def State.allowance (s : State) (e t cls : Nat) (redirected : Bool) : Nat × State :=
  if cls ≠ 0 || redirected then (cls, s)
  else if s.c0Slots = 0 then (1, s.incFld (oSl e 0x18) 0 24 1)
  else if 64 ≤ s.c0Credit e t then (0, s.setC0Credit e t (s.c0Credit e t - 64))
  else (1, s.incFld (oSl e 0x18) 0 24 1)

/-- The three checks of R260 on C0_SLOTS, C0_TAGS, and ΣRATE and ΣBURST. -/
def r260Sums (slots tags rate burst : Nat) : Bool :=
  rate ≤ 32 * slots && burst ≤ slots && 3 * rate + 4 * burst ≤ 4 * tags

/-- The checks of R260 on the registers in force. -/
def State.r260 (s : State) : Bool :=
  let ts := (List.range 64).filter fun t => s.flag (oTn t 0) 0 && s.fld (oTn t 0) 1 2 == 0
  let rate := (ts.map fun t => s.fld (oTn t 0x10) 0 8).sum
  let burst := (ts.map fun t => s.fld (oTn t 0x10) 8 4).sum
  s.c0Slots == 0 || r260Sums s.c0Slots s.c0Tags rate burst

/-! Credits of the lanes (R291 to R293). -/

/-- General credits a lane holds at reset (R291); the C0 pool holds 8. -/
def genCredits (lane : Nat) : Int := if isAgentLane lane then 16 else if isCohLane lane then 8 else 32

/-- Credits of a lane toward a logical slice. -/
def State.laneC0 (s : State) (l h : Nat) : Int := tget 8 (s.lane l).c0 h
@[inherit_doc State.laneC0] def State.laneGen (s : State) (l h : Nat) : Int := tget (genCredits l) (s.lane l).gen h

/-- Change a lane's count. -/
def State.addCredit (s : State) (l h : Nat) (c0 : Bool) (d : Int) : State :=
  let x := s.lane l
  s.setLane l (if c0 then { x with c0 := tputD 8 h (s.laneC0 l h + d) x.c0 }
               else { x with gen := tputD (genCredits l) h (s.laneGen l h + d) x.gen })

/-- A store entry frees: its credit starts back to its lane (R293). -/
def State.freeEntry (s : State) (h : Nat) (q : QReq) : State :=
  if q.req.op = .wbDirty then s else s.updSl h fun sl => { sl with returning := sl.returning ++ [(q.req.lane, q.c0pool)] }

/-- Inject requests of a lane's wait queues, in order for each slice and pool, as far as credits go (R292). -/
def injectFrom (s : State) (l : Nat) (c0 : Bool) : List NetReq → List NetReq → State
  | [], kept =>
    let x := s.lane l
    s.setLane l (if c0 then { x with waitC0 := kept } else { x with waitGen := kept })
  | n :: rest, kept =>
    let has := if c0 then 0 < s.laneC0 l n.home else 0 < s.laneGen l n.home
    if has && !(kept.any fun m => m.home == n.home) then
      injectFrom ((s.addCredit l n.home c0 (-1)).injectReq n) l c0 rest kept
    else injectFrom s l c0 rest (kept ++ [n])

/-! Fair queueing (R282 to R288). -/

/-- Value `a` is before value `b` modulo 2^32 (R285). -/
def before32 (a b : Nat) : Bool := let d := (b + 2 ^ 32 - a) % 2 ^ 32; 1 ≤ d && d ≤ 2 ^ 31 - 1

/-- The weight of a queue (R282). -/
def State.weight (s : State) (t c : Nat) : Nat := max 1 (s.fld (oTn t 0x20) 0 8) * max 1 (s.fld oWeir (8 * (c - 1)) 8)

/-- The increment of a request (R283). -/
def State.delta (s : State) (t c k : Nat) : Nat := (4096 * k + s.weight t c - 1) / s.weight t c

/-- The queue of a tenant and class. -/
def State.queueOf (s : State) (e t c : Nat) : List QReq := (s.sl e).queued.filter fun q => q.ten == t && q.cls == c

/-- A request enters its class queue with its finish time (R284). -/
def State.enqueue (s : State) (e : Nat) (q : QReq) : State :=
  let d := s.delta q.ten q.cls q.cost
  let f := match (s.queueOf e q.ten q.cls).getLast? with
    | some p => (p.fin + d) % 2 ^ 32
    | none => ((s.sl e).vtime + d) % 2 ^ 32
  s.updSl e fun sl => { sl with queued := sl.queued ++ [{ q with fin := f }] }

/-- The clamp of R288 on one queue. -/
def State.clampQueue (s : State) (e t c : Nat) : State :=
  let v := (s.sl e).vtime
  match s.queueOf e t c with
  | [] => s
  | q :: _ =>
    let lag := (v + 2 ^ 32 - q.fin) % 2 ^ 32
    if 2 ^ 29 ≤ lag && lag < 2 ^ 31 then
      let s := s.updSl e fun sl => { sl with queued := sl.queued.map fun p =>
        if p.ten == t && p.cls == c then { p with fin := (p.fin + lag - 2 ^ 29) % 2 ^ 32 } else p }
      s.incFld (oSl e 0x20) 52 8 1
    else s

/-- Recolor the held requests of a tenant in order, up to the first that is still red (R280). DEDUCED, log entry 33. -/
def recolorList (s : State) (e t : Nat) : List QReq → State
  | [] => s
  | q :: rest =>
    match s.colorReq e t q.cost with
    | (.red, _) => s
    | (c, s) =>
      let s := if c = .yellow then s.incFld (oTn t 0x30) 0 24 1 else s
      recolorList ((s.updSl e fun sl => { sl with redHold := sl.redHold.erase q }).enqueue e { q with color := c, held := true })
        e t rest

@[inherit_doc recolorList] def State.recolor (s : State) (e t : Nat) : State :=
  recolorList s e t ((s.sl e).redHold.filter fun q => q.ten == t)

/-- METER_EN has fallen: every held request of the tenant becomes green and enters its queue, in hold order (R296). -/
def State.greenAll (s : State) (e t : Nat) : State :=
  ((s.sl e).redHold.filter fun q => q.ten == t).foldl (fun s q =>
    (s.updSl e fun sl => { sl with redHold := sl.redHold.erase q }).enqueue e { q with color := .green, held := true }) s

/-- The clamps of R288 on every queue of an engine. -/
def State.clampEdge (s : State) (e : Nat) : State :=
  (((s.sl e).queued.map fun q => (q.ten, q.cls)).eraseDups).foldl (fun s p => s.clampQueue e p.1 p.2) s

/-- Engines whose weir works: neither failed nor of a lost pair (R394, R396). -/
def State.weirs (s : State) : List Nat := (List.range s.nSlices).filter fun e => !s.sliceFailed e && !s.pairLost e

/-! Absorption (R151 to R153) and merging (R324). -/

/-- An agent that may be asked about a line of unknown holders (R354): in service, with its sluice open, not the requester. -/
def State.r354 (s : State) (x : Txn) (a : Nat) : Bool :=
  s.flag (oAg a 0) 1 && s.sluice a && !(x.home.isNone && !x.req.nc && x.req.src == a)

/-- The transaction recovers an orphaned entry, for which every agent that it snoops is a possible owner (R355, R361). -/
def Txn.orphaned (x : Txn) : Bool := match x.home with | some (.orphan ..) => true | _ => false

/-- The transaction's record of line `j` names the agent as owner, or as a possible owner in a recovery (R151, R174, R355). -/
def State.namesOwner (s : State) (x : Txn) (j a : Nat) : Bool :=
  !(x.gone.contains (a, j)) &&
  (match x.known[j]? with
   | some .lost => x.answers.contains (a, j) || (x.waits.any fun w => w.agent == a && w.j == j) || s.r354 x a
   | some (.found (.owned b)) => a == b
   | some (.found st) => x.orphaned && (stVec st).getLsbD a
   | _ => false)

/-- Line index of a line within what a transaction works on. -/
def Txn.idx (x : Txn) (l : LineAddr) : Nat := if x.want = 4 then lineIdx l else 0

/-- The lock holder that absorbs a `WbDirty` now (R151, R173). -/
def State.absorber (s : State) (h : Nat) (l : LineAddr) (a : Nat) : Option Nat :=
  match s.holder h l with
  | none => none
  | some t =>
    let x := s.txn h t
    if x.probed && !x.cmpSent && x.st != .holding && s.namesOwner x (x.idx l) a then some t else none

/-- A line that leaves with poison which the block did not create is counted (R351). -/
def State.notePoison (s : State) (k : Nat) (p : Bool) : State := if p then s.poisonPassed k else s

/-- The block created the poison of line `j` of the transaction (R350, R351). -/
def Txn.ownPoison (x : Txn) (j : Nat) : Bool := x.madePoison || x.dirties.any fun d => d.j == j && (d.synth || d.bad)

/-- A `WrPart` whose mask is all ones is served as a `WrFull` (R83). -/
def Txn.fullWrite (x : Txn) : Bool :=
  x.req.op == .wrFull || x.req.op == .wrStream || (x.req.op == .wrPart && x.req.mask == BitVec.allOnes 64 && x.merge.isNone)

/-- A dirty line is written into the transaction's agent data buffer in place of memory's data (R61, R188), where the flip mask meets it
(R378, bank 14). A request's flow has this line still to write, although it has written before (R152, R356). -/
def State.addDirty (s : State) (h t : Nat) (d : Dirty) (f : Txn → Txn) : State :=
  s.withFlip h 14 fun s m => s.upd h t fun x =>
    let x := f x
    { x with dirties := x.dirties ++ [{ d with flip := m }]
             mems := x.mems.map fun m => if m.op = .rd then { m with discard := true } else m
             memData := none
             memDone := x.memDone && (x.home.isSome || x.fullWrite) }

/-- Transaction `t` absorbs a `WbDirty` (R151, R152): its line becomes dirty data of the transaction; a home transaction whose writes
are done has this line still to write. -/
def State.absorb (s : State) (h t : Nat) (r : Req) : State :=
  let j := (s.txn h t).idx (lineOf r.addr)
  s.addDirty h t { agent := r.src, j := j, data := r.data, poison := r.poison } fun x =>
    { x with absorbed := x.absorbed ++ [r], memDone := x.memDone && (x.home.isNone || x.home == some .meminit)
             waits := x.waits.filter fun w => !(w.agent == r.src && w.j == j && (w.kind == .wbCross || w.kind == .wbRspI)) }

/-- A request that leaves its queue, hold or chain by absorption or merging (R152, R281, R289); one that was held red is charged, and not
counted in RED_PASSED: DESIGN CHOICE, log entry 42. -/
def State.dropQueued (s : State) (e : Nat) (q : QReq) : State :=
  let s := if (s.sl e).redHold.contains q then s.chargeP e q.ten q.cost else s
  (s.updSl e fun sl => { sl with queued := sl.queued.erase q, redHold := sl.redHold.erase q, c0q := sl.c0q.erase q }).freeEntry
    q.home q

/-- A request as its stored header reads when the decoder has inverted good data bits of its first word (R380). -/
def Req.misread (r : Req) (flip : BitVec 8) : Req :=
  if flipData flip = 0 then r
  else
    let h := r.hdr ^^^ (flipData flip).setWidth 128
    let p := parseReq ((reqOpOf (hOp h)).getD r.op) { lane := r.lane, vc := 0, flits := [(h, 0)] } r.arrival
    { p with taken := r.taken, flits := r.flits, seq := r.seq, data := r.data, mask := r.mask, operand := r.operand, swap := r.swap, marked := r.marked, clear := r.clear }

/-- Both copies of a store entry's header are uncorrectable (R343, R393). -/
def QReq.headerLost (q : QReq) : Bool := decodeFlip q.flip == .bad && decodeFlip q.flip2 == .bad

/-- A request is lost with its header: the buddy raises the lost-request event with the number of the store entry in the place of a tag, and
counts it (R397). DESIGN CHOICE, log entry 42. -/
def State.lostRequest (s : State) (e : Nat) (q : QReq) : State :=
  let b := s.engine q.home
  ((s.dropQueued e q).incFld (oSl b 0x90) 29 4 1).raiseSl b 42 0 (lineDetail (lineOf q.req.addr) q.req.src q.entry)

/-- Both copies of the header of a stored request fail when it is read: a slice fault with CAUSE 0x4, whose takeover meets the entry again
(R343, R393, R397); in a range that is taken over already the request is lost at once. The words stay uncorrectable.
DEDUCED, log entry 15. -/
def State.headerGone (s : State) (e : Nat) (q : QReq) : State :=
  if s.sliceFailed q.home then s.lostRequest e q
  else
    let bad (p : QReq) : QReq := if p == q then { p with flip := 3, flip2 := 3 } else p
    (s.failSlice q.home 4).updSl e fun sl => { sl with queued := sl.queued.map bad, c0q := sl.c0q.map bad, redHold := sl.redHold.map bad }

/-- The store entry of a request is read (R343, R372, R374): the first copy of its header, the other one where that fails,
and its payload; none where both copies fail. `true`: the payload is taken with POISON = 1. -/
def State.readStore (s : State) (q : QReq) (w : StoreRead) : State × Option (Req × Bool) :=
  let h := q.home
  let a := readWord q.flip w.copyA
  let b := readWord q.flip2 w.copyB
  let s := s.readDec h 15 0 a
  let s := if a = .bad then s.readDec h 15 0 b else s
  if a = .bad && b = .bad then (s, none)
  else
    let r := if a = .bad then q.req.misread q.flip2 else q.req.misread q.flip
    let p := if q.req.op.payload = 0 then .clean else readWord 0 w.payload
    (s.readDec h 15 0 p, some ({ r with poison := r.poison || p == .bad }, p == .bad))

/-- A store entry is read as it leaves its queue or hold by absorption or merging (R343): `f` takes the request as it reads, and whether the
block creates the poison of its payload. Only the bit inverter brings errors there. DEDUCED, log entry 37. -/
def State.takeStored (s : State) (e : Nat) (q : QReq) (f : State → Req → Bool → State) : State :=
  match s.readStore q ⟨.clean, .clean, .clean⟩ with
  | (n, none) => n.headerGone e q
  | (n, some (r, bad)) => f (n.dropQueued e q) r bad

/-- The merge-buffer entry at an index. -/
def State.mergeAt (s : State) (h i : Nat) : Merge := tget {} (s.sl h).merges i
/-- Store it; the flip mask meets the write (R378, bank 14). -/
def State.setMerge (s : State) (h i : Nat) (m : Merge) : State :=
  let (f, s) := if m.used then s.flipStore h 14 else (0, s)
  s.updSl h fun sl => { sl with merges := tputD {} i { m with flip := m.flip ^^^ f } sl.merges }

/-- Overlay the bytes that a mask enables (R317, R324). -/
def overlay (base new : Line) (mask : BitVec 64) : Line :=
  (List.range 64).foldl (fun l j => if mask.getLsbD j then setBits l (8 * j) 8 (bits new (8 * j) 8) else l) base

/-- The gatherer that a queued or held request may merge into now (R324). -/
def State.gatherer (s : State) (q : QReq) : Option (Nat × Nat) :=
  if q.req.nc && q.cls ≠ 0 && (q.req.op == .wrFull || q.req.op == .wrPart) && q.req.mask != 0 then
    match s.holder q.home (lineOf q.req.addr) with
    | none => none
    | some t =>
      let x := s.txn q.home t
      if x.home.isNone && x.req.op == .wrPart && !x.winClosed && x.window.isSome then x.merge.map fun m => (t, m) else none
  else none

/-- Merge a request into an open window (R324); a full mask closes it (R323). -/
def State.mergeReq (s : State) (e : Nat) (q : QReq) (t m : Nat) : State :=
  s.takeStored e q fun s r _ =>
    let g := s.mergeAt q.home m
    let g := { g with data := overlay g.data r.data r.mask, mask := g.mask ||| r.mask, poison := g.poison || r.poison }
    let s := (s.setMerge q.home m g).upd q.home t fun x =>
      { x with merged := x.merged ++ [r], window := if g.mask = BitVec.allOnes 64 then some s.frame else x.window }
    s.incFld (oSl (s.engine q.home) 0x60) 6 16 1

/-- Merge every candidate of the engine, in the order of sampling (R324), as far as the records of the frame allow (R388). -/
def State.mergeAll (s : State) (e : Nat) : State :=
  (((s.sl e).queued ++ (s.sl e).redHold).foldl (fun l q => insertBy (fun a b => a.order < b.order) q l) []).foldl (fun s q =>
    match s.gatherer q with
    | some (t, m) => s.recordedFor q.home t (s.mergeReq e q t m)
    | none => s) s

/-! Sampling (R268). -/

/-- A `Retry` of logical slice `h` to a requester: HTID is 0, and HSLICE names the slice (R74, R89). A `Retry` of the weir has no tag, and
its TEPOCH is 0. DEDUCED, log entry 38; DESIGN CHOICE, log entry 40. -/
def retryMsg (r : Req) (h : Nat) (ep : BitVec 2) (status : BitVec 3) (delay : Nat) : Msg :=
  .cmp { op := .retry, dest := r.src, rtid := r.rtid, hslice := h, tepoch := ep, status := status, delay := delay }

/-- A sluice violation by a message (R444, R450): the event with its pair of entries, and VIOL. -/
def State.sluiceViolation (s : State) (a : Nat) (flit : Flit) : State :=
  (s.raisePair 32 0 flit).incFld (oAg a 0x18) 24 7 1

/-- The intake of the requester is closed for retirement (R450). -/
def State.intakeClosed (s : State) (r : Req) : Bool := !r.nc && (s.ag r.src).intakeClosed

/-- Requests in the stores of a slice: its buddy may queue them for it (R189, R290, R399, R407). -/
def State.stored (s : State) (h : Nat) : List QReq :=
  let of (k : Nat) : List QReq := (s.sl k).c0q ++ (s.sl k).queued ++ (s.sl k).redHold ++ (s.sl k).tk.waiting
  (of h ++ of (buddy h)).filter fun q => q.home == h

/-- Entries of the request store in use (R290). -/
def State.storeUsed (s : State) (h : Nat) : Nat := ((s.stored h).filter fun q => q.req.op != .wbDirty).length

/-- The lowest free entry for a request: of the request store, 0 to 607 (R290), or for a `WbDirty` of the writeback store, 608 to 799 (R189);
the numbers are the model's: DESIGN CHOICE, log entry 42. -/
def State.freeStore (s : State) (h : Nat) (wb : Bool) : Nat :=
  let used := (s.stored h).map fun q => q.entry
  let first := if wb then 608 else 0
  (((List.range (if wb then 192 else 608)).map fun i => first + i).find? fun i => !used.contains i).getD first

/-- The weir of engine `e` samples a request of logical slice `h` (R268). -/
def State.weirSample (s : State) (e h : Nat) (r : Req) : State :=
  let q0 : QReq := { req := r, home := h, c0pool := r.cls == 0 && r.op != .wbDirty }
  if s.intakeClosed r && r.op != .evictClean && r.op != .wbDirty then
    (((s.freeEntry h q0).send (s.frame + 1) (portOf r.nc r.src) (retryMsg r h 0 4 15)).sluiceViolation r.src r.hdr)
  else if (s.reg oDrain).getLsbD r.tenant && r.op != .wbDirty && r.op != .evictClean && r.op != .wrStream && r.op != .fence then
    (s.freeEntry h q0).send (s.frame + 1) (portOf r.nc r.src) (retryMsg r h 0 2 15)
  else
    let redirected := !s.flag (oTn r.tenant 0) 0
    let s := if redirected then s.incFld (oSl e 0xB8) 24 24 1 else s
    let ten := if redirected then 0 else r.tenant
    let (c1, s) := s.allowance e ten (if redirected then 3 else r.cls) redirected
    let cls := max c1 (s.fld (oTn ten 0) 1 2)
    let s := if q0.c0pool && cls ≠ 0 then (s.freeEntry h q0).addCredit r.lane h false (-1) else s
    let k := r.op.cost + s.fld (oTn ten 0x20) 8 4
    let (flip, s) := s.flipStore h 15
    let q : QReq := { q0 with ten := ten, cls := cls, cost := k, c0pool := q0.c0pool && cls == 0, flip := flip, order := s.samples, entry := s.freeStore h (r.op == .wbDirty) }
    let s := { s with samples := s.samples + 1 }
    let (color, s) := s.colorReq e ten k
    let s := if color = .yellow then s.incFld (oTn ten 0x30) 0 24 1 else s
    let q := { q with color := color }
    let passed (s : State) : State := if color = .red then (s.chargeP e ten k).incFld (oTn ten 0x30) 48 8 1 else s
    let ab := if r.op = .wbDirty then s.absorber h (lineOf r.addr) r.src else none
    match ab with
    | some t =>
      (passed s).absorb h t r
    | none =>
      if cls = 0 then (passed s).updSl e fun sl => { sl with c0q := sl.c0q ++ [q] }
      else if color = .red then
        ((s.incFld (oTn ten 0x30) 24 24 1).updSl e fun sl => { sl with redHold := sl.redHold ++ [q] }).mergeAll e
      else (s.enqueue e q).mergeAll e

end Sys2Proof.Machine
end

