-- ==== Sys2Proof/Machine/Home.lean ====
section
/-! DEFINITION. The flow of a home transaction from frame P to its completion: snoops, the data source, the record written, the
completion, release and the waiter chain (R133 to R160, R174 to R183, R300 to R318, R353 to R358, R413, R414, R456, R457). -/

namespace Sys2Proof.Machine

/-! What a transaction is. -/

/-- An atomic served near (R305, R306). -/
def Txn.near (x : Txn) : Bool := x.home.isNone && (x.req.op == .atomNear || (x.req.op == .atomFar && !x.far))

/-- A `WrPart` that gathers. -/
def Txn.gathers (x : Txn) : Bool := x.home.isNone && x.req.op == .wrPart && !x.fullWrite && x.req.mask != 0

/-- It waits on an agent before its completion. -/
def Txn.busy (x : Txn) : Bool := x.waits.any fun w => w.kind != .ackGo && w.kind != .range

/-- It awaits a memory answer that its flow uses. -/
def Txn.memBusy (x : Txn) : Bool := x.mems.any fun m => !m.discard

/-- The line it works on at an index. -/
def Txn.lineAt (x : Txn) (j : Nat) : LineAddr := if x.want = 4 then lineIn (sectorOf x.line) j else x.line

/-- What is known of its line; `lost` where nothing is known. -/
def Txn.rec0 (x : Txn) : Known := (x.known[0]?).getD .lost

/-- The caching agent that requests, if any. -/
def Txn.agent (x : Txn) : Option Nat := if x.home.isSome || x.req.nc then none else some x.req.src

/-- The vector with the requester's bit. -/
def Txn.qVec (x : Txn) : Agents := match x.agent with | some a => vecOf a | none => 0

/-- The owner, other than the requester, that the record names. -/
def Txn.otherOwner (x : Txn) : Option Nat :=
  match x.rec0.owner with
  | some a => if x.agent = some a then none else some a
  | none => none

/-- Its requester needs the line's data (R149, R301, R307). -/
def Txn.needsData (x : Txn) : Bool :=
  x.home.isNone &&
  (match x.req.op with
   | .rdShared | .rdOwn | .rdCur | .atomNear | .atomFar => true
   | .upgrade => x.recovery || (x.rec0.vec &&& x.qVec) == 0
   | _ => false)

/-- The agents whose answers gave dirty data. -/
def Txn.dirtyAgents (x : Txn) : List Nat := (x.dirties.map fun d => d.agent).eraseDups

/-! Memory requests. -/

/-- A staged write of the line awaits its `MemCmp` (R303). -/
def State.stagedLine (s : State) (h : Nat) (l : LineAddr) : Bool :=
  (s.sl h).merges.any fun p => p.2.used && p.2.staged && p.2.line == l

/-- Send a memory request of a transaction (R117, R118); `MemWrPoison` has no POISON bit (R119). A write needs no answer to an
earlier read: that answer is discarded (R317). -/
def State.sendMem (s : State) (h t : Nat) (op : MemOp) (j : Nat) (data : Line) (poison : Bool) (discard : Bool) : State :=
  let x := s.txn h t
  let l := x.lineAt j
  let p := s.memPort (wireOf l)
  let poison := poison && op != .wrPoison
  let m : MemWait := { op := op, j := j, data := data, poison := poison, discard := discard, sent := s.frame }
  let s := s.upd h t fun x =>
    { x with mems := (if op = .rd then x.mems else x.mems.map fun n => if n.op = .rd then { n with discard := true } else n) ++ [m]
             memDone := x.memDone || op != .rd }
  let s := s.send s.frame (.mem p) (.mem op (if x.home.isSome then 3 else x.cls) t h (s.epoch h t) (wireOf l) poison data)
  if s.memFailed.getLsbD p then s.plan (s.frame + 1) h t .portDown else s

/-- The speculative read of R60, R138: kept unless frame P has already found an owner or the data is no longer used (R61). -/
def State.specRead (s : State) (h t : Nat) : State :=
  let x := s.txn h t
  if x.st = .free || x.home.isSome || x.reqLost || !s.tagOpen h t then s
  else if x.req.op != .rdShared && x.req.op != .rdOwn && x.req.op != .rdCur then s
  else if s.stagedLine h x.line || !x.mems.isEmpty || x.memData.isSome then s
  else s.sendMem h t .rd 0 0 false ((x.probed && x.otherOwner.isSome) || !x.dirties.isEmpty)

/-! Waits. -/

/-- Send a line snoop in this frame and open its wait (R139, R164, R165). -/
def State.snoopLine (s : State) (h t : Nat) (k : Snoop) (a j : Nat) : State :=
  let x := s.txn h t
  let w : Wait := { agent := a, j := j, kind := .first, snp := k, start := s.frame, len := s.snoopContract a }
  let s := s.upd h t fun x => { x with waits := x.waits ++ [w], snooped := true }
  let s := s.send s.frame (.agent a) (.snoop k false a t h (s.epoch h t) (wireOf (x.lineAt j)) 0 0 0)
  let sl := s.sl h
  match sl.watch.find? fun p => p.2.line == x.lineAt j && p.2.agent == a && s.frame ≤ p.2.expiry with
  | some p =>
    if x.home.isNone then s.updSl h fun sl => { sl with watch := tdel p.1 sl.watch, rises := sl.rises ++ [x.lineAt j] } else s
  | none => s

/-- A poisoned answer in place of a lost agent's (R171): created poison with cause 0b001. -/
def State.synthDirty (s : State) (h t a j : Nat) : State :=
  let (d, s) := s.freshLine
  let x := s.txn h t
  let s := s.poisonCreated h 1 a (x.lineAt j) t
  s.addDirty h t { agent := a, j := j, data := d, poison := true, synth := true } fun x =>
    { x with taken := vecSet x.taken a, answers := x.answers ++ [(a, j)] }

/-- Snoop an agent, or take the answer in its place: a lost one (R457), one behind a closed sluice (R445). `owner`: the record
names it as owner or possible owner. -/
def State.askAgent (s : State) (h t : Nat) (k : Snoop) (a j : Nat) (owner : Bool) : State :=
  if s.agSt a == agLost then (if owner then s.synthDirty h t a j else s)
  else if !s.sluice a then s.raisePair 32 0 (BitVec.ofNat 128 a)
  else s.snoopLine h t k a j

/-! Frame P. -/

/-- A filtered transaction of the range: the slice's filter is enabled, and no takeover or sweep has it in broadcast-snoop mode
(R244, R413, R415). -/
def State.filtered (s : State) (h : Nat) : Bool := s.flag (oSl h 0x28) 0 && (s.sl h).sweep.isNone && !(s.sl h).sweepDue && !(s.sl h).rebuildOn

/-- A rebuild sweep runs over the range (R414). -/
def State.sweeping (s : State) (h : Nat) : Bool := (s.sl h).sweep.isSome

/-- A write-through requester (R312). -/
def State.writeThrough (s : State) (x : Txn) : Bool := x.req.nc || (16 ≤ x.req.src && !s.priv x.ten)

/-- The kinds of R150, R300 and R315 that a request meets, ascending. -/
def State.violations (s : State) (x : Txn) : List Nat :=
  match x.agent with
  | none => []
  | some q =>
    if x.bcast || x.recovery then
      (if (x.req.op == .rdOwn || x.req.op == .upgrade || x.req.op == .claim) && s.writeThrough x then [7] else [])
    else
      let set := (x.rec0.vec).getLsbD q
      (if x.req.op = .rdShared && set then [1] else []) ++
      (if (x.req.op == .rdOwn || x.req.op == .claim) && x.rec0.owner == some q then [2] else []) ++
      (if x.req.op = .wbDirty && x.rec0.owner != some q then [4] else []) ++
      (if (x.req.op == .atomNear || x.req.op == .atomFar) && set then [6] else []) ++
      (if (x.req.op == .rdOwn || x.req.op == .upgrade || x.req.op == .claim) && s.writeThrough x then [7] else [])

/-- A record without an agent's bit. -/
def LineState.without (st : LineState) (a : Nat) : LineState :=
  match st with
  | .untracked => .untracked
  | .shared v => sharedOr (vecClear v a)
  | .owned b => if b = a then .untracked else .owned b

/-- What the record counts as after the handlings of R150 and R300. -/
def clearedRec (x : Txn) (kinds : List Nat) : Known :=
  match x.agent, x.rec0 with
  | some q, .found st => if kinds.any (fun k => k = 1 || k = 2 || k = 6) then .found (st.without q) else .found st
  | _, k => k

/-- The queued, held and waiting `WbDirty` requests for a line: absorb those that `names` finds to be of an owner (R151, R152); the check
bits of a store entry that leaves so are read (R343). -/
def State.absorbQueued (s : State) (h t : Nat) (l : LineAddr) (names : State → Nat → Bool) : State :=
  let e := s.engine h
  let qs := ((s.sl e).c0q ++ (s.sl e).queued ++ (s.sl e).redHold).filter fun q =>
    q.home == h && q.req.op == .wbDirty && lineOf q.req.addr == l
  let s := qs.foldl (fun s q => if names s q.req.src then s.takeStored e q fun s r _ => s.absorb h t r else s) s
  (s.chain h l).foldl (fun s u =>
    let w := s.txn h u
    if w.home.isNone && w.req.op == .wbDirty && names s w.req.src then
      ((s.setChain h l ((s.chain h l).filter fun v => v != u)).put h u {}).absorb h t w.req
    else s) s

/-- The transaction as it stands names the agent as owner of the line. -/
def State.txnNames (h t : Nat) (l : LineAddr) (s : State) (a : Nat) : Bool := s.namesOwner (s.txn h t) ((s.txn h t).idx l) a

/-- The agents that a dirty line has already come from need no snoop. -/
def Txn.gaveDirty (x : Txn) (a j : Nat) : Bool := x.dirties.any fun d => d.agent == a && d.j == j

/-- Count a recovery (R353). -/
def State.countLost (s : State) (h : Nat) (l : LineAddr) (who t : Nat) : State :=
  let o := oSl (s.engine h) 0x78
  (((s.incFld o 0 16 1).noteFld o 25 38 l.toNat).setFlag (oSl h 0x78) 24 true).updSl h (fun sl =>
    { sl with maint := { sl.maint with again := true } }) |>.raiseSl (s.engine h) 38 0 (lineDetail l who t)

/-- The agents of R354 for a transaction, ascending, that have not answered yet. -/
def State.recoveryAgents (s : State) (x : Txn) (j : Nat) : List Nat :=
  (List.range 24).filter fun a =>
    s.r354 x a && !x.gaveDirty a j && !(x.answers.contains (a, j)) && !(x.waits.any fun w => w.agent == a && w.j == j)

/-- The snoops a request's flow calls for (R149, R301, R307, R316). -/
def Txn.snoops (x : Txn) : List (Snoop × Nat) :=
  let others := vecAgents (x.rec0.vec &&& ~~~x.qVec)
  match x.req.op with
  | .rdShared | .rdCur => match x.otherOwner with | some a => [(.down, a)] | none => []
  | .evictClean | .wbDirty | .agentSleep | .fence => []
  | _ => others.map fun a => (.inv, a)

/-- A record without the agents whose dirty lines the transaction has taken: their bits are cleared (R144). -/
def Txn.gaveUp (x : Txn) (st : LineState) : LineState := x.dirties.foldl (fun st d => st.without d.agent) st

/-- The record that a request's flow writes. A `WbDirty` of the requester itself, recorded as owner, that an `RdCur` or an `Upgrade` absorbs
leaves that record as R149 gives it: DESIGN CHOICE, log entry 42. -/
def Txn.newRec (x : Txn) : LineState :=
  let k := if x.recovery then .untracked else x.rec0.state
  let owned : LineState := match x.agent with | some q => .owned q | none => .untracked
  match x.req.op with
  | .rdShared =>
    (match k with
     | .shared v => .shared (v ||| x.qVec)
     | .owned a => if x.rspS && x.agent != some a then .shared (vecOf a ||| x.qVec) else owned
     | .untracked => owned)
  | .rdOwn | .upgrade | .claim => owned
  | .atomNear => .untracked
  | .atomFar => if x.far then owned else .untracked
  | .rdCur =>
    if x.recovery then owned
    else (match k with
     | .owned a => if x.agent = some a then k else if x.rspS then .shared (vecOf a) else .untracked
     | _ => k)
  | .evictClean => (match x.agent with | some q => x.gaveUp (k.without q) | none => k)
  | .wbDirty => if x.rec0.owner == x.agent || x.recovery then .untracked else x.gaveUp k
  | .wrFull | .wrPart | .wrStream =>
    if x.agent.isSome && (x.recovery || (k matches .shared _ | .owned _) && (stVec k &&& x.qVec) != 0) then .shared x.qVec
    else .untracked
  | .agentSleep | .fence => k

/-- A transaction writes a record: in broadcast-snoop mode only while a rebuild sweep runs, or when it ends in this mode after one
(R244, R414, R415). DEDUCED, log entry 15. -/
def State.mayRecord (s : State) (h : Nat) (x : Txn) : Bool := !x.bcast || s.sweeping h || x.swept

/-- The record that a transaction will write needs a new sector (R180, R207, R262); none is written for a lost requester (R456).
DEDUCED, log entry 38. -/
def State.needsSector (s : State) (h : Nat) (x : Txn) : Bool :=
  x.newRec != .untracked && !x.reqLost && s.mayRecord h x &&
  (if x.bcast then (s.find h (sectorOf x.line)).isNone else x.loc.isNone)

/-- A C0 transaction claims a stage entry in frame P, and again in each later frame while none was free (R262). -/
def State.claimStage (s : State) (h t : Nat) : State :=
  let x := s.txn h t
  if x.home.isNone && x.cls = 0 && x.claim.isNone && s.needsSector h x &&
      (s.placeFor h x.ten (sectorOf x.line) x.req.marked).isNone then
    match s.stageFree h with
    | i :: _ => (s.updSl h fun sl => { sl with stage := tput i { claimed := true } sl.stage }).setTxn h t { x with claim := some i, claimDue := false }
    | [] => s.setTxn h t { x with claimDue := true }
  else s

/-! Data sources. -/

/-- The dirty lines that no write has carried to memory yet. -/
def Txn.unwritten (x : Txn) : List Dirty := x.dirties.filter fun d => !d.written

/-- A gatherer of a lost requester into which others have merged still writes their bytes (R325, R335, R456). DEDUCED, log entry 38. -/
def Txn.gathersForOthers (x : Txn) : Bool := x.gathers && x.merge.isSome && !x.merged.isEmpty

/-- The memory request that the flow sends now, if any (R144, R149, R152, R301, R307, R316, R317, R356, R456): opcode, data, poison, and
whether the block creates the poison of several dirty lines (R350, R356); its data is then open. The line that an `EvictClean`, or a
`WbDirty` of another agent than the owner, absorbs is written by `MemWr`: DESIGN CHOICE, log entry 42. -/
def State.nextMem (s : State) (h : Nat) (x : Txn) : Option (MemOp × Line × Bool × Bool) :=
  let many := x.recovery && 2 ≤ x.dirtyAgents.length
  let d0 := x.unwritten.head?
  let whole : Option (MemOp × Line × Bool × Bool) :=
    match d0 with
    | none => none
    | some d => if many then (if x.busy then none else some (.wrPoison, 0, true, true)) else some (.wr, d.data, d.poison, false)
  if x.reqLost && x.req.op != .wbDirty && x.req.op != .evictClean && !x.gathersForOthers then (if x.busy then none else whole)
  else if x.memDone then none
  else if x.fullWrite then some (.wr, x.req.data, x.req.poison, false)
  else if x.req.op = .wrPart then
    let owned := x.recovery || x.otherOwner.isSome
    match x.merge with
    | none =>
      if !x.gathers || d0.isSome || x.memData.isSome || x.memBusy || (owned && x.busy) then none else some (.rd, 0, false, false)
    | some m =>
      let g := s.mergeAt h m
      let full := g.mask == BitVec.allOnes 64
      if x.winClosed && full then some (.wr, g.data, g.poison, false)
      else if many then (if x.winClosed && !x.busy then some (.wrPoison, 0, true, true) else none)
      else match d0, x.memData with
        | some d, _ => if x.winClosed && !(x.recovery && x.busy) then some (.wr, overlay d.data g.data g.mask, g.poison || d.poison, false) else none
        | none, some (b, p) => if x.winClosed && !(owned && x.busy) then some (.wr, overlay b g.data g.mask, g.poison || p, false) else none
        | none, none =>
          if (owned && x.busy) || x.memBusy then none else some (.rd, 0, false, false)
  else match x.req.op with
  | .wbDirty =>
    if x.recovery then
      if x.busy then none
      else if x.dirties.any (fun d => d.agent != x.req.src) then some (.wrPoison, 0, true, true)
      else some (.wr, x.req.data, x.req.poison, false)
    else if x.rec0.owner == some x.req.src then some (.wr, x.req.data, x.req.poison, false) else whole
  | .agentSleep | .fence => none
  | .claim =>
    if x.busy then none
    else if many && !x.unwritten.isEmpty then some (.wrPoison, 0, true, true)
    else if x.unwritten.any (fun d => d.synth) then some (.wrPoison, 0, true, false) else none
  | .evictClean => whole
  | _ =>
    match d0 with
    | some d =>
      if x.busy then none
      else if !x.needsData then (if many then some (.wrPoison, 0, true, true) else some (.wr, d.data, d.poison, false))
      else if many then some (.wrRd, 0, true, true) else some (.wrRd, d.data, d.poison, false)
    | none =>
      if !x.needsData || x.memData.isSome || x.memBusy then none
      else if (x.recovery || x.otherOwner.isSome) && x.busy then none
      else some (.rd, 0, false, false)

/-- The flow of a request transaction can go on: it has a memory request to send, or everything its completion needs. -/
def State.canFlow (s : State) (h : Nat) (x : Txn) : Bool :=
  (s.nextMem h x).isSome ||
  !(x.busy || x.memBusy || (x.reqLost && x.gathersForOthers && !x.memDone) || (!x.reqLost &&
    (x.near || x.req.op == .wrStream || (x.needsData && x.memData.isNone) || ((x.gathers || x.fullWrite) && !x.memDone))))

/-- The state of a transaction that is probed and not complete (R136, R322, R336); one that awaits nothing is in MEMORY.
DESIGN CHOICE, log entry 40. -/
def Txn.stNow (x : Txn) : TState :=
  if x.home.isSome then .home
  else if x.gathers && x.merge.isNone && !x.memDone then .gather
  else if x.busy then .snooping
  else if x.memBusy then .memory
  else if x.gathers && !x.memDone then .gather
  else .memory

/-- After an answer: the line has arrived at the ALU (R302), a stream write is ready (R329; one that was noticed before it was aborted goes
on), or the flow goes on in the next frame (R141). Until a takeover replays the transaction, an answer is only recorded (R399, R411). -/
def State.settle (s : State) (h t : Nat) : State :=
  let x := s.txn h t
  if x.st = .free || x.st = .waiting || x.cmpSent || !x.probed || !s.tagOpen h t then s
  else if x.near && !x.busy && !x.memBusy && x.memData.isSome && !x.reqLost then
    if x.st = .alu then s else s.upd h t fun x => { x with st := .alu, dAt := s.frame }
  else if x.req.op = .wrStream && x.home.isNone && !x.busy && x.memDone && x.mems.isEmpty && !x.reqLost then
    let s := if x.st = .orderwait then s else s.upd h t fun x => { x with st := .orderwait, dAt := s.frame }
    if x.noticed then s.plan (s.frame + 1) h t .act else s
  else
    let s := if x.st = x.stNow then s else s.upd h t fun x => { x with st := x.stNow }
    if s.canFlow h (s.txn h t) then s.plan (s.frame + 1) h t .act else s

/-- What frame P of a request transaction finds of its line's record (R137, R413). -/
def State.knownAtP (s : State) (h : Nat) (x : Txn) : Txn :=
  let p := s.probe h x.line
  { x with probed := true, loc := (if x.bcast then none else p.loc), known := [if x.bcast then .lost else p.known]
           recovery := x.bcast || p.known == .lost }

/-- Frame P of a request transaction (R137 to R140, R149 to R151, R273, R353, R413). -/
def State.decide (s : State) (h t : Nat) : State :=
  let x := s.txn h t
  if x.st = .free || x.st = .waiting || x.probed || x.home.isSome || !s.tagOpen h t then s
  else
    let x := s.knownAtP h x
    let lost := !x.bcast && x.recovery
    let s := s.setTxn h t x
    let s := if lost then s.countLost h x.line x.req.src t else s
    let kinds := if x.reqLost then [] else s.violations x
    let s := kinds.foldl (fun s k => s.violation h k x.req.src x.line t) s
    let s := if 4 ∈ kinds then s.raiseSl (s.engine h) 33 0 (lineDetail x.line x.req.src t) else s
    let x := { x with known := [clearedRec x kinds] }
    let s := s.setTxn h t x
    let s := s.absorbQueued h t x.line (State.txnNames h t x.line)
    let x := s.txn h t
    let s :=
      if x.recovery then (s.recoveryAgents x 0).foldl (fun s a => s.askAgent h t .back a 0 true) s
      else (x.snoops.filter fun q => !x.gaveDirty q.2 0 && !(x.answers.contains (q.2, 0)) && !(x.waits.any fun w => w.agent == q.2)).foldl
        (fun s q => s.askAgent h t q.1 q.2 0 (x.otherOwner == some q.2)) s
    let y := s.txn h t
    let s := s.chargeFanout (s.engine h) x (y.waits.filter fun w => w.start == s.frame).length
    let s := s.upd h t fun y =>
      { y with st := y.stNow, mems := if y.otherOwner.isSome then y.mems.map (fun m => { m with discard := true }) else y.mems
               memData := if y.otherOwner.isSome then none else y.memData }
    (s.claimStage h t).settle h t

/-! The record written (R149, R316, R357, R457). -/

/-- Every record write clears the bits of lost agents (R457). -/
def State.clearLost (s : State) (st : LineState) : LineState :=
  (List.range 24).foldl (fun st a => if s.agSt a == agLost then st.without a else st) st

/-- Clear the bits of lost agents, and of a lost requester, from a record to be written (R456, R457). -/
def State.dropLost (s : State) (x : Txn) (st : LineState) : LineState :=
  let st := s.clearLost st
  match x.agent with
  | some a => if x.reqLost then st.without a else st
  | none => st

/-- A spillway victim for a staged entry (R178, R215, R219): the place replacement chooses, if any may be chosen. -/
def State.spillVictim (s : State) (h i : Nat) : Option Loc :=
  let g := s.stageAt h i
  let x := sectorFrom (eTag g.word) g.set
  let inTier (ev : Bool) : Option Loc :=
    let set := if ev then setE x else setD x
    (s.victim h ev set (s.candidates h g.ten ev set)).map (wayLoc ev set)
  match inTier s.evganPresent with
  | some l => some l
  | none => if s.evganPresent && s.badSet h (.evgan (setE x) 0) then inTier false else none

/-- The sector of a place. -/
def State.sectorAt (s : State) (h : Nat) (l : Loc) : SectorAddr := sectorFrom (eTag (s.entry h l)) (s.setIdx h l)

/-- The victim of a staged entry is chosen, if any may be; the read of the set's replacement word is checked (R180, R214). -/
def State.chooseVictim (s : State) (h i : Nat) : State :=
  let s := match s.spillVictim h i with
    | some (.ondie set _) => s.readRepl h false set
    | some (.evgan set _) => s.readRepl h true set
    | _ => s
  match s.spillVictim h i with
  | none => s
  | some l => s.updSl h fun sl => { sl with stage := tput i { s.stageAt h i with victim := some (l, s.sectorAt h l) } sl.stage }

/-- The victim chosen for a staged entry, while its entry still stands where it was. -/
def State.chosenVictim (s : State) (h i : Nat) : Option Loc :=
  match (s.stageAt h i).victim with
  | some (l, x) => if !isFree (s.entry h l) && tagOk (s.entry h l) && s.sectorAt h l == x then some l else none
  | none => none

/-- Put a new entry for a sector where R215 or R320 places it; none: no room now (R181, R213). -/
def State.allocate (s : State) (h ten cls : Nat) (claim : Option Nat) (x : SectorAddr) (j : Nat) (st : LineState) (marked : Bool) :
    Option State :=
  let e := setRec (newEntry x) j st
  let place := if claim.isSome then none else s.placeFor h ten x marked
  match place with
  | some (.evgan set w) =>
    if !s.wbufRoom h cls then none
    else
      let s := (s.presenceChange h (.evgan set w) 0 (stVec st)).putEntry h (.evgan set w) e
      let s := s.updSl h fun sl => { sl with heat := tdel (16 * s.row h true set + w) sl.heat }
      some (s.touch h true set w true)
  | some (.ondie set w) =>
    let s := if s.evganPresent then s.zeroSet h true (setE x) else s
    some (((s.presenceChange h (.ondie set w) 0 (stVec st)).putEntry h (.ondie set w) e).touch h false set w true)
  | _ =>
    match s.stageFor h cls claim with
    | none => none
    | some i =>
      let ev := s.evganPresent
      let s := s.presenceChange h (.stage i) 0 (stVec st)
      let g : Stage := { used := true, evgan := ev, set := if ev then setE x else setD x, ten := ten, since := s.frame }
      let s := s.updSl h fun sl => { sl with stage := tput i g sl.stage, spillQ := sl.spillQ ++ [i] }
      some ((s.putEntry h (.stage i) e).chooseVictim h i)

/-- The R320 treatment of a marked claim's way. -/
def State.markVictim (s : State) (h : Nat) : Option Loc → State
  | some (.ondie set w) => s.touch h false set w false
  | some (.evgan set w) => s.touch h true set w false
  | _ => s

/-- A request that was in flight when the running range invalidation started writes a record in a place that the walk has passed: the
walk visits the sector as well (R242). DEDUCED, log entry 41. -/
def State.lateRecord (s : State) (h t : Nat) (l : LineAddr) : State :=
  let m := (s.sl h).maint
  let x := sectorOf l
  if m.running = some .rinv && (s.txn h t).req.taken ≤ m.since && s.inRinv x && !(m.found.contains x) then
    match s.find h x with
    | some p => if m.passedLoc p then s.updSl h fun sl => { sl with maint := { m with found := m.found ++ [x] } } else s
    | none => s
  else s

/-- Write a line's record (R143, R207, R213 to R215, R263, R414); none: it must wait for a stage entry or the write buffer. -/
def State.writeRec (s : State) (h t : Nat) (l : LineAddr) (st : LineState) : Option State :=
  let x := s.txn h t
  let cls := if x.home.isSome then 3 else x.cls
  let ten := if x.home.isSome then 0 else x.ten
  let lost := x.recovery && !x.bcast
  match s.find h (sectorOf l) with
  | some (.evgan set w) =>
    if !s.wbufRoom h cls then none
    else
      let s := (s.writeAt h (.evgan set w) (lineIdx l) st lost).lateRecord h t l
      some (if x.req.marked then s.markVictim h (some (.evgan set w)) else s)
  | some loc =>
    let s := (s.writeAt h loc (lineIdx l) st lost).lateRecord h t l
    some (if x.req.marked then s.markVictim h (some loc) else s)
  | none =>
    if st = .untracked then some s
    else match s.allocate h ten cls x.claim (sectorOf l) (lineIdx l) st x.req.marked with
      | none => none
      | some s => some (if x.req.marked then (s.lateRecord h t l).markVictim h (s.find h (sectorOf l)) else s.lateRecord h t l)

/-- Free a stage entry that was claimed and not used (R262). -/
def State.unclaim (s : State) (h t : Nat) : State :=
  match (s.txn h t).claim with
  | some i => if (s.stageAt h i).claimed then s.updSl h fun sl => { sl with stage := tdel i sl.stage } else s
  | none => s

/-- Write the record of a request's line; `false`: the transaction waits, marked for the stage or the write buffer (R181, R213). -/
def State.recordDone (s : State) (h t : Nat) : Bool × State :=
  let x := s.txn h t
  let st := s.dropLost x x.newRec
  let skip := x.recDone || !s.mayRecord h x || (!x.recovery && x.rec0 == .found st && x.known.length == 1 &&
    (s.probe h x.line).known == .found st && !x.req.marked)
  let word := if x.recovery && !x.bcast then s.find h (sectorOf x.line) else none
  if skip then
    (true, if x.recDone || !s.mayRecord h x then s else s.setTxn h t { x with resSt := stBits st, resVec := stVec st })
  else match s.writeRec h t x.line st with
    | some s =>
      let s := s.unclaim h t
      let s := match word.or (if x.recovery && !x.bcast then s.find h (sectorOf x.line) else none) with
        | some l => s.updSl h fun sl => sl.addReread l false
        | none => s
      (true, s.setTxn h t { s.txn h t with recDone := true, resSt := stBits st, resVec := stVec st })
    | none =>
      let wbuf := match s.find h (sectorOf x.line) with
        | some _ => true
        | none => (s.placeFor h x.ten (sectorOf x.line) x.req.marked).isSome
      (false, s.setTxn h t { x with waitStage := !wbuf, waitWbuf := wbuf, waitAt := s.frame })

/-! Completion. -/

/-- C0 residency (R267). -/
def State.c0Stat (s : State) (h t : Nat) : State :=
  let x := s.txn h t
  if x.cls ≠ 0 || x.home.isSome then s
  else
    let o := oSl (s.engine h) 0x18
    let res := s.frame - x.req.arrival
    let s := if s.fld o 24 8 < min res 255 then s.noteFld o 24 8 (min res 255) else s
    if 40 < res then
      let was := s.fld o 32 16
      let s := s.incFld o 32 16 1
      if was = 0 then s.raiseSl (s.engine h) 35 0 (BitVec.ofNat 64 (min res 255) ||| (BitVec.ofNat 64 x.ten <<< 8) |||
        (BitVec.ofNat 64 t <<< 14) ||| (BitVec.ofNat 64 x.req.src <<< 24)) else s
    else s

/-- The completion's opcode and granted state (R88, R149). -/
def Txn.grant (x : Txn) : CmpOp × BitVec 2 × Bool :=
  match x.req.op with
  | .rdShared => (.cmpData, (match x.newRec with | .shared _ => 1 | _ => 2), true)
  | .rdOwn => (.cmpData, 2, true)
  | .upgrade => (if x.needsData then .cmpData else .cmpGo, 2, true)
  | .rdCur => (.cmpData, 0, false)
  | .claim => (.cmpGo, 2, true)
  | .atomNear => (.cmpAtom, 0, false)
  | .atomFar => if x.far then (.cmpData, 2, true) else (.cmpAtom, 0, false)
  | .evictClean => (.cmpEvict, 0, false)
  | .agentSleep => (.cmpGo, 0, false)
  | .wbDirty | .wrFull | .wrPart | .wrStream | .fence => (.cmpWr, 0, false)

/-- A completion of a transaction toward a requester (R74). -/
def State.cmpFor (s : State) (h t : Nat) (r : Req) (op : CmpOp) (g : BitVec 2) (ack : Bool) (d : Line) (p : Bool) (old : BitVec 64) :
    State :=
  let c : Cmp := { op := op, dest := r.src, rtid := r.rtid, htid := t, hslice := h, tepoch := s.epoch h t, gstate := g, ack := ack, poison := p, data := d, old := old }
  s.send s.frame (portOf r.nc r.src) (.cmp c)

/-- The `CmpWr` of absorbed and merged requests (R153, R325); a lost writer receives none (R455). -/
def State.cmpOthers (s : State) (h t : Nat) : State :=
  let x := s.txn h t
  (x.absorbed ++ x.merged).foldl (fun s r =>
    if !r.nc && s.agSt r.src == agLost then s else s.cmpFor h t r .cmpWr 0 false 0 false 0) s

/-- Free a merge-buffer entry. -/
def State.freeMerge (s : State) (h i : Nat) : State := s.updSl h fun sl => { sl with merges := tdel i sl.merges }

/-- The completion of a request transaction in this frame (R88, R141, R143, R153, R156, R158, R325). -/
def State.complete (s : State) (h t : Nat) (old : BitVec 64) (poisonedAtom : Bool) : State :=
  let x := s.txn h t
  let (op, g, ack) := x.grant
  let silent := x.reqLost || (!x.req.nc && s.agSt x.req.src == agLost)
  let (d, p) := match op, x.memData with | .cmpData, some (d, p) => (d, p) | _, _ => ((0 : Line), poisonedAtom)
  let s := s.cmpOthers h t
  let s := if silent then s else s.c0Stat h t
  let s := s.notePoison h (!silent && p && (op == .cmpData || op == .cmpAtom) && !x.ownPoison 0 && !x.seenPoison)
  let s := if silent then s else s.cmpFor h t x.req op g ack d p old
  let s := if x.far then s.incFld (oSl (s.engine h) 0x58) 24 24 1 else s
  let s := match x.merge with | some m => (if x.req.op == ReqOp.wrPart then s.freeMerge h m else s) | none => s
  if ack && !silent then
    s.upd h t fun x =>
      { x with cmpSent := true, st := .ackwait, mems := x.mems.filter (fun m => m.discard), waitStage := false, waitWbuf := false, merge := none
               waits := [{ agent := x.req.src, kind := .ackGo, start := s.frame, len := s.snoopContract x.req.src }] }
  else
    (s.upd h t fun x => { x with cmpSent := true, mems := [], waits := [], waitStage := false, waitWbuf := false, merge := none }).plan
      s.frame h t .release

/-- A line of dirty data as its data buffer gives it (R343, R380). -/
def Dirty.read (d : Dirty) : Dirty :=
  let bad : Bool := decodeFlip d.flip == .bad
  { d with data := d.data ^^^ (flipData d.flip).setWidth 512, poison := d.poison || bad, bad := d.bad || bad, flip := 0 }

/-- The data buffers of a transaction are read: each error is counted, and a line with an uncorrectable word is taken with POISON = 1,
which the block creates with cause 0b010 (R343, R350, R372, R374). -/
def State.readBuffers (s : State) (h t : Nat) : State :=
  let x := s.txn h t
  if x.dflip = 0 && x.dirties.all fun d => d.flip == 0 then s
  else
    let s := x.dirties.foldl (fun s d =>
      let s := s.readFlip h 14 t d.flip
      if decodeFlip d.flip = .bad then s.poisonCreated h 2 d.agent (x.lineAt d.j) t else s) s
    let bad := x.memData.isSome && decodeFlip x.dflip == .bad
    let s := if x.memData.isSome then s.readFlip h 14 t x.dflip else s
    let s := if bad then s.poisonCreated h 2 x.req.src x.line t else s
    s.setTxn h t { s.txn h t with
      dirties := x.dirties.map Dirty.read, madePoison := x.madePoison || bad, dflip := 0
      memData := x.memData.map fun d => (d.1 ^^^ (flipData x.dflip).setWidth 512, d.2 || bad) }

/-- The flow is about to use the lines of its data buffers: for a write that does not overwrite every byte, or for its completion. -/
def State.usesBuffers (s : State) (h : Nat) (x : Txn) : Bool :=
  !s.stagedLine h x.line &&
  match s.nextMem h x with
  | some (op, _, _, created) => op != .rd && !created && !x.fullWrite &&
      !(x.merge.any fun m => (s.mergeAt h m).mask == BitVec.allOnes 64)
  | none => s.canFlow h x && x.memData.isSome && x.grant.1 == .cmpData

/-- A write of the transaction that it now sends carries its dirty lines, or stands in their place; one that gives every byte itself leaves
them unwritten, for they go to memory if its requester is lost (R456). -/
def State.carries (s : State) (h : Nat) (x : Txn) (op : MemOp) : Bool :=
  op != .rd && (x.reqLost || !(x.fullWrite || x.merge.any fun m => (s.mergeAt h m).mask == BitVec.allOnes 64))

/-- The flow of a request transaction goes on in this frame: a memory request, or the completion (R141, R144). DEDUCED, log entry 35. -/
def State.flow (s : State) (h t : Nat) : State :=
  let s := if s.usesBuffers h (s.txn h t) then s.readBuffers h t else s
  let x := s.txn h t
  match s.nextMem h x with
  | some (op, d, p, created) =>
    if s.stagedLine h x.line then s
    else
      let (d, s) := if created && op == .wrRd then s.freshLine else (d, s)
      let passes := p && op != .rd && op != .wrPoison && !x.ownPoison 0
      let s := if created then s.poisonCreated h 3 x.req.src x.line t else s.notePoison h passes
      let s := s.setTxn h t { s.txn h t with
        madePoison := x.madePoison || created, seenPoison := x.seenPoison || passes
        dirties := if s.carries h x op then x.dirties.map (fun d => { d with written := true }) else x.dirties }
      s.sendMem h t op 0 d p false
  | none =>
    if !s.canFlow h x || (!x.recDone && (x.waitStage || x.waitWbuf) && x.claim.isNone) then s
    else match s.recordDone h t with
      | (false, s) => s
      | (true, s) => s.complete h t 0 false

/-! Release and the waiter chain (R133, R135, R163, R193). -/

/-- Release a line: its lock passes to the head of its chain (R135). DEDUCED, log entry 14. -/
def State.releaseLine (s : State) (h t : Nat) (l : LineAddr) : State :=
  let x := s.txn h t
  match (s.chain h l).head? with
  | none => s
  | some u => s.upd h u fun y => { y with resumeAt := some (s.frame + 1), relKey := (x.issue, x.slot) }

/-- Release a transaction's lines and its tag at the end of this frame (R157, R158). -/
def State.release (s : State) (h t : Nat) : State :=
  let x := s.txn h t
  if x.st = .free then s
  else
    let s := s.unclaim h t
    let s := s.unplan h t
    let lines := if x.want = 4 then (List.range x.locked).map (lineIn (sectorOf x.line)) else if x.want = 1 && x.locked = 1 then [x.line] else []
    let s := lines.foldl (fun s l => s.releaseLine h t l) s
    s.put h t {}

/-- A new waiter of a class may be placed ahead of a waiter: of a higher class, and not promoted unless the new one is C0 (R133,
R193). -/
def State.goesBefore (s : State) (h : Nat) (cls : Nat) (u : Nat) : Bool :=
  let y := s.txn h u
  let yc := if y.home.isSome then 3 else y.cls
  y.resumeAt.isNone && cls < yc && (!y.promoted || cls = 0)

/-- Join the chain of a line ahead of the waiters at its end that it may pass (R133, R193); a request that joins closes the window of the line's gatherer (R323).
DEDUCED, log entry 14; DEDUCED, log entry 38. -/
def State.joinChain (s : State) (h t : Nat) (l : LineAddr) (cls : Nat) : State :=
  let old := s.chain h l
  let behind := (old.reverse.takeWhile fun u => s.goesBefore h cls u).reverse
  let ahead := old.take (old.length - behind.length)
  let s := s.setChain h l (ahead ++ t :: behind)
  let limit := max 1 (s.fld oProgress 16 6)
  let s := behind.foldl (fun s u =>
    let y := s.txn h u
    let promote := !y.promoted && limit ≤ y.passed + 1
    let s := s.upd h u fun y => { y with passed := y.passed + 1, promoted := y.promoted || promote }
    if promote then s.incFld (oSl (s.engine h) 0x10) 22 8 1 else s) s
  match s.holder h l with
  | some g =>
    let y := s.txn h g
    if (s.txn h t).home.isNone && y.home.isNone && y.gathers && y.window.isSome && !y.winClosed then s.upd h g fun y => { y with window := some (min s.frame ((y.window).getD s.frame)) }
    else s
  | none => s

/-- Leave the chain of a line. -/
def State.leaveChain (s : State) (h t : Nat) (l : LineAddr) : State :=
  s.setChain h l ((s.chain h l).filter fun u => u != t)

/-- HOLD_END: a minimum hold ends, and the line and the tag are released at the end of the frame (R157, R161). -/
def execHoldEnd (h t : Nat) (s : State) : Outcome :=
  live s <| need (h < s.nSlices && t < 1024) <|
  let x := s.txn h t
  match x.holdEnd with
  | some f => when' (x.st = .holding && f ≤ s.frame && s.tagOpen h t) s (s.plan s.frame h t .release)
  | none => .next s

end Sys2Proof.Machine
end

