-- ==== Sys2Proof/Machine/Account.lean ====
section
/-! DEFINITION. Transactions that the home runs on its own account over a sector (R132, R182, R183, R216, R239, R241, R361, R362,
R382, R447, R458, R531, R586, R588), and the bookkeeping of the maintenance engine (R364, R384, R448, R449, R459). -/

namespace Sys2Proof.Machine

/-- The lowest free tag of the home pool (R128, R129). -/
def State.homeTag (s : State) (h : Nat) : Option Nat :=
  ((List.range 16).map fun i => 0x3F0 + i).find? fun t => !(thas (s.sl h).txns t)

/-! The selvedge slot (R529, R530). -/

/-- The logical slices an engine serves (R402). -/
def State.served (s : State) (e : Nat) : List Nat := if s.sliceFailed (buddy e) then [e, buddy e] else [e]

/-- A home-account waiter whose line has been released to it (R588). -/
def Txn.homeReady (x : Txn) (frame : Nat) : Bool :=
  x.home.isSome && x.st == .waiting && (match x.resumeAt with | some f => f ≤ frame | none => false)

/-- Rank of a home-account transaction in the selvedge slot (R530). -/
def HomeKind.rank : HomeKind → Nat
  | .spill _ | .orphan .. => 2 | .meminit => 4 | .sweep => 6 | _ => 3

/-- The spillway victim of a staged entry: the one chosen for it, or one that may be chosen now (R178, R180). A victim that is chosen is
evicted although a COMMIT has locked its way since (R220): DESIGN CHOICE, log entry 44. -/
def State.victimFor (s : State) (h i : Nat) : Option Loc := (s.chosenVictim h i).or (s.spillVictim h i)

/-- The staged entry whose spillway transaction may start: the oldest with a victim, while fewer than 8 are in flight (R180, R225). -/
def State.spillNext (s : State) (h : Nat) : Option (Nat × Loc) :=
  if Config.stageEntries ≤ ((s.sl h).txns.filter fun p => match p.2.home with | some (.spill _) => true | _ => false).length then none
  else ((s.sl h).spillQ.find? fun i => (s.victimFor h i).isSome).bind fun i => (s.victimFor h i).map fun l => (i, l)

/-- Range invalidation starts nothing new in a slice whose filter is disabled, and a recount walk leaves its frozen counts alone (R244).
DEDUCED, log entry 38. -/
def State.maintHeld (s : State) (h : Nat) (op : MaintOp) : Bool := (op == .rinv || op == .recount) && !s.flag (oSl h 0x28) 0

/-- The write buffer can take what ends a transaction over an entry (R263). -/
def State.endRoom (s : State) (h : Nat) : Option Loc → Bool
  | some (.evgan _ _) => s.wbufRoom h 3
  | _ => true

/-- The candidates of an orphaned entry that remain (R360): neither another way of its set nor a stage entry holds the sector, and it
hashes to a range that this physical slice serves. -/
def State.orphanCandidates (s : State) (h : Nat) (l : Loc) : List SectorAddr :=
  let e := s.entry h l
  let t := eTag e
  let set := s.setIdx h l
  let bad := eTpar e ^^^ tagPar t
  let lo := if bad.getLsbD 0 then List.range 15 else []
  let hi := if bad.getLsbD 1 then (List.range 15).map fun i => 15 + i else []
  let flip (x : BitVec 30) (i : Nat) : BitVec 30 := x ^^^ ((1 : BitVec 30) <<< i)
  let tags := if lo.isEmpty || hi.isEmpty then t :: (lo ++ hi).map (flip t)
    else (t :: lo.map (flip t)) ++ ((hi.map (flip t)).flatMap fun u => u :: lo.map (flip u))
  let ways (ev : Bool) (d : Nat) : List Loc := (List.range 16).map (wayLoc ev d)
  let places := (List.range Config.stageEntries).map Loc.stage ++
    (match l with | .ondie d _ => ways false d | .evgan d _ => ways true d | .stage _ => [])
  (tags.map fun u => sectorFrom u set).filter fun x =>
    (places.all fun p => p == l || isFree (s.entry h p) || !(tagOk (s.entry h p)) ||
      sectorFrom (eTag (s.entry h p)) (s.setIdx h p) != x) &&
    s.serves (s.engine h) (s.hash (wireOf (lineIn x 0)))

/-- The orphaned entry whose recovery is next: its place, the candidates that remain, and whether its recovery is to start. One that has
begun and waits for a home tag comes first (R359, R361). -/
def State.nextOrphan (s : State) (h : Nat) : Option (Loc × List SectorAddr × Bool) :=
  match (s.sl h).orphanRest, (s.sl h).orphans with
  | (l, cs) :: _, _ => some (l, cs, false)
  | [], l :: _ => some (l, s.orphanCandidates h l, true)
  | [], [] => none

/-- The home tag that the next candidate of an orphaned entry takes, in the slice that it hashes to; none: no candidate, or no tag. -/
def State.orphanTag (s : State) (cs : List SectorAddr) : Option Nat := cs.head?.bind fun c => s.homeTag (s.hash (wireOf (lineIn c 0)))

/-- The next orphaned entry can be taken up: a home tag for its first candidate, or room for the write that ends it (R213, R359). -/
def State.orphanReady (s : State) (h : Nat) : Bool :=
  match s.nextOrphan h with
  | none => false
  | some (l, cs, _) => if cs.isEmpty then s.endRoom h (some l) else (s.orphanTag cs).isSome

/-! Evgan maintenance accesses (R236): those of a logical slice's partition, within its own budget (R395). -/

/-- The Evgan budget in force (R235, R236). -/
def State.budget (s : State) (h : Nat) : Nat := s.fld (oSl h 0x48) 8 8

/-- A replay that is listed may still look up the Evgan tier in the selvedge slot of this frame (R197, R236). -/
def State.lookupsOwed (s : State) (h : Nat) : Nat :=
  if s.evganPresent && s.rangeOpen h && s.filtered h && !(s.sl (s.engine h)).slots.getLsbD 15 &&
    (!(s.sl h).replayQ.isEmpty || !(s.sl h).tk.replays.isEmpty) then 1 else 0

/-- Buffered writes that may drain in this frame (R213). -/
def State.drainsDue (s : State) (h : Nat) : Nat := ((s.sl h).wbuf.filter fun w => w.2.2 < s.frame).length

/-- A maintenance read of an Evgan set can still come in this frame. -/
def State.maintReads (s : State) (h : Nat) : Nat :=
  let m := (s.sl h).maint
  if !(s.sl (s.engine h)).slots.getLsbD 15 && m.running.isSome && Config.ondieSets ≤ m.pos && m.pos < Config.ondieSets + Config.evganSets
  then 1 else 0

/-- The budget of the frame covers one further drain, after the lookups (R236). -/
def State.drainRoom (s : State) (h : Nat) : Bool := (s.sl h).evUsed + s.lookupsOwed h < s.budget h

/-- The budget of the frame covers `n` further accesses of a maintenance read, after lookups and the drains that are due (R236). -/
def State.evRoom (s : State) (h n : Nat) : Bool := (s.sl h).evUsed + s.lookupsOwed h + s.drainsDue h + n ≤ s.budget h

/-- The budget covers `n` further accesses of the placement loop, after drains and maintenance reads (R236). -/
def State.placeRoom (s : State) (h n : Nat) : Bool := s.evRoom h (s.maintReads h + n)

/-- Charge accesses that are granted after the lookups of the frame (R236). -/
def State.useLate (s : State) (h n : Nat) : State :=
  if n = 0 then s else (s.useEvgan h n).updSl h fun sl => { sl with evLate := true }

/-! The maintenance engine's next step (R240, R530). -/

/-- Position of the stage in the order of the walks. -/
def stagePos : Nat := Config.ondieSets + Config.evganSets

/-- The next position that an operation reads, from `p` on (R239, R381). DEDUCED, log entry 41. -/
def State.nextPos (s : State) (op : MaintOp) (p : Nat) : Nat :=
  match op with
  | .scrub =>
    let first := s.fld oScrubRange 0 14
    let last := s.fld oScrubRange 16 14
    let tier := s.fld oScrub 16 2
    let on := max p first
    let ev := max p (Config.ondieSets + first)
    if p < Config.ondieSets && tier != 2 && on ≤ min last (Config.ondieSets - 1) then on
    else if p < stagePos && tier != 1 && s.evganPresent && ev ≤ Config.ondieSets + last then ev
    else max p stagePos
  | _ => if Config.ondieSets ≤ p && p < stagePos && !s.evganPresent then stagePos else p

/-- Accesses of the Evgan budget that reading a position costs (R236, R239). -/
def readCost (p : Nat) : Nat := if Config.ondieSets ≤ p && p < stagePos then 1 else 0

/-- A sector that the operation must not start on now: a line is locked, or an eviction of the lost agent is queued (R240, R458). -/
def State.blocked (s : State) (h : Nat) (op : MaintOp) (x : SectorAddr) : Bool :=
  s.sectorLocked h x ||
  (match op with
   | .lossSweep v =>
     let e := s.engine h
     ((s.sl e).c0q ++ (s.sl e).queued ++ (s.sl e).redHold).any fun q =>
       q.home == h && (q.req.op == .evictClean || q.req.op == .wbDirty) && !q.req.nc && v.getLsbD q.req.src &&
       sectorOf (lineOf q.req.addr) == x
   | _ => false)

/-- Some line of an entry's sector is locked; a free way has no sector. -/
def State.placeLocked (s : State) (h : Nat) (l : Loc) : Bool := !isFree (s.entry h l) && s.sectorLocked h (s.sectorAt h l)

/-- The engine can read its next set now (R236, R240). -/
def State.canRead (s : State) (h : Nat) (op : MaintOp) : Bool :=
  let m := (s.sl h).maint
  s.nextPos op m.pos ≤ stagePos && m.found.isEmpty && m.retry.length < 16 && s.evRoom h (readCost (s.nextPos op m.pos))

/-- The engine can start a transaction, or read a set, now (R240, R530). -/
def State.engineReady (s : State) (h : Nat) : Bool :=
  (s.sl h).maint.running.any fun op => !s.maintHeld h op &&
    (((s.homeTag h).isSome && (s.sl h).maint.found.any fun x => !s.blocked h op x) || s.canRead h op)

/-! Whose turn the selvedge slot is (R529, R530). -/

/-- The rank of work in the selvedge slot (R530). -/
def Selv.rank : Selv → Nat
  | .replay _ | .takeover => 1
  | .spill _ | .orphan _ => 2
  | .waiter _ r => r
  | .init _ => 4
  | .selftest => 5
  | .engine | .fix _ | .lost _ | .reread _ | .remap .. => 3

/-- Accesses of the Evgan budget that work on a row costs. -/
def evCost (ev : Bool) : Nat := if ev then 1 else 0

/-- The tier of a place is the Evgan tier. -/
def Loc.inEvgan : Loc → Bool | .evgan _ _ => true | _ => false

/-- A scrub passes over a line whose sector is locked (R383). -/
def State.passesOver (s : State) (h : Nat) (l : LineAddr) : Bool := (s.sl h).maint.running == some .scrub && s.sectorLocked h (sectorOf l)

/-- The work of a logical slice that could issue, resume or read in a selvedge slot now (R530). -/
def State.selvReady (s : State) (h : Nat) : List Selv :=
  let sl := s.sl h
  if !s.rangeOpen h then []
  else
    let tag := (s.homeTag h).isSome
    (sl.replayQ.take 1).map .replay ++ (if sl.tk.replays.isEmpty then [] else [.takeover]) ++
    (sl.txns.filterMap fun p => if p.2.homeReady s.frame then p.2.home.map fun k => Selv.waiter p.1 k.rank else none) ++
    (if s.orphanReady h then (s.nextOrphan h).toList.map fun o => .orphan o.1 else []) ++
    (if tag && s.filtered h then (s.spillNext h).toList.map fun p => .spill p.1 else []) ++
    ((sl.reread.take 1).filter fun l => s.evRoom h (evCost l.inEvgan)).map .reread ++
    ((sl.hardRows.take 1).filter fun r => s.evRoom h (evCost r.1)).map (fun r => .remap r.1 r.2) ++
    (sl.maint.fixes.find? fun l => !s.placeLocked h l && s.endRoom h (some l)).toList.map .fix ++
    (if tag then ((sl.maint.lostAt.take 1).filter fun l => !s.passesOver h l).map .lost ++ (sl.initFound.take 1).map .init else []) ++
    (if sl.tk.returning && !sl.tk.tested then [.selftest] else []) ++
    (if s.engineReady h then [.engine] else [])

/-- Work of a rank is ready in the selvedge slot of an engine (R530). -/
def State.rankReady (s : State) (e rank : Nat) : Bool := (s.served e).any fun h => (s.selvReady h).any fun w => w.rank == rank

/-- The frame since which work has been ready; work that has become ready since the frame began is the youngest. -/
def State.selvSince (s : State) (h : Nat) (w : Selv) : Nat :=
  match (s.sl h).selv.find? fun p => p.1 == w with | some p => p.2 | none => s.frame

/-- The start of a frame: work that has become ready is noted, and work that is so no longer is forgotten (R529). -/
def State.noteReady (s : State) (h : Nat) : State :=
  s.updSl h fun sl => { sl with selv := (s.selvReady h).map fun w =>
    ((sl.selv.find? fun p => p.1 == w).getD (w, s.frame - 1)) }

/-- The selvedge slot of this frame serves a rank in an engine: it is unused, and no higher rank has ready work (R530).
DESIGN CHOICE, log entry 9. -/
def State.selvedge (s : State) (e rank : Nat) : Bool :=
  !s.sliceFailed e && !(s.sl e).slots.getLsbD 15 && (List.range rank).all fun r => !s.rankReady e r

/-- The selvedge slot is for this work of a logical slice: no work of its rank has been ready longer (R529). DESIGN CHOICE, log entry 9. -/
def State.selvTurn (s : State) (h : Nat) (w : Selv) : Bool :=
  s.selvedge (s.engine h) w.rank &&
  (s.served (s.engine h)).all fun k => (s.selvReady k).all fun v => v.rank != w.rank || s.selvSince h w ≤ s.selvSince k v

/-- Use the selvedge slot (R544, code 0x04). -/
def State.useSelvedge (s : State) (e : Nat) : State :=
  (s.updSl e fun sl => { sl with slots := sl.slots ||| 0x8000 }).count e 4 none

/-! Locking (R588). -/

/-- Take lines in ascending order while they are unlocked, and join the chain of the first that is not (R588). -/
def State.takeLines (s : State) (h t : Nat) : Nat → State
  | 0 => s
  | n + 1 =>
    let x := s.txn h t
    if x.want ≤ x.locked then (s.upd h t fun x => { x with st := .home }).plan (s.frame + 1) h t .probe
    else
      let l := if x.want = 4 then lineIn (sectorOf x.line) x.locked else x.line
      if s.lineBusy h l then (s.upd h t fun x => { x with st := .waiting }).joinChain h t l 3
      else
        let s := s.upd h t fun x => { x with locked := x.locked + 1, st := .home }
        s.takeLines h t n

/-- A move that involves the sector is no longer clean (R232). -/
def State.touchMove (s : State) (h : Nat) (x : SectorAddr) : State :=
  s.updSl h fun sl =>
    match sl.move with
    | some m => if m.sector = x || m.demote = some x then { sl with move := some { m with dirty := true } } else sl
    | none => sl

/-- A transaction of this kind is served in broadcast-snoop mode while the range is (R244, R413); the others start nothing then, or work
on the arrays themselves. -/
def HomeKind.broadcast : HomeKind → Bool
  | .awalk _ | .lsweep _ | .meminit => true
  | _ => false

/-- Start a home-account transaction with a home tag (R128, R182). -/
def State.startHome (s : State) (h : Nat) (kind : HomeKind) (line : LineAddr) (want : Nat) (loc : Option Loc) : State :=
  match s.homeTag h with
  | none => s
  | some t =>
    let s := s.bumpEpoch h t
    let s := s.put h t { home := some kind, st := .home, line := line, want := want, loc := loc, issue := s.frame, slot := 15,
                         wdStart := some s.frame, bcast := kind.broadcast && !s.filtered h }
    (s.touchMove h (sectorOf line)).takeLines h t 5

/-! The frame after issue: snoops (R182, R239, R361, R447, R458, R531, R586). -/

/-- Ask every agent that a known record names about line `j`, but for those whose answer is taken or awaited; in an orphan recovery each is
a possible owner (R355, R361). -/
def State.askHolders (s : State) (h t j : Nat) (k : Known) : State :=
  match k with
  | .found st =>
    (vecAgents (stVec st)).foldl (fun s a =>
      let x := s.txn h t
      if x.gaveDirty a j || x.answers.contains (a, j) || (x.waits.any fun w => w.agent == a && w.j == j) then s
      else s.askAgent h t .back a j (x.orphaned || (match st with | .owned _ => true | _ => false))) s
  | .lost => s

/-- Ask every agent of R354 about line `j` (R586). -/
def State.askAll (s : State) (h t j : Nat) (counted : Bool) : State :=
  let s := if counted then s.countLost h ((s.txn h t).lineAt j) 0 t else s
  (s.recoveryAgents (s.txn h t) j).foldl (fun s a => s.askAgent h t .back a j true) s

/-- A read of line `j` of the word at a place: a correction is counted once and queued for its write-back, and an uncorrectable
record is counted (R204, R205, R372, R374). -/
def State.readLine (s : State) (h : Nat) (l : Loc) (j : Nat) : State :=
  match decodeRec (s.entry h l) j with
  | .good _ => s
  | .fixed _ =>
    if (s.sl h).fixDue l then s
    else (s.correctable h (bankOf l) (setOf l).1 (setOf l).2).updSl h fun sl => { sl with correct := sl.correct ++ [(s.frame, l)] }
  | .bad => s.uncorrectable h (bankOf l) (setOf l).1 (setOf l).2

/-- A read of all four records of the word at a place (R204). DEDUCED, log entry 17. -/
def State.readLines (s : State) (h : Nat) (l : Loc) : State := foldSt (List.range 4) (fun s j => s.readLine h l j) s

/-- The records that a home-account transaction reads: of its orphaned entry, else of its sector's entry. -/
def State.homeKnown (s : State) (h : Nat) (x : Txn) : List Known :=
  match x.home with
  | some (.scrub _) => [.lost]
  | some (.orphan o _) =>
    (match x.loc with | none => [] | some l => (List.range 4).map fun j => knownAt (s.entry o l) j)
  | _ =>
    if x.bcast then List.replicate 4 .lost
    else match x.loc with
      | none => List.replicate 4 (.found .untracked)
      | some l => (List.range 4).map fun j => knownAt (s.entry h l) j

/-- What one line of the sector calls for; nothing is counted as lost in broadcast-snoop mode, which reads no record (R244). -/
def State.askLine (s : State) (h t : Nat) (kind : HomeKind) (k : Known) (j : Nat) : State :=
  let counted := !(s.txn h t).bcast
  match kind with
  | .scrub _ => s.askAll h t j true
  | .awalk a =>
    (match k with
     | .lost => s.askAll h t j counted
     | .found st => if (stVec st).getLsbD a then s.askHolders h t j (if st = .owned a then .found st else .found (.shared (vecOf a))) else s)
  | .lsweep v =>
    (match k with
     | .lost => s.askAll h t j counted
     | .found (.owned a) =>
       if v.getLsbD a && s.agSt a == agLost && !(s.txn h t).gaveDirty a j then s.synthDirty h t a j else s
     | .found _ => s)
  | .orphan .. => (match k with | .lost => s.askAll h t j false | k => s.askHolders h t j k)
  | .sweep => s
  | _ => (match k with | .lost => s.askAll h t j counted | k => s.askHolders h t j k)

/-! Memory and the end. -/

/-- The write that line `j`'s dirty lines call for, while one of them is not written (R182, R356, R458, R531): opcode, data, poison,
whether poison is created. -/
def Txn.homeWrite (x : Txn) (j : Nat) : Option (MemOp × Line × Bool × Bool) :=
  let ds := x.dirties.filter fun d => d.j == j
  if x.home = some .meminit then (if x.memDone then none else some (.wr, 0, false, false))
  else if ds.all fun d => d.written then none
  else match x.home with
  | some (.lsweep _) =>
    if 2 ≤ (ds.map fun d => d.agent).eraseDups.length then some (.wrPoison, 0, true, true)
    else (match ds.head? with
      | some d => if d.synth then some (.wrPoison, 0, true, false) else some (.wr, d.data, d.poison, false)
      | none => none)
  | _ =>
    if 2 ≤ (ds.map fun d => d.agent).eraseDups.length then some (.wrPoison, 0, true, true)
    else ds.head?.map fun d => (.wr, d.data, d.poison, false)

/-- Rewrite the records of an entry in one write: `f j` gives the new record of line `j`, or leaves it. -/
def State.rewriteEntry (s : State) (h : Nat) (l : Loc) (f : Nat → Option LineState) : State :=
  let e := s.entry h l
  let s := (List.range 4).foldl (fun s j =>
    match f j with
    | none => s
    | some st => s.presenceChange h l (match decodeRec e j with | .bad => 0 | d => d.known.vec) (stVec st)) s
  let e' := (List.range 4).foldl (fun w j => match f j with | none => w | some st => setRec w j st) e
  if isFree e' then s.zeroEntry h l else s.putEntry h l (fixEntry e')

/-- Operations of the maintenance engine that still have transactions in flight (R448). -/
def State.maintTxns (s : State) (h : Nat) : Bool :=
  (s.sl h).txns.any fun p => match p.2.home with
    | some .rinv | some (.awalk _) | some (.lsweep _) | some (.scrub _) => true | _ => false

/-- Precedence of the operations (R448). -/
def MaintOp.order : MaintOp → Nat
  | .lossSweep _ => 0 | .agentWalk _ => 1 | .recount => 2 | .scrub | .rinv => 3

/-- Some slice of the part runs or has queued an operation. -/
def State.maintAnywhere (s : State) (p : MaintOp → Bool) : Bool :=
  (List.range s.nSlices).any fun k => !s.pairLost k &&
    (let m := (s.sl k).maint
     (match m.running with | some o => p o | none => false) || m.queue.any p)

/-- A range invalidation or a scrub starts in a slice: its summary is cleared, but not again for the second range that the slice serves in
the same operation (R243, R384, R402, R565). DEDUCED, log entry 39. -/
def State.clearSummary (s : State) (h o : Nat) (op : MaintOp) : State :=
  let e := s.engine h
  if (s.sl e).summed.contains op then s
  else (s.setReg (oSl e o) 0).updSl e fun sl => { sl with summed := sl.summed ++ [op] }

/-- An operation that the disabled filter holds, once nothing of it is in flight, goes back to the head of its kind in the queue: it starts
from the beginning when the filter is enabled again (R242, R244, R448). DEDUCED, log entry 38. -/
def State.suspend (s : State) (h : Nat) : State :=
  let m := (s.sl h).maint
  match m.running with
  | some op =>
    if s.maintHeld h op && !s.maintTxns h then
      s.updSl h fun sl => { sl with maint := { queue := insertBy (fun a b => a.order ≤ b.order) op m.queue } }
    else s
  | none => s

/-- A slice whose RECOUNT is set has a recount walk queued (R364). -/
def State.queueRecount (s : State) (h : Nat) : State :=
  let m := (s.sl h).maint
  if s.flag (oSl h 0x78) 24 && m.running != some .recount && !(m.queue.contains .recount) then
    s.updSl h fun sl => { sl with maint := { m with queue := insertBy (fun a b => a.order < b.order) .recount m.queue } }
  else s

/-- Operations over the range may start: in a range that is taken over, not before its rebuild sweep has ended (R411). -/
def State.maintOpen (s : State) (h : Nat) : Bool :=
  !(s.sliceFailed h && (!s.rangeOpen h || (s.sl h).sweep.isSome || (s.sl h).sweepDue))

/-- The next operation of each range that the engine of a slice serves, its own range first (R402, R448). -/
def State.nextOps (s : State) (e : Nat) : List (Nat × MaintOp) :=
  ((s.served e).filter s.maintOpen).filterMap fun k => ((s.sl k).maint.queue.find? fun op => !s.maintHeld k op).map fun op => (k, op)

/-- The maintenance engine of a slice, when it runs no operation in any range that it serves, starts the next one (R238, R244, R364, R381,
R402, R448). DEDUCED, log entry 39. -/
def State.maintNext (s : State) (h : Nat) : State :=
  let l := s.served (s.engine h)
  let s := foldSt l State.queueRecount (foldSt l State.suspend s)
  if l.any fun k => (s.sl k).maint.running.isSome then s
  else
    match minBy (fun p => p.2.order) (s.nextOps (s.engine h)) with
    | none => s
    | some (k, op) =>
      let s := s.updSl k fun sl => { sl with maint := { running := some op, queue := sl.maint.queue.erase op, since := s.frame } }
      match op with
      | .rinv => s.clearSummary k 0x50 op
      | .scrub => s.clearSummary k 0x80 op
      | _ => s

/-- Queue an operation in a slice (R448). -/
def State.maintAdd (s : State) (h : Nat) (op : MaintOp) : State :=
  let s := s.updSl h fun sl => { sl with maint := { sl.maint with queue := insertBy (fun a b => a.order < b.order) op sl.maint.queue } }
  s.maintNext h

/-- The requests of a logical slice that wait at the ports (R292, R326 to R328), are on their way, or are taken but not sampled. -/
def State.unsampled (s : State) (h : Nat) : List Req :=
  let nets := s.net ++ (s.lanes.flatMap fun p => p.2.waitC0 ++ p.2.waitGen) ++
    s.late.filterMap fun l => match l with | .sample n => some n | _ => none
  ((nets.filter fun n => n.home == h).map fun n => n.req) ++
    ((s.lanes.filterMap fun p => p.2.blocked) ++ (s.hubs.filterMap fun p => p.2.waiting)).filter fun r => s.hash r.addr == h

/-- What an operation that has read its sets still awaits: a range invalidation the requests that were in flight when it started (R242), a
scrub its rereads and their remaps (R384), a recount the end of the frozen counts (R244). -/
def State.opWaits (s : State) (h : Nat) (op : MaintOp) : Bool :=
  let sl := s.sl h
  match op with
  | .rinv =>
    let before (r : Req) : Bool := r.taken ≤ sl.maint.since && s.inRinv (sectorOf (lineOf r.addr)) && r.op != .agentSleep && r.op != .fence
    (sl.txns.any fun p => p.2.home.isNone && !p.2.cmpSent && before p.2.req) || (s.stored h).any (fun q => before q.req) ||
      (s.unsampled h).any before
  | .scrub => !sl.maint.rereads.isEmpty || !sl.maint.rows.isEmpty || sl.copies.any fun c => c.scrub
  | .recount => s.maintHeld h op
  | _ => false

/-- An operation that has read its sets, started its transactions and seen them release ends in the slice; when it has ended in
every slice the block reports it (R243, R364, R384, R448, R449, R459). -/
def State.maintCheck (s : State) (h : Nat) : State :=
  let s := s.suspend h
  let m := (s.sl h).maint
  match m.running with
  | none => s.maintNext h
  | some op =>
    if m.pos ≤ Config.ondieSets + Config.evganSets || !m.found.isEmpty || !m.retry.isEmpty || !m.fixes.isEmpty || !m.lostAt.isEmpty
        || s.maintTxns h || s.opWaits h op then s
    else
      let s := s.updSl h fun sl => { sl with maint := { sl.maint with running := none } }
      let s := match op with
        | .recount =>
          let s := s.updSl h fun sl => { sl with presence := m.shadow }
          if m.again then s else s.setFlag (oSl h 0x78) 24 false
        | .lossSweep v =>
          (vecAgents v).foldl (fun s a => s.updAg a fun g => { g with sweepIn := g.sweepIn.filter fun k => k != h }) s
        | .rinv =>
          if s.maintAnywhere (fun (o : MaintOp) => o == MaintOp.rinv) then s
          else ((s.setFlag oRinv 17 false).setFlag oRinv 18 true).raise 22 0 0
        | .scrub =>
          if s.maintAnywhere (fun (o : MaintOp) => o == MaintOp.scrub) then s
          else ((s.setFlag oScrub 19 false).setFlag oScrub 20 true).raise 34 0 0
        | .agentWalk a =>
          if s.maintAnywhere (fun o => o == MaintOp.agentWalk a) then s
          else
            let more := s.maintAnywhere (fun o => match o with | .agentWalk _ => true | _ => false)
            ((s.setFlag oWalk 9 more).setFlag oWalk 10 true).raise 33 0 (BitVec.ofNat 64 a)
      s.maintNext h

/-- Every slice has finished memory initialization (R532). -/
def State.initCheck (s : State) : State :=
  let busy (k : Nat) : Bool := (s.sl k).initPos.isSome || !(s.sl k).initFound.isEmpty ||
    (s.sl k).txns.any fun p => match p.2.home with | some .meminit => true | _ => false
  if s.flag oMeminit 1 && !((List.range s.nSlices).any fun k => !s.pairLost k && busy k) then
    ((s.setFlag oMeminit 1 false).setFlag oMeminit 2 true).raise 41 0 0
  else s

/-- The last candidate of an orphan is done: the word is zeroed, RECOUNT is set and the word is reread (R362). -/
def State.orphanEnd (s : State) (h : Nat) (l : Loc) : State :=
  let s := s.zeroEntry h l
  let s := s.setFlag (oSl h 0x78) 24 true
  (s.updSl h fun sl => { sl.addReread l false with orphans := sl.orphans.filter fun p => p != l }).maintNext h

/-- The slice and the place of the entry that a home-account transaction ends with; the victim of a spillway may have left its way while the
transaction waited for the lines (R182, R587). -/
def State.homePlace (s : State) (h : Nat) (x : Txn) : Nat × Option Loc :=
  match x.home with
  | some (.spill _) => (h, x.loc.filter fun l => !isFree (s.entry h l) && tagOk (s.entry h l) && s.sectorAt h l == sectorOf x.line)
  | some (.orphan o _) => (o, x.loc)
  | _ => (h, s.find h (sectorOf x.line))

/-- The agents that a walk or a sweep takes from line `j` of its sector; a line whose `WbDirty` was absorbed is no longer held (R152). -/
def State.takeFrom (s : State) (x : Txn) (v : Agents) (j : Nat) : Option LineState :=
  match x.known[j]? with
  | some .lost => some .untracked
  | some (.found st) =>
    if x.absorbed.any fun r => x.idx (lineOf r.addr) == j then some .untracked
    else if (stVec st &&& v) = 0 then none
    else some (s.dropLost x ((vecAgents v).foldl LineState.without st))
  | none => none

/-- The free way, or stage entry, whose stored tag gives the sector of a line and whose record of the line is uncorrectable (R382). -/
def State.badFree (s : State) (h : Nat) (l : LineAddr) : Option Loc :=
  (s.probePlaces (sectorOf l)).find? fun p =>
    isFree (s.entry h p) && decodeRec (s.entry h p) (lineIdx l) == .bad && s.sectorAt h p == sectorOf l

/-- The victim of a spillway is gone, and its way serves another entry: the staged entry that still waits is to have a new victim (R180, R225).
DESIGN CHOICE, log entry 42. -/
def State.respill (s : State) (h i issue : Nat) : State :=
  let g := s.stageAt h i
  let others := ((s.sl h).txns.filter fun p => p.2.home == some (.spill i)).length
  if g.used && g.since ≤ issue && others ≤ 1 && !((s.sl h).spillQ.contains i) then
    (s.updSl h fun sl => { sl with spillQ := sl.spillQ ++ [i] }).chooseVictim h i
  else s

/-- A home-account transaction rewrites its entry (R183, R239, R244, R362, R382, R447, R458, R531). -/
def State.homeRecord (s : State) (h t : Nat) : State :=
  let x := s.txn h t
  let zero : Nat → Option LineState := fun _ => some .untracked
  let s := match x.home, (s.homePlace h x).2 with
    | some (.spill i), some l =>
      let e := s.entry h l
      let s := (List.range 4).foldl (fun (s : State) j =>
        s.presenceChange h l (match decodeRec e j with | .bad => 0 | d => d.known.vec) 0) s
      let s := s.incFld (oSl (s.engine h) 0x30) 0 24 1
      (match if s.stageFits h i l && (s.stageAt h i).since ≤ x.issue && !((s.sl h).spillQ.contains i) then some i else s.stagedFor h l with
       | some j => s.stageMove h j l
       | none => s.zeroEntry h l)
    | some .rinv, some l =>
      let s := (s.rewriteEntry h l zero).incFld (oSl (s.engine h) 0x50) 0 24 1
      (match l with
       | .ondie _ w => if s.wayLocked false w then s.incFld (oSl (s.engine h) 0x50) 24 16 1 else s
       | .evgan _ w => if s.wayLocked true w then s.incFld (oSl (s.engine h) 0x50) 24 16 1 else s
       | .stage _ => s)
    | some .meminit, some l => if s.mayRecord h x then s.rewriteEntry h l zero else s
    | some (.awalk a), some l => if s.mayRecord h x then s.rewriteEntry h l (s.takeFrom x (vecOf a)) else s
    | some (.lsweep v), some l => if s.mayRecord h x then s.rewriteEntry h l (s.takeFrom x v) else s
    | some (.scrub _), some l =>
      let s := s.rewriteEntry h l fun j => if j = lineIdx x.line then some .untracked else none
      s.updSl h fun sl => sl.addReread l true
    | some (.scrub _), none =>
      (match s.badFree h x.line with
       | some l => (s.zeroEntry h l).updSl h fun sl => sl.addReread l true
       | none => s)
    | some (.orphan o []), some l => s.orphanEnd o l
    | some (.spill i), none => s.respill h i x.issue
    | _, _ => s
  s.setTxn h t { s.txn h t with recDone := true, waitWbuf := false }

/-- A home-account transaction ends: it rewrites its entry, unless it has, and releases its lines and its tag at the end of the frame. -/
def State.homeFinish (s : State) (h t : Nat) : State :=
  let x := s.txn h t
  let p := s.homePlace h x
  if !x.recDone && !s.endRoom p.1 p.2 then s.setTxn h t { x with waitWbuf := true, waitAt := s.frame }
  else
    let s := if x.recDone then s else s.homeRecord h t
    let s := s.cmpOthers h t
    (s.upd h t fun x => { x with cmpSent := true }).plan s.frame h t .release

/-- The next candidate of an orphaned entry starts when the one before has released its tag (R361); with no home tag in the slice that it
hashes to, it waits for one (R359). DEDUCED, log entry 17. -/
def State.orphanNext (s : State) (x : Txn) : State :=
  match x.home, x.loc with
  | some (.orphan o (c :: rest)), some l =>
    let g := s.hash (wireOf (lineIn c 0))
    if (s.homeTag g).isSome then s.startHome g (.orphan o rest) (lineIn c 0) 4 (some l)
    else s.updSl o fun sl => { sl with orphanRest := sl.orphanRest ++ [(l, c :: rest)] }
  | _, _ => s

/-- The lines whose writes a home-account transaction sends now: all of them when every answer and `MemCmp` is in; before that a loss
sweep's lines of the lost agent alone (R458). -/
def State.homeWrites (s : State) (h t : Nat) : State :=
  let x := s.txn h t
  let js := if x.want = 4 then List.range 4 else [0]
  let early (j : Nat) : Bool :=
    (match x.home with | some (.lsweep _) => true | _ => false) && (x.dirties.any fun d => d.j == j && d.synth) &&
      !(x.waits.any fun w => w.j == j)
  let ws := js.filterMap fun j => (x.homeWrite j).map fun w => (j, w)
  let ws := if x.busy || !x.mems.isEmpty then ws.filter fun p => early p.1 else ws
  if ws.isEmpty || ws.any (fun p => s.stagedLine h (x.lineAt p.1)) then s
  else
    let s := s.upd h t fun x =>
      { x with dirties := x.dirties.map fun d => if ws.any fun p => p.1 == d.j then { d with written := true } else d }
    ws.foldl (fun s p =>
      let (op, d, po, created) := p.2
      let s := if created then s.poisonCreated h 3 0 (x.lineAt p.1) t
               else s.notePoison h (po && op != .wrPoison && !x.ownPoison p.1)
      let s := match x.home, op with
        | some (.lsweep _), .wrPoison => s.incFld (oSl (s.engine h) 0xA0) 40 16 1
        | _, _ => s
      s.sendMem h t op p.1 d po false) s

/-- A home-account transaction goes on in this frame: its writes, or its end. -/
def State.homeFlow (s : State) (h t : Nat) : State :=
  let x := s.txn h t
  if !x.probed || x.cmpSent || x.st = .waiting then s
  else
    let s := if x.busy || !x.mems.isEmpty || x.home = some .meminit then s else s.readBuffers h t
    let x := s.txn h t
    let s := s.homeWrites h t
    if x.busy || !x.mems.isEmpty || (List.range 4).any (fun j => (x.homeWrite j).isSome) then s else s.homeFinish h t

/-- The sets of a sector that a takeover has marked unzeroed are zeroed before a probe uses them (R404). -/
def State.zeroSector (s : State) (h : Nat) (x : SectorAddr) : State :=
  let s := s.zeroSet h false (setD x)
  if s.evganPresent then s.zeroSet h true (setE x) else s

/-- The frame in which a home-account transaction reads its entry and sends its snoops. -/
def State.homeProbe (s : State) (h t : Nat) : State :=
  let x := s.txn h t
  match x.home with
  | none => s
  | some kind =>
    if x.probed || !s.tagOpen h t then s
    else
      let s := match kind with | .orphan .. => s | _ => if x.bcast then s else s.zeroSector h (sectorOf x.line)
      let loc := if x.bcast then none else (s.homePlace h x).2
      let known := s.homeKnown h { x with loc := loc }
      let s := match kind, loc with
        | .scrub _, _ | .orphan .., _ | _, none => s
        | _, some l => s.readLines h l
      let loc := match kind with | .orphan .. => x.loc | _ => loc
      let s := s.setTxn h t { x with probed := true, loc := loc, known := known, recovery := (match kind with | .orphan .. | .scrub _ => true | _ => known.contains .lost) }
      let js := if x.want = 4 then List.range 4 else if x.want = 1 then [0] else []
      let s := js.foldl (fun s j => s.absorbQueued h t (x.lineAt j) (State.txnNames h t (x.lineAt j))) s
      let s := js.foldl (fun s j => s.askLine h t kind ((known[j]?).getD (.found .untracked)) j) s
      let n := ((s.txn h t).waits.filter fun w => w.start == s.frame).length
      let s := match kind with
        | .spill _ => s.incFld (oSl (s.engine h) 0x30) 24 24 n
        | .awalk _ => s.incFld (oSl (s.engine h) 0xA0) 0 24 n
        | _ => s
      let s := s.jr h t
      let s := match kind with | .lsweep _ => s.homeWrites h t | _ => s
      if (s.txn h t).busy || !(s.txn h t).mems.isEmpty then s else s.plan (s.frame + 1) h t .act

end Sys2Proof.Machine
end

