-- ==== Sys2Proof/Machine/Issue.lean ====
section
/-! DEFINITION. Slots: what the weir issues in each (R254 to R257, R286, R287, R408), frame I of a transaction (R131 to R137, R205,
R208, R211, R227 to R230, R306), replays and aborts (R197 to R199, R342), the waits for a stage entry, the write buffer and a merge
entry (R181, R213, R262, R263, R322), the gather window (R323), the ALU (R298 to R304, R311), and the watchdog (R195). -/

namespace Sys2Proof.Machine

/-! Tags (R128 to R130). -/

/-- The tag a queued request takes when it issues, if it can take one; none of a range whose return is running (R428). -/
def State.tagFor (s : State) (q : QReq) : Option Nat :=
  let txns := (s.sl q.home).txns
  let free (t : Nat) : Bool := !(thas txns t)
  let used := (txns.filter fun p => p.1 < 992).length
  let general := if q.cls = 0 || s.c0Tags < 992 - used then (List.range 992).find? free else none
  if (s.sl q.home).tk.returning then none
  else if q.req.op = .evictClean || q.req.op = .wbDirty then (((List.range 16).map fun i => 0x3E0 + i).find? free).or general else general

/-! What a slot serves. -/

/-- What the weir puts in a slot. -/
inductive Pick where
  | resume (h t : Nat) | c0 (q : QReq) (tag : Nat) | head (q : QReq) (tag : Nat) | replay (h t : Nat) | idle
  deriving DecidableEq, Repr

/-- The order in which locks were released: the frame, then the slot of the releasing transaction's issue (R255). -/
def Txn.relOrder (x : Txn) : Nat := ((x.resumeAt.getD 0) * 16 + x.relKey.2) * 2 ^ 64 + x.relKey.1

/-- Request waiters that an engine can resume, of class C0 or of C1 to C3, in the order of release (R135, R255, R286). -/
def State.resumers (s : State) (e : Nat) (c0 : Bool) : List (Nat × Nat) :=
  let all := (s.served e).flatMap fun h =>
    if s.rangeOpen h then
      ((s.sl h).txns.filter fun p => p.2.home.isNone && p.2.st == .waiting && (p.2.cls == 0) == c0 &&
        (match p.2.resumeAt with | some f => f ≤ s.frame | none => false)).map fun p => (h, p.1)
    else []
  all.foldl (fun l p => insertBy (fun a b => (s.txn a.1 a.2).relOrder < (s.txn b.1 b.2).relOrder) p l) []

/-- The first C0 request that can take a tag. -/
def State.c0Ready (s : State) (e : Nat) : Option (QReq × Nat) :=
  (s.sl e).c0q.findSome? fun q => (s.tagFor q).map fun t => (q, t)

/-- The heads of an engine's queues. -/
def queueHeads : List QReq → List QReq → List QReq
  | [], heads => heads
  | q :: rest, heads => queueHeads rest (if heads.any fun p => p.ten == q.ten && p.cls == q.cls then heads else heads ++ [q])

/-- A head is chosen before another: earlier finish time, then lower class, then lower tenant (R286). -/
def headBefore (a b : QReq) : Bool :=
  before32 a.fin b.fin || (a.fin == b.fin && (a.cls < b.cls || (a.cls == b.cls && a.ten < b.ten)))

/-- The eligible head of a color whose finish time is earliest (R286). -/
def State.bestHead (s : State) (e : Nat) (c : Color) : Option (QReq × Nat) :=
  let hs := (queueHeads ((s.sl e).queued.filter fun q => !(s.sl q.home).tk.returning) []).filter fun q => q.color == c && s.rangeOpen q.home
  hs.foldl (fun best q =>
    match s.tagFor q with
    | none => best
    | some t => match best with
      | none => some (q, t)
      | some b => if headBefore q b.1 then some (q, t) else some b) none

/-- The oldest entry of the replay list of a range that an engine has taken over (R408). -/
def State.oldestReplay (s : State) (e : Nat) : Option (Nat × Nat) :=
  (s.served e).findSome? fun h =>
    if s.rangeOpen h then
      (minBy (fun t => (s.txn h t).issue * 16 + (s.txn h t).slot) (s.sl h).tk.replays).map fun t => (h, t)
    else none

/-- The shared choice (R257, R286, R408). -/
def State.pickShared (s : State) (e slot : Nat) : Pick :=
  let n := s.c0Slots
  let waiting := s.resumers e true
  let left := ((c0Map n).filter fun k => slot ≤ k).length
  match waiting[left]? with
  | some p => .resume p.1 p.2
  | none =>
    match (if n = 0 then s.c0Ready e else none) with
    | some (q, t) => .c0 q t
    | none =>
      match s.oldestReplay e with
      | some p => .replay p.1 p.2
      | none =>
        match s.resumers e false with
        | p :: _ => .resume p.1 p.2
        | [] =>
          match s.bestHead e .green with
          | some (q, t) => .head q t
          | none => match s.bestHead e .yellow with | some (q, t) => .head q t | none => .idle

/-- What the weir of engine `e` puts in a slot now (R255, R256). DEDUCED, log entry 14. -/
def State.pick (s : State) (e slot : Nat) : Pick :=
  if (c0Map s.c0Slots).contains slot then
    match s.resumers e true with
    | p :: _ => .resume p.1 p.2
    | [] => match s.c0Ready e with | some (q, t) => .c0 q t | none => s.pickShared e slot
  else s.pickShared e slot

/-- The refill of this frame is still to come (R276). -/
def State.refillDue (s : State) : Bool := s.frame % 64 == 0 && s.refillAt < s.frame

/-- The slice whose weir samples a request: the one that it is addressed to, or its buddy while that one is failed (R395, R481). -/
def State.weirOf (s : State) (n : NetReq) : Nat := if s.sliceFailed n.dest then buddy n.dest else n.dest

/-- Every request that an engine samples in this frame is sampled: metering and queueing come before slot 0 (R249, R270). -/
def State.ingressDone (s : State) (e : Nat) : Bool :=
  !s.refillDue && !(s.net.any fun n => s.weirOf n == e && !s.pairLost n.home && (match n.reached with | some f => f < s.frame | none => false))

/-- Slot `slot` of this frame is still to come in the engine: slots are taken in ascending order (R161, R250).
DESIGN CHOICE, log entry 9. -/
def State.slotFree (s : State) (e slot : Nat) : Bool :=
  s.inService && !s.sliceFailed e && !s.pairLost e && slot < 15 && (s.sl e).slots.toNat < 2 ^ slot && s.ingressDone e && !((s.served e).any fun h => (s.sl h).evLate)

/-- Use a slot. -/
def State.useSlot (s : State) (e slot : Nat) : State :=
  s.updSl e fun sl => { sl with slots := sl.slots ||| (1 <<< slot) }

/-! Frame I. -/

/-- The placement loop runs (R233). -/
def State.placing (s : State) (h : Nat) : Bool := s.evganPresent && s.flag oFilter 2 && s.flag (oSl h 0x28) 0

/-- A probe hit an Evgan way: its heat rises, and a hot sector is queued for promotion (R227, R230). -/
def State.heatHit (s : State) (h set way : Nat) (x : SectorAddr) : State :=
  if !s.placing h then s
  else
    let s := s.readHeat h set way
    let key := 16 * s.row h true set + way
    let n := min 7 ((s.sl h).heatAt key + 1)
    s.updSl h fun sl =>
      let q := if sl.theta ≤ n && sl.promote.length < 8 && !(sl.promote.contains x) then sl.promote ++ [x] else sl.promote
      { sl.putHeat key n with hEv := sl.hEv + 1, promote := q }

/-- An orphan recovery for the place is queued or running (R359). -/
def State.orphanKnown (s : State) (h : Nat) (l : Loc) : Bool :=
  (s.sl h).orphans.contains l || ((s.sl h).orphanRest.any fun o => o.1 == l) || ((s.sl h).txns ++ (s.sl (buddy h)).txns).any fun p =>
    (match p.2.home with | some (.orphan o _) => o == h && p.2.loc == some l | _ => false)

/-- Entries whose tag failed parity are orphaned (R208, R359, R374). -/
def State.orphan (s : State) (h : Nat) (ls : List Loc) : State :=
  ls.foldl (fun s l =>
    if s.orphanKnown h l then s
    else (s.uncorrectable h (bankOf l) (setOf l).1 (setOf l).2).updSl h fun sl => { sl with orphans := sl.orphans ++ [l] }) s

/-- The effects of a request's probe in frame I: unzeroed sets are zeroed (R404), the Evgan lookup is charged (R236), the way is
touched (R221), and heat, hits and events are counted (R227, R229, R544). Answers frame P less I (R137, R403). -/
def State.probeNow (s : State) (h e : Nat) (l : LineAddr) : Nat × State :=
  let x := sectorOf l
  let s := s.zeroSector h x
  let s := if s.evganPresent then s.useEvgan h 1 else s
  let p := s.probe h l
  let later := if e = h then 0 else 1
  let s := s.orphan h p.failing
  match p.loc with
  | some (.ondie set w) =>
    let s := ((s.touch h false set w true).count e 5 none).readLine h (.ondie set w) (lineIdx l)
    (1 + later, if s.placing h then s.updSl h fun sl => { sl with hOn := sl.hOn + 1 } else s)
  | some (.evgan set w) =>
    (2 + later, (((s.touch h true set w true).count e 6 none).readLine h (.evgan set w) (lineIdx l)).heatHit h set w x)
  | some (.stage i) => (1 + later, (s.count e 7 none).readLine h (.stage i) (lineIdx l))
  | none => (2 + later, s.count e 8 none)

/-- The merge entry a `WrPart` or an atomic takes (R321). -/
def State.mergeFree (s : State) (h : Nat) (atomic : Bool) : Option Nat :=
  let free (i : Nat) : Bool := !(s.mergeAt h i).used
  let low := (List.range 28).find? free
  if atomic then ([28, 29, 30, 31].find? free).or low else low

/-- A `WrPart` takes an entry and opens its gather window in this frame (R322, R323). -/
def State.takeMerge (s : State) (h t : Nat) : State :=
  match s.mergeFree h false with
  | none => s
  | some i =>
    let x := s.txn h t
    let m : Merge := { used := true, tag := t, line := x.line, data := x.req.data, mask := x.req.mask, poison := x.req.poison }
    let w := if x.req.nc && x.cls ≠ 0 then s.fld oIowr 0 4 else 0
    (s.setMerge h i m).upd h t fun x => { x with merge := some i, window := some (s.frame + w) }

/-- Frame I of a transaction that holds its line, or needs none (R83, R135, R137, R138, R322, R333, R413, R440); one that is replayed keeps
broadcast-snoop mode (R415). The watchdog of one that takes no lock counts from here: DESIGN CHOICE, log entry 42. -/
def State.beginRun (s : State) (h t : Nat) : State :=
  let x := s.txn h t
  let e := s.engine h
  let bcast := x.want = 1 && (!s.filtered h || (x.replayed && x.bcast))
  let s := s.upd h t fun x => { x with st := .probing, bcast := bcast, wdStart := some s.frame, wdSkip := 0, probed := x.want = 0 }
  if x.want = 0 then
    if x.req.op = .fence && !x.req.clear && !x.noticed then s.upd h t fun x => { x with st := .orderwait }
    else s.plan (s.frame + 1) h t .act
  else
    let s := s.touchMove h (sectorOf x.line)
    let (d, s) := if bcast then (1, s) else s.probeNow h e x.line
    let s := s.plan (s.frame + d) h t .probe
    let s := if x.req.op == .rdShared || x.req.op == .rdOwn || x.req.op == .rdCur then s.plan (s.frame + 1) h t .specRead else s
    if x.req.op = .wrPart && x.req.mask != BitVec.allOnes 64 && x.merge.isNone && !x.memDone then
      if (s.mergeFree h false).isSome then s.takeMerge h t else s.upd h t fun x => { x with st := .gather }
    else s

/-- The predictor's index of a line (R309). -/
def predIdx (l : LineAddr) : Nat := (bits l 0 12 ^^^ bits l 12 12 ^^^ bits l 24 12).toNat

/-- An `AtomFar` is served far (R305, R306). -/
def State.servedFar (s : State) (h : Nat) (q : QReq) : Bool :=
  let mode := s.fld oAtom 0 2
  q.req.op == .atomFar && !q.req.nc && s.farAtomic q.req.src && (q.req.src < 16 || s.priv q.ten) && mode != 1 &&
  (mode == 2 || (tget 0 (s.sl h).predictor (predIdx (lineOf q.req.addr))).toNat < 2)

/-- The fences of a hub whose notice its tracker has not sent (R333). -/
def State.fenceOpen (s : State) (r : Req) : Bool :=
  (s.hub (hubOf r.lane)).fences.any fun f => f.1 == r.src && f.2.1 == r.rtid && f.2.2 == r.seq

/-- A queued request issues in a slot with a tag as its store entry reads; `bad`: the block creates the poison of its payload (R131 to R133,
R137, R287, R306, R343, R350, R544). DEDUCED, log entry 14. -/
def State.issueReq (s : State) (e slot t : Nat) (q : QReq) (r : Req) (bad : Bool) : State :=
  let h := q.home
  let s := s.updSl e fun sl =>
    { sl with queued := sl.queued.erase q, c0q := sl.c0q.erase q
              vtime := if q.cls ≠ 0 && before32 sl.vtime q.fin then q.fin else sl.vtime }
  let s := s.freeEntry h q
  let s := if bad then s.poisonCreated h 2 r.src (lineOf r.addr) t else s
  let s := s.bumpEpoch h t
  let far := s.servedFar h { q with req := r }
  let noLine := r.op == .agentSleep || r.op == .fence || (r.op == .wrPart && r.mask == 0)
  let x : Txn := { req := r, ten := q.ten, cls := q.cls, color := q.color, held := q.held, cost := q.cost, line := lineOf r.addr
                   want := if noLine then 0 else 1, issue := s.frame, slot := slot, far := far, madePoison := bad
                   noticed := r.op == .fence && !s.fenceOpen r }
  let s := s.count e 2 (some (q.ten, q.cls))
  let s := if q.color = .yellow then s.count e 0xA (some (q.ten, q.cls)) else s
  let s := if r.op == .atomNear || r.op == .atomFar then s.count e (if far then 0xC else 0xB) none else s
  if !noLine && s.lineBusy h x.line then
    ((s.put h t { x with st := .waiting }).joinChain h t x.line q.cls).count e 9 (some (q.ten, q.cls))
  else (s.put h t { x with locked := if noLine then 0 else 1 }).beginRun h t

/-! Aborts and replays. -/

/-- Abort a transaction for replay (R197 step 3, R198): it keeps what it has taken, the wait for the `WbDirty` that a taken answer announces
among it (R145, R147), and its epoch advances. Its watchdog starts again, from 0, when it is replayed: DESIGN CHOICE, log entry 40. -/
def State.abort (s : State) (h t : Nat) : State :=
  let s := ((s.unplan h t).bumpEpoch h t).upd h t fun x =>
    { x with st := if x.home.isSome then .home else .probing, mems := [], memDone := x.memDone && x.mems.isEmpty
             waits := x.waits.filter fun w => w.kind == .wbCross || w.kind == .wbRspI
             dirties := x.dirties.map fun d => if x.mems.any fun m => m.j == d.j && m.op != .rd then { d with written := false } else d
             waitStage := false, waitWbuf := false, probed := false, replayed := true, wdStart := none }
  s.updSl h fun sl => { sl with replayQ := sl.replayQ ++ [t] }

/-- A pipeline stage finds a header of the transaction with wrong parity (R342): an abort, and after a replay a slice fault with
CAUSE 0x2. DEDUCED, log entry 38. -/
def State.headerFail (s : State) (h t : Nat) : State :=
  let e := s.engine h
  let s := (s.incFld (oSl e 0x68) 0 8 1).raiseSl e 39 0 (BitVec.ofNat 64 t)
  let x := s.txn h t
  if 0 < x.hdrAborts then s.failSlice e 2
  else (s.upd h t fun x => { x with hdrAborts := x.hdrAborts + 1 }).abort h t

/-- A transaction that issues, resumes or is replayed passes the pipeline, where a later stage may find its header's parity wrong (R342);
one that has joined a chain has left it. -/
def State.passHeader (s : State) (fails : Bool) (h t : Nat) : State :=
  if fails && (s.txn h t).st != .free && (s.txn h t).st != .waiting then s.headerFail h t else s

/-- A transaction with what its frame P finds in the filter (R137, R182). -/
def State.seenAtP (s : State) (h : Nat) (x : Txn) : Txn :=
  if x.home.isSome then { x with known := s.homeKnown h { x with loc := (s.homePlace h x).2 } } else s.knownAtP h x

/-- The checks of a frame P that come before the weir's next choice (R151, R250, R289): every lock holder whose frame P is this one absorbs the
queued, held and waiting `WbDirty` requests of the owner that its record names, as far as the records of the frame allow (R388). -/
def State.absorbDue (s : State) (e : Nat) : State :=
  (s.agenda.filter fun d => d.act == .probe && d.frame ≤ s.frame && s.engine d.slice == e).foldl (fun s d =>
    let h := d.slice
    let x := s.txn h d.tag
    if !s.tagOpen h d.tag || x.st == .free || x.st == .waiting || x.probed then s
    else s.recordedFor h d.tag (foldSt (List.range x.want) (fun s j =>
      s.absorbQueued h d.tag (x.lineAt j) fun s a => s.namesOwner (s.seenAtP h (s.txn h d.tag)) j a) s)) s

/-- What an engine checks before each choice of its weir (R289, R324). DEDUCED, log entry 11. -/
def State.beforeSlot (s : State) (e : Nat) : State := (s.absorbDue e).mergeAll e

/-- SLOT_ISSUE: the weir issues a request in a slot (R137, R286, R342, R343). -/
def execSlotIssue (p : Pass) (slot : Nat) (store : StoreRead) (s : State) : Outcome :=
  let e := p.slice
  live s <| need (e < s.nSlices && slot < 16) <|
  if !s.slotFree e slot then .next s
  else
    let m := s.beforeSlot e
    match m.pick e slot with
    | .head q t | .c0 q t =>
      let m := m.useSlot e slot
      match m.readStore q store with
      | (n, none) => .next (n.headerGone e q)
      | (n, some (r, bad)) => .next (m.recorded (q.cls == 0) ((n.issueReq e slot t q r bad).passHeader p.hdrFail q.home t))
    | _ => .next m

/-- WAITER_RESUME: a request waiter whose line was released to it resumes in a slot (R135, R255, R257, R286, R342). -/
def execWaiterResume (p : Pass) (slot : Nat) (s : State) : Outcome :=
  let e := p.slice
  live s <| need (e < s.nSlices && slot < 16) <|
  if !s.slotFree e slot then .next s
  else
    let m := s.beforeSlot e
    match m.pick e slot with
    | .resume h t =>
      let x := m.txn h t
      let m := m.useSlot e slot
      let n := (m.count e 2 (some (x.ten, x.cls))).leaveChain h t x.line
      let n := (n.upd h t fun x => { x with locked := 1, resumeAt := none }).beginRun h t
      .next (m.recorded (x.cls == 0) (n.passHeader p.hdrFail h t))
    | _ => .next m

/-- A home-account transaction issues (R128, R182, R342). -/
def State.homeIssue (s : State) (hdrFail : Bool) (h : Nat) (kind : HomeKind) (line : LineAddr) (want : Nat) (loc : Option Loc) : State :=
  match s.homeTag h with
  | none => s
  | some t => (s.startHome h kind line want loc).passHeader hdrFail h t

/-- HOME_WAITER_RESUME: a home-account waiter holds the line released to it and goes on with the next (R588). The count of those placed
ahead of it, and its promotion (R193), go with it to that line's chain: DESIGN CHOICE, log entry 40. -/
def execHomeWaiterResume (p : Pass) (t : Nat) (s : State) : Outcome :=
  let h := p.slice
  live s <| need (h < s.nSlices && t < 1024) <|
  let x := s.txn h t
  let e := s.engine h
  match x.home with
  | none => .next s
  | some k =>
    when' (x.homeReady s.frame && s.rangeOpen h && s.selvTurn h (.waiter t k.rank)) s <|
      let s0 := s.useSelvedge e
      let l := x.lineAt x.locked
      let s := (s0.leaveChain h t l).upd h t fun x => { x with st := .home, locked := x.locked + 1, resumeAt := none }
      s0.recorded false ((s.takeLines h t 5).passHeader p.hdrFail h t)

/-- SPILLWAY_ISSUE: the oldest staged entry whose set has a victim starts its spillway transaction (R180, R182, R225). -/
def execSpillwayIssue (p : Pass) (s : State) : Outcome :=
  let h := p.slice
  live s <| need (h < s.nSlices) <|
  let e := s.engine h
  match s.spillNext h with
  | none => .next s
  | some (i, l) =>
    when' (s.inService && s.rangeOpen h && s.filtered h && (s.homeTag h).isSome && s.selvTurn h (.spill i)) s <|
      let s := s.useSelvedge e
      s.recorded false ((s.updSl h fun sl => { sl with spillQ := sl.spillQ.filter fun j => j != i }).homeIssue
        p.hdrFail h (.spill i) (lineIn (s.sectorAt h l) 0) 4 (some l))

/-- The recovery of an orphaned entry starts: it is counted once, and raises its event with the first line and the home tag of its first
candidate (R359, R539). DEDUCED, log entry 17. -/
def State.orphanStart (s : State) (h : Nat) (l : Loc) (cs : List SectorAddr) : State :=
  let e := s.engine h
  let x := (cs.head?).getD (s.sectorAt h l)
  let s := (s.incFld (oSl e 0x78) 16 8 1).raiseSl e 38 0 (lineDetail (lineIn x 0) 0 ((s.orphanTag cs).getD 0))
  (s.updSl h fun sl => { sl with orphans := sl.orphans.tail, maint := { sl.maint with again := true } }).readLines h l

/-- ORPHAN_RECOVERY: the oldest orphaned entry starts its recovery on its first candidate, or goes on with one for which no home tag was
free (R359 to R362). -/
def execOrphanRecovery (p : Pass) (s : State) : Outcome :=
  let h := p.slice
  live s <| need (h < s.nSlices) <|
  match s.nextOrphan h with
  | none => .next s
  | some (l, cs, start) =>
    when' (s.inService && s.rangeOpen h && s.orphanReady h && s.selvTurn h (.orphan l)) s <|
      let s0 := s.useSelvedge (s.engine h)
      let s := if start then s0.orphanStart h l cs else s0.updSl h fun sl => { sl with orphanRest := sl.orphanRest.tail }
      match cs with
      | [] => s.orphanEnd h l
      | c :: cs => s0.recorded false (s.homeIssue p.hdrFail (s.hash (wireOf (lineIn c 0))) (.orphan h cs) (lineIn c 0) 4 (some l))

/-- Start the replay of an aborted transaction (R197 step 4). -/
def State.replay (s : State) (h t : Nat) : State :=
  let x := s.txn h t
  if x.home.isSome then
    (s.upd h t fun x => { x with wdStart := some s.frame, wdSkip := 0 }).plan (s.frame + 1) h t .probe
  else s.beginRun h t

/-- REPLAY_ISSUE: an aborted transaction is replayed from PROBING in the selvedge slot (R197, R530). -/
def execReplayIssue (h : Nat) (hdrFail : Bool) (s : State) : Outcome :=
  live s <| need (h < s.nSlices) <|
  let e := s.engine h
  match (s.sl h).replayQ with
  | [] => .next s
  | t :: rest =>
    when' (s.inService && s.rangeOpen h && s.selvTurn h (.replay t)) s <|
      let s := s.useSelvedge e
      s.recordedFor h t (((s.updSl h fun sl => { sl with replayQ := rest }).replay h t).passHeader hdrFail h t)

/-! The waits at the end of a flow (R181, R213, R262, R263). -/

/-- A transaction that waited writes its record now, and completes in the next frame; a stream write completes at once (R181, R213,
R329). -/
def State.obtained (s : State) (h t : Nat) : State :=
  let x := s.txn h t
  match s.recordDone h t with
  | (false, _) => s
  | (true, s) =>
    let s := s.upd h t fun x => { x with waitStage := false, waitWbuf := false }
    if x.home.isNone && x.req.op = .wrStream && !x.reqLost then s.complete h t 0 false
    else if x.near && !x.reqLost then s.upd h t fun x => { x with dAt := s.frame }
    else s.plan (s.frame + 1) h t .act

/-- STAGE_ENTRY_OBTAIN: in a later frame, a transaction that waits for a stage entry obtains one (R181, R262). -/
def execStageEntryObtain (h t : Nat) (s : State) : Outcome :=
  live s <| need (h < s.nSlices && t < 1024) <|
  when' ((s.txn h t).waitStage && (s.txn h t).waitAt < s.frame && s.tagOpen h t) s (s.recordedFor h t (s.obtained h t))

/-- EVGAN_WRITE_ENTER: in a later frame, a record write that found the write buffer full enters it; the transaction ends in the frame after
(R213, R263). -/
def execEvganWriteEnter (h t : Nat) (s : State) : Outcome :=
  live s <| need (h < s.nSlices && t < 1024) <|
  let x := s.txn h t
  let own := if x.home.isSome then (s.homePlace h x).1 else h
  when' (x.waitWbuf && x.waitAt < s.frame && s.tagOpen h t && s.wbufRoom own (if x.home.isSome then 3 else x.cls)) s <|
    s.recordedFor h t (if x.home.isSome then (s.homeRecord h t).plan (s.frame + 1) h t .act else s.obtained h t)

/-- EVGAN_WRITE_DRAIN: the oldest buffered write drains into the array within the budget (R213, R236); the flip mask meets it here
(R378). -/
def execEvganWriteDrain (h : Nat) (s : State) : Outcome :=
  live s <| need (h < s.nSlices) <|
  match (s.sl h).wbuf with
  | [] => .next s
  | w :: rest =>
    when' (s.inService && w.2.2 < s.frame && s.drainRoom h) s <|
      let row := w.1 / 16
      let bank := if row < Config.evganSets then 4 + row / 2048
        else 4 + (s.fld (oSl h (0x400 + 8 * (row - Config.evganSets))) 4 14) / 2048
      let (word, s) := s.flipWord h bank w.2.1
      (s.useLate h 1).updSl h fun sl => { sl with wbuf := rest, evgan := tputD 0 w.1 word sl.evgan }

/-! The merge buffer. -/

/-- A timer expires at the end of this frame, after what arrives and issues in it (R14, R161). -/
def State.expireAt (s : State) (x : Expiry) : State := if s.expired.contains x then s else { s with expired := s.expired ++ [x] }

/-- MERGE_ENTRY_TAKE: a `WrPart` that found no merge entry takes one and opens its window (R322, R323); one whose probe a takeover dropped is
probed in the frame after (R411). -/
def execMergeEntryTake (h t : Nat) (s : State) : Outcome :=
  live s <| need (h < s.nSlices && t < 1024) <|
  let x := s.txn h t
  when' (x.gathers && x.locked = 1 && x.st != .free && x.st != .waiting && x.merge.isNone && !x.cmpSent && !x.memDone &&
      s.tagOpen h t && (s.mergeFree h false).isSome) s <|
    s.recordedFor h t <|
      let s := (s.takeMerge h t).upd h t fun x => { x with st := if x.probed then x.stNow else .probing }
      if x.probed || s.agenda.any (fun d => d.slice == h && d.tag == t && d.act == .probe) then s else s.plan (s.frame + 1) h t .probe

/-- GATHER_WINDOW_CLOSE: the gather window of a `WrPart` closes at the end of this frame (R161, R323). -/
def execGatherWindowClose (h t : Nat) (s : State) : Outcome :=
  live s <| need (h < s.nSlices && t < 1024) <|
  let x := s.txn h t
  match x.window with
  | none => .next s
  | some f =>
    when' (f ≤ s.frame && !x.winClosed && x.st != .free && s.tagOpen h t) s (s.expireAt (.window h t))

/-- The window of a `WrPart` closes (R323). -/
def State.closeWindow (s : State) (h t : Nat) : State :=
  let x := s.txn h t
  match x.window with
  | none => s
  | some f =>
    if f ≤ s.frame && !x.winClosed && x.st != .free then (s.upd h t fun x => { x with winClosed := true }).settle h t else s

/-! The ALU. -/

/-- The new value of an operation on a field of `w` bits (R298). -/
def aluOp (atop w : Nat) (v op swap : BitVec 64) : BitVec 64 :=
  let m := v.setWidth w
  let o := op.setWidth w
  let n : BitVec w := match atop with
    | 0 => m + o | 1 => m &&& o | 2 => m ||| o | 3 => m ^^^ o | 4 => o
    | 5 => if m = o then swap.setWidth w else m
    | 6 => if m.slt o then m else o
    | 7 => if m.slt o then o else m
    | 8 => if m.ult o then m else o
    | _ => if m.ult o then o else m
  n.setWidth 64

/-- The field of an atomic in a line: `w` bits at byte offset `off`. -/
def aluField (d : Line) (off w : Nat) : BitVec 64 := (bits d (8 * off) w).setWidth 64

/-- The line with the field replaced. -/
def aluStore (d : Line) (off w : Nat) (n : BitVec 64) : Line := setBits d (8 * off) w (n.setWidth w)

/-- A near atomic's fall falls due (R311): it sent no snoop, and its line's chain is empty. -/
def State.fallDue (s : State) (h : Nat) (x : Txn) : State :=
  if !x.snooped && (s.chain h x.line).isEmpty then s.updSl h fun sl => { sl with falls := sl.falls ++ [x.line] } else s

/-- A merge entry is read (R343, R378): the data bits that its decoder inverts, and the poison of an uncorrectable one, which the block
creates (R350, R351). DEDUCED, log entry 38. -/
def State.readMerge (s : State) (h i : Nat) : State :=
  let m := s.mergeAt h i
  if m.flip = 0 then s
  else
    let bad : Bool := decodeFlip m.flip == .bad
    let s := s.readFlip h 14 i m.flip
    let s := if bad then (s.poisonCreated h 2 (s.txn h m.tag).req.src m.line m.tag).upd h m.tag fun x => { x with madePoison := true } else s
    s.updSl h fun sl => { sl with merges := tput i { m with flip := 0, data := m.data ^^^ (flipData m.flip).setWidth 512, poison := m.poison || bad } sl.merges }

/-- The near atomic executes (R302 to R304): its write, if any, is staged in a merge entry. -/
def State.aluRun (s : State) (h t : Nat) (d : Line) : State :=
  let x := s.txn h t
  let w := if x.req.asize = 1 then 64 else 32
  let v := aluField d x.req.aoff w
  let n := aluOp x.req.atop w v x.req.operand x.req.swap
  let s := (s.fallDue h x).incFld (oSl (s.engine h) 0x58) 0 24 1
  let s := if n = v then s else
    match s.mergeFree h true with
    | none => s
    | some i =>
      let d := aluStore d x.req.aoff w n
      let m : Merge := { used := true, tag := t, line := x.line, data := d, mask := BitVec.allOnes 64, staged := true, ep := s.epoch h t }
      let s := (s.setMerge h i m).readMerge h i
      s.sendMem h t .wr 0 (s.mergeAt h i).data (s.mergeAt h i).poison false
  s.complete h t v false

/-- A near atomic can execute now, but for its merge entry: its line and answers were taken in an earlier frame (R302). -/
def State.aluReady (s : State) (h t : Nat) : Bool :=
  let x := s.txn h t
  x.st == .alu && x.dAt < s.frame && !x.cmpSent && !x.waitStage && !x.waitWbuf && s.tagOpen h t && !s.stagedLine h x.line

/-- ALU_EXECUTE: a near atomic whose line and answers are taken executes at home, or answers a poisoned line or operand with poison
(R302 to R304, R343). DEDUCED, log entry 38. -/
def execAluExecute (h t : Nat) (s : State) : Outcome :=
  live s <| need (h < s.nSlices && t < 1024) <|
  if !s.aluReady h t then .next s
  else
    let s := s.readBuffers h t
    let x := s.txn h t
    match x.memData with
    | none => .next s
    | some (d, p) =>
      let poison := p || x.req.poison
      if !poison && (s.mergeFree h true).isNone then .next s
      else match s.recordDone h t with
        | (false, s) => .next s
        | (true, r) => .next (s.recordedFor h t
            (if poison then ((r.fallDue h x).incFld (oSl (r.engine h) 0x58) 0 24 1).complete h t 0 true else r.aluRun h t d))

/-! The watchdog. -/

/-- LIMIT in force, in frames (R195, R197). -/
def State.wdLimit (s : State) : Nat := 16 * max 16 (s.fld oProgress 0 12)

/-- The watchdog's count of a transaction, the frame of the lock and this one among it (R195). -/
def State.wdCount (s : State) (x : Txn) : Option Nat := x.wdStart.map fun f => s.frame + 1 - f - x.wdSkip

/-- The watchdog of a transaction has reached its limit (R195, R197). -/
def State.wdDue (s : State) (h t : Nat) : Bool :=
  let x := s.txn h t
  (match s.wdCount x with | some n => s.wdLimit ≤ n | none => false) &&
    x.st != .free && x.st != .waiting && x.home != some .sweep && s.tagOpen h t

/-- WATCHDOG_FIRE: a transaction's watchdog reaches its limit at the end of this frame (R161, R197, R199). -/
def execWatchdogFire (h t : Nat) (s : State) : Outcome :=
  live s <| need (h < s.nSlices && t < 1024) <| when' (s.wdDue h t) s (s.expireAt (.watchdog h t))

/-- A watchdog fires (R197, R199). -/
def State.watchdog (s : State) (h t : Nat) : State :=
  if !s.wdDue h t then s
  else
    let x := s.txn h t
    let e := s.engine h
    let o := oSl e 0x10
    let s := ((s.incFld o 0 8 1).noteFld o 8 10 t).noteFld o 18 4 x.st.code
    let s := s.raiseSl e 34 0 (lineDetail x.line x.req.src t)
    if x.cmpSent then (s.upd h t fun x => { x with wdStart := none }).plan s.frame h t .release
    else if x.wdFired then s.failSlice e 1
    else (s.upd h t fun x => { x with wdFired := true }).abort h t

end Sys2Proof.Machine
end

