-- ==== Sys2Proof/Machine/Network.lean ====
section
/-! DEFINITION. The internal network (R185, R460 to R477, R482, R483): routers and their places, destinations and routes, network
flits, and the routers' buffers, credits, worms and arbitration, which move the flits of a frame hclk by hclk at its end. -/

namespace Sys2Proof.Machine

/-- The column and the row of a router (R461, R462). -/
def routerAt (r : Nat) : Nat × Nat :=
  if r < 16 then (r % 8 + 1, 1 + r / 8)
  else match r with
    | 16 => (0, 1) | 17 => (0, 2) | 18 => (2, 0) | 19 => (7, 0) | 20 => (9, 1) | 21 => (9, 2) | 22 => (2, 3) | _ => (7, 3)

/-- The slice router that an edge router attaches to (R462). -/
def attachedTo (r : Nat) : Nat :=
  match r with
  | 16 => 0 | 17 => 8 | 18 => 1 | 19 => 6 | 20 => 7 | 21 => 15 | 22 => 9 | _ => 14

/-- The slice router at a column and a row (R461). -/
def sliceRouter (x y : Nat) : Nat := 8 * (y - 1) + (x - 1)

/-- The edge router and the DPORT of an agent port, a hub's lane or a memory port (R462). -/
def Port.place : Port → Nat × Nat
  | .agent a => if a < 16 then (16 + a / 2, a % 2) else (16 + 2 * ((a - 16) / 2), 3)
  | .nc hub => (16 + 2 * hub, 4)
  | .mem p => (16 + 2 * (p / 3) + (if p % 3 = 0 then 0 else 1), if p % 3 = 2 then 3 else 2)

/-- The edge router and the DPORT of a lane of a port (R462). -/
def lanePlace (l : Nat) : Nat × Nat := if isNcLane l then (Port.nc (hubOf l)).place else (Port.agent l).place

/-- A DPORT that is defined at a router (R462, R476). -/
def dportOk (r d : Nat) : Bool := if r < 16 then d == 0 else if r % 2 = 0 then d < 5 else d < 4

/-- The logical slice of a request: of its line, or the one that R333 and R440 give. -/
def State.homeOf (s : State) (r : Req) : Nat :=
  match r.op with
  | .agentSleep | .fence => r.src % s.nSlices
  | _ => s.hash r.addr

/-- The columns or rows from one to another, both included. -/
def steps (a b : Nat) : List Nat :=
  if a ≤ b then (List.range (b + 1 - a)).map fun i => a + i else (List.range (a + 1 - b)).map fun i => a - i

/-- The slice routers from one to another: in x to the column, then in y to the row (R467). -/
def sliceRoute (a b : Nat) : List Nat :=
  let (xa, ya) := routerAt a
  let (xb, yb) := routerAt b
  (steps xa xb).map (fun x => sliceRouter x ya) ++ (if ya = yb then [] else [sliceRouter xb yb])

/-- The routers that a packet crosses from its source to its destination, one of which is an edge router (R465, R467). -/
def route (src dst : Nat) : List Nat :=
  if 16 ≤ src then src :: sliceRoute (attachedTo src) dst else sliceRoute src (attachedTo dst) ++ [dst]

/-- The port of a router through which a packet goes on to its destination (R467): a neighbor, or 32 more than a DPORT. -/
def hop (r dest dport : Nat) : Nat :=
  if r = dest then 32 + dport
  else if 16 ≤ r then attachedTo r
  else
    let d := if 16 ≤ dest then attachedTo dest else dest
    if r = d then dest
    else
      let (x, y) := routerAt r
      let (u, v) := routerAt d
      if x < u then sliceRouter (x + 1) y else if u < x then sliceRouter (x - 1) y else sliceRouter x v

/-- A link joins two routers (R461, R462). -/
def linked (a b : Nat) : Bool :=
  if 16 ≤ a then b < 16 && attachedTo a == b
  else if 16 ≤ b then attachedTo b == a
  else (a / 8 == b / 8 && (a + 1 == b || b + 1 == a)) || (a % 8 == b % 8 && a / 8 != b / 8)

/-- The hclk from the port's bridge, or from the slice, to the tail's arrival when nothing is in the way: the checks at a port, two for
each router crossed, and one for each flit behind the head (R477). -/
def crossing (src dst flits : Nat) : Nat := (if 16 ≤ src then 2 else 0) + 2 * (route src dst).length + (flits - 1)

/-! Network flits (R474). -/

/-- The sideband of a network flit (R474): PAR is carried unchanged (R475), DEST, DPORT and PRI stand in the head flit only, and SPAR
makes the XOR of bits [15:4] equal 0. -/
def sideband (par : Par) (head tail : Bool) (dest dport : Nat) (pri : Bool) : BitVec 16 :=
  let h : BitVec 16 := if head then (BitVec.ofNat 5 dest).setWidth 16 <<< 6 ||| (BitVec.ofNat 3 dport).setWidth 16 <<< 11 |||
    (b1 pri).setWidth 16 <<< 14 else 0
  let v : BitVec 16 := par.setWidth 16 ||| (b1 head).setWidth 16 <<< 4 ||| (b1 tail).setWidth 16 <<< 5 ||| h
  v ||| (b1 (xorBits (bits v 4 11) 11)).setWidth 16 <<< 15

/-- The network flits of a message toward a destination: each payload with its sideband, and its PAR unchanged (R474, R475). -/
def packet (l : List (Flit × Par)) (dst : Nat × Nat) (pri : Bool) : List (Flit × BitVec 16) :=
  l.zipIdx.map fun p => (p.1.1, sideband p.1.2 (p.2 == 0) (p.2 + 1 == l.length) dst.1 dst.2 pri)

/-- HEAD, TAIL, DEST, DPORT and PRI of a flit (R474). -/
def NetFlit.head (f : NetFlit) : Bool := f.side.getLsbD 4
@[inherit_doc NetFlit.head] def NetFlit.tail (f : NetFlit) : Bool := f.side.getLsbD 5
@[inherit_doc NetFlit.head] def NetFlit.dest (f : NetFlit) : Nat := (bits f.side 6 5).toNat
@[inherit_doc NetFlit.head] def NetFlit.dport (f : NetFlit) : Nat := (bits f.side 11 3).toNat
@[inherit_doc NetFlit.head] def NetFlit.pri (f : NetFlit) : Bool := f.side.getLsbD 14

/-- What a router checks of a flit that it receives (R475, R476). -/
def NetFlit.ok (f : NetFlit) : Bool :=
  parOf f.flit == bits f.side 0 4 && !xorBits (bits f.side 4 12) 12 && (!f.head || (f.dest < 24 && dportOk f.dest f.dport))

/-! Lanes (R469 to R473). -/

/-- The number of a lane of a router at a port; its router, port and virtual channel. -/
def laneKey (r port vc : Nat) : Nat := (64 * r + port) * 4 + vc
@[inherit_doc laneKey] def kRouter (k : Nat) : Nat := k / 256
@[inherit_doc laneKey] def kPort (k : Nat) : Nat := k / 4 % 64
@[inherit_doc laneKey] def kVc (k : Nat) : Nat := k % 4

/-- The depth of an input buffer (R470). -/
def bufDepth (vc : Nat) : Nat := match vc with | 0 => 8 | 1 | 2 => 4 | _ => 10

/-- Put a flit at the end of a buffer; take the first out. -/
def pushFlit (t : Tbl (List NetFlit)) (k : Nat) (f : NetFlit) : Tbl (List NetFlit) := tput k (tget [] t k ++ [f]) t
@[inherit_doc pushFlit] def popFlit (t : Tbl (List NetFlit)) (k : Nat) : Tbl (List NetFlit) := tputD [] k (tget [] t k).tail t

/-- The buffers whose first flit has entered before an hclk, with that flit. -/
def fronts (t : Tbl (List NetFlit)) (c : Nat) : List (Nat × NetFlit) :=
  t.filterMap fun p => match p.2 with | f :: _ => if f.since < c then some (p.1, f) else none | [] => none

/-- The input lane has a credit for a flit, and takes heads if it is one (R470, R483). A credit that a flit gives back as it leaves is
back an hclk later, since the moves of an hclk are all found in the state before it. -/
def Net.accepts (n : Net) (shut : Nat → Bool) (k : Nat) (f : NetFlit) : Bool :=
  (tget [] n.bufs k).length < bufDepth (kVc k) && !(f.head && shut k)

/-- The port where the first flit of an input lane goes: that of its worm, or its own (R467, R471). -/
def Net.outOf (n : Net) (k : Nat) (f : NetFlit) : Nat :=
  match n.worms.find? fun p => p.1 == k with | some p => p.2 | none => hop (kRouter k) f.dest f.dport

/-- There is room behind an output lane (R470, R473): the slice's ingress takes every flit, an egress buffer 64. -/
def Net.room (n : Net) (shut : Nat → Bool) (k o : Nat) (f : NetFlit) : Bool :=
  if o < 32 then n.accepts shut (laneKey o (kRouter k) (kVc k)) f
  else kRouter k < 16 || (tget [] n.egress (laneKey (kRouter k) o (kVc k))).length < 64

/-- Two input lanes want the same output lane. -/
def sameOut (a b : Nat × Nat × NetFlit) : Bool := kRouter a.1 == kRouter b.1 && kVc a.1 == kVc b.1 && a.2.1 == b.2.1

/-- The round robin of an output lane for heads with PRI, or for the others. -/
def turnKey (w : Nat × Nat × NetFlit) : Nat := 2 * laneKey (kRouter w.1) w.2.1 (kVc w.1) + (if w.2.2.pri then 1 else 0)

/-- The place of a head in the choice of R471: PRI first, then from where the round robin goes on. -/
def Net.turn (n : Net) (w : Nat × Nat × NetFlit) : Nat :=
  (if w.2.2.pri then 0 else 64) + (kPort w.1 + 64 - tget 0 n.turns (turnKey w)) % 64

/-- The flits of a packet toward an agent that are still inside the block. -/
def Net.holds (n : Net) (p : NetFlit → Bool) : Bool :=
  (n.source ++ n.bufs ++ n.egress ++ n.bridge).any fun q => q.2.any p

/-- A flit may take its output lane (R471): its worm holds it, or it is the head chosen for a lane that no worm holds. -/
def Net.wins (n : Net) (ws : List (Nat × Nat × NetFlit)) (w : Nat × Nat × NetFlit) : Bool :=
  thas n.worms w.1 ||
  (w.2.2.head && !(n.worms.any fun p => kRouter p.1 == kRouter w.1 && kVc p.1 == kVc w.1 && p.2 == w.2.1) &&
    ws.all fun v => !(v.2.2.head && sameOut v w) || n.turn w ≤ n.turn v)

/-- The flits that move in an hclk: the input lane, the port, and the flit. -/
def Net.moves (n : Net) (shut : Nat → Bool) (c : Nat) : List (Nat × Nat × NetFlit) :=
  let ws := ((fronts n.bufs c).map fun p => (p.1, n.outOf p.1 p.2, p.2)).filter fun w => n.room shut w.1 w.2.1 w.2.2
  ws.filter fun w => n.wins ws w

/-- What an hclk has done: the network, the refusals of bad flits (both routers, and how many in a row), the packets whose tails reached a
slice, and the routers of which every lane has changed mode (R483), with the hclk. -/
structure NetStep where
  net     : Net
  refused : List (Nat × Nat × Nat) := []
  tails   : List Nat := []
  changed : List (Nat × Nat) := []
  deriving DecidableEq, Repr

/-- A flit moves in hclk `c` (R339, R470, R471, R473, R477): it enters the next buffer 2 hclk after it entered this one at the earliest, and
a refused one is sent again 4 hclk later. -/
def NetStep.move (x : NetStep) (c : Nat) (w : Nat × Nat × NetFlit) : NetStep :=
  let (k, o, f) := w
  let n := x.net
  let r := kRouter k
  let hold (n : Net) (g : NetFlit) : Net := { n with bufs := tput k (g :: (tget [] n.bufs k).tail) n.bufs }
  if o < 32 && !f.ok then
    let g := { f with since := c + 3, tries := f.tries + 1 }
    { x with net := hold n g, refused := x.refused ++ [(r, o, g.tries)] }
  else if n.refuse.contains (r, o) then
    { x with net := hold { n with refuse := n.refuse.erase (r, o) } { f with since := c + 3 } }
  else
    let g := { f with since := c + 1, tries := 0 }
    let n := { n with bufs := popFlit n.bufs k
                      worms := if f.tail then tdel k n.worms else tput k o n.worms
                      turns := if f.head then tput (turnKey w) ((kPort k + 1) % 64) n.turns else n.turns }
    if o < 32 then { x with net := { n with bufs := pushFlit n.bufs (laneKey o r (kVc k)) g } }
    else if r < 16 then { x with net := n, tails := if f.tail then x.tails ++ [f.id] else x.tails }
    else { x with net := { n with egress := pushFlit n.egress (laneKey r o (kVc k)) g } }

/-- The flits that enter the network in an hclk. -/
def Net.enters (n : Net) (shut : Nat → Bool) (c : Nat) : List (Nat × NetFlit) :=
  (fronts n.source (c + 1)).filter fun p => n.accepts shut p.1 p.2

/-- A flit of an egress buffer goes on into its lane's buffer of the port's bridge, which holds 8 (R473, R478); the `CmpGo` of a sleep only
after every flit that entered the port's egress before it (R441). DESIGN CHOICE, log entry 37. -/
def Net.leaves (n : Net) (c : Nat) : List (Nat × NetFlit) :=
  (fronts n.egress (c + 1)).filter fun p =>
    (tget [] n.bridge p.1).length < 8 &&
    !(p.2.last && (n.egress ++ n.bridge).any fun q => q.1 != p.1 && q.1 / 4 == p.1 / 4 && q.2.any fun g => g.since ≤ p.2.since)

/-- A flit of a bridge's buffer goes out on the port's link, unless the link is paused (R473, R478). DESIGN CHOICE, log entry 37. -/
def Net.departs (n : Net) (c : Nat) : List (Nat × NetFlit) :=
  (fronts n.bridge (c + 1)).filter fun p => !(n.paused.contains (8 * kRouter p.1 + (kPort p.1 - 32)))

/-- The number of an input of a slice router: its slice, the routers at its sides, the other row, and the attachment. -/
def inputNo (r port : Nat) : Nat :=
  if 32 ≤ port then 0 else if 16 ≤ port then 4 else if port + 1 = r then 1 else if port = r + 1 then 2 else 3

/-- The lane of a router that an input number and a virtual channel name, if the router has that input. -/
def laneOf (r l : Nat) : Option Nat :=
  ((32 :: List.range 24).find? fun p => (p == 32 || linked r p) && inputNo r p == l / 4).map fun p => laneKey r p (l % 4)

/-- A lane takes no new heads: it is still changing mode, or it comes from the slice of a router in bypass (R482, R483). -/
def Net.shut (n : Net) (bypass : Nat → Bool) (k : Nat) : Bool :=
  let r := kRouter k
  r < 16 && ((tget [] n.changing r).contains (4 * inputNo r (kPort k) + kVc k) || (kPort k == 32 && bypass r))

/-- A lane of a slice router holds no flit. -/
def Net.laneEmpty (n : Net) (r l : Nat) : Bool := match laneOf r l with | some k => (tget [] n.bufs k).isEmpty | none => true

/-- Lanes of a router have changed mode in an hclk (R483). -/
def NetStep.changeLanes (x : NetStep) (c r : Nat) (gone : Nat → Bool) : NetStep :=
  let lanes := tget [] x.net.changing r
  let rest := lanes.filter fun l => !gone l
  { x with net := { x.net with changing := tputD [] r rest x.net.changing }
           changed := if rest.isEmpty && !lanes.isEmpty then x.changed ++ [(r, c)] else x.changed }

/-- One hclk of the network (R469), of the virtual channels that satisfy `vc`. DESIGN CHOICE, log entry 37. -/
def NetStep.hclk (bypass : Nat → Bool) (vc : Nat → Bool) (x : NetStep) (c : Nat) : NetStep :=
  let n := x.net
  let y := ((n.moves (n.shut bypass) c).filter fun w => vc (kVc w.1)).foldl (fun y w => y.move c w) x
  let y := ((n.enters (n.shut bypass) c).filter fun p => vc (kVc p.1)).foldl (fun (y : NetStep) p =>
    { y with net := { y.net with source := popFlit y.net.source p.1, bufs := pushFlit y.net.bufs p.1 { p.2 with since := c } } }) y
  let y := ((n.leaves c).filter fun p => vc (kVc p.1)).foldl (fun (y : NetStep) p =>
    { y with net := { y.net with egress := popFlit y.net.egress p.1, bridge := pushFlit y.net.bridge p.1 { p.2 with since := c + 1 } } }) y
  let y := ((n.departs c).filter fun p => vc (kVc p.1)).foldl (fun (y : NetStep) p => { y with net := { y.net with bridge := popFlit y.net.bridge p.1 } }) y
  n.changing.foldl (fun y p => y.changeLanes c p.1 fun l => n.laneEmpty p.1 l) y

/-- No flit is in the network, and no router is changing. -/
def Net.quiet (n : Net) : Bool := n.source.isEmpty && n.bufs.isEmpty && n.egress.isEmpty && n.bridge.isEmpty && n.changing.isEmpty

/-- The packets on VC0 that have not reached their slices by the end of the frame after their injection go on until they have (R253).
DESIGN CHOICE, log entry 37. -/
def NetStep.rush (bypass : Nat → Bool) (due : List Nat) (x : NetStep) (c : Nat) : Nat → NetStep
  | 0 => x
  | n + 1 => if due.all fun i => x.tails.contains i then x else (x.hclk bypass (fun v => v == 0) c).rush bypass due (c + 1) n

/-! The network in the state. -/

/-- A flit is refused on a hop for the `n`th time in a row: the eighth is a hard network fault (R339, R340). -/
def State.hopRefused (s : State) (src dst n : Nat) : State :=
  let s := s.incFld oNetInteg 0 32 1
  let s := { s with routers := { s.routers with refused := tputD 0 (32 * src + dst) (if n = 8 then 0 else n) s.routers.refused } }
  if n = 8 then
    let d := BitVec.ofNat 64 src ||| (BitVec.ofNat 64 dst <<< 5)
    let s := ((s.setFld oNetInteg 32 5 src).setFld oNetInteg 37 5 dst).setFlag oNetInteg 42 true
    (s.raise 24 0 d).faultDue (1152 + 24) 0 d
  else s

/-- Give a packet to the network at a place, from an hclk of this frame on. -/
def State.give (s : State) (src : Nat × Nat) (l : List (Flit × BitVec 16)) (hclk : Nat) (f : NetFlit → NetFlit) : State :=
  let vc := match l with | p :: _ => (bits p.1 4 2).toNat | [] => 0
  let k := laneKey src.1 (32 + src.2) vc
  let fs := l.map fun p => f { flit := p.1, side := p.2, since := 32 * s.frame + hclk }
  { s with routers := { s.routers with source := tput k (tget [] s.routers.source k ++ fs) s.routers.source } }

/-- The flits of an answer; of a `MemData` whose payload fails parity, which its slice is to see (R344), with a parity that the routers pass.
DESIGN CHOICE, log entry 37. -/
def Answer.flits : Answer → List (Flit × Par)
  | .response _ a => a.flits
  | .memData m | .memCmp m => m.flits.map fun p => (p.1, parOf p.1)

/-- The logical slice and the tag that an answer names (R73, R117). -/
def Answer.slice : Answer → Nat
  | .response _ a => rHslice (headOf a.flits)
  | .memData m | .memCmp m => mHslice (headOf m.flits)
@[inherit_doc Answer.slice] def Answer.tag : Answer → Nat
  | .response _ a => rHtid (headOf a.flits)
  | .memData m | .memCmp m => mHtid (headOf m.flits)

/-- The packet of a request taken at a port, and of an answer (R466, R472, R475): its number, its place, and its flits. -/
def NetReq.packet (n : NetReq) : Nat × (Nat × Nat) × List (Flit × BitVec 16) :=
  let l := if n.req.flits.isEmpty then [(n.req.hdr, parOf n.req.hdr)] else n.req.flits
  (n.id, lanePlace n.req.lane, Sys2Proof.Machine.packet l (n.dest, 0) (n.req.op != .wbDirty && n.req.cls == 0))
@[inherit_doc NetReq.packet] def State.answerPacket (s : State) (n : Inbound) : Nat × (Nat × Nat) × List (Flit × BitVec 16) :=
  (n.id, n.place, packet n.msg.flits (n.dest, 0) (s.isC0 n.msg.slice n.msg.tag))

/-- What the ports have taken in this frame enters the network after its checks, in the order of arrival (R466, R468, R477).
DESIGN CHOICE, log entry 37. -/
def State.giveArrivals (s : State) : State :=
  let new := ((s.net.filter fun n => !n.sent).map NetReq.packet) ++ ((s.inbound.filter fun n => !n.sent).map s.answerPacket)
  let s := (new.foldl (fun l p => insertBy (fun a b => a.1 < b.1) p l) []).foldl (fun s p => s.give p.2.1 p.2.2 2 fun f => { f with id := p.1 }) s
  { s with net := s.net.map (fun n => { n with sent := true }), inbound := s.inbound.map fun n => { n with sent := true } }

/-- Where a message enters the network, and its PRI (R472): at the slice that sends it, or at its port, which sends it itself (R48, R114). -/
def State.sender (s : State) (m : OutMsg) : (Nat × Nat) × Bool :=
  match m.msg with
  | .cmp c => if c.status = 1 then (m.port.place, false) else ((s.engine c.hslice, 0), c.op != .retry && s.isC0 c.hslice c.htid)
  | .snoop _ _ _ htid hslice _ _ _ _ _ => ((s.engine hslice, 0), s.isC0 hslice htid)
  | .capAccept .. => (m.port.place, false)
  | .mem _ cls _ hslice _ _ _ _ => ((s.engine hslice, 0), cls == 0)

/-- The agent that a message is for, and whether it is the `CmpGo` of a granted sleep (R441). -/
def State.toward (s : State) (m : OutMsg) : Option Nat × Bool :=
  match m.port, m.msg with
  | .agent a, .cmp c => (some a, c.op == .cmpGo && c.status == 0 && (s.txn c.hslice c.htid).req.op == .agentSleep)
  | .agent a, _ => (some a, false)
  | _, _ => (none, false)

/-- The messages that leave the slices, and the ports, in this frame enter the network (R466, R474). DESIGN CHOICE, log entry 37. -/
def State.giveMessages (s : State) : State :=
  (s.out.filter fun m => m.frame == s.frame).foldl (fun s m =>
    let (src, pri) := s.sender m
    let (a, last) := s.toward m
    s.give src (packet m.msg.encode m.port.place pri) 0 fun f => { f with agent := a, last := last }) s

/-- A request on VC0 that was injected in an earlier frame and has not reached its slice (R253). -/
def State.overdue (s : State) : List Nat :=
  (s.net.filter fun n => n.req.op != .wbDirty && n.sent && n.reached.isNone && n.req.arrival < s.frame).map fun n => n.id

/-- The lanes of routers have changed mode, the last one in hclk `c` (R483, LZ_NET_STATUS). -/
def State.bypassDone (s : State) (p : Nat × Nat) : State :=
  (s.setFlag oNetStatus (16 + p.1) false).setFld oNetStatus 40 8 (min (p.2 - tget 0 s.routers.changeAt p.1) 255)

/-- What has moved in the 32 hclk of a frame takes effect: tails have reached their slices, and refusals are counted. -/
def State.fabricEnd (s : State) (x : NetStep) : State :=
  let stop := 32 * s.frame + 31
  let early (t : Tbl (List NetFlit)) : Tbl (List NetFlit) := t.map fun p => (p.1, p.2.map fun f => { f with since := min f.since (stop + 3) })
  let n := x.net
  let s := { s with
    routers := { n with paused := [], refuse := [], bufs := early n.bufs, egress := early n.egress, bridge := early n.bridge }
    net := s.net.map fun n => if x.tails.contains n.id then { n with reached := some s.frame } else n
    inbound := s.inbound.map fun n => if x.tails.contains n.id then { n with reached := some s.frame } else n }
  let s := x.changed.foldl State.bypassDone s
  x.refused.foldl (fun s p => s.hopRefused p.1 p.2.1 p.2.2) s

/-- The 32 hclk of the frame in the network. Packets enter it at the start of their frame, those of a port after the checks of 2 hclk:
DESIGN CHOICE, log entry 37. -/
def State.fabric (s : State) : State :=
  let s := (s.giveArrivals).giveMessages
  if s.routers.quiet then { s with routers := { s.routers with paused := [], refuse := [] } }
  else
    let bypass (r : Nat) : Bool := s.flag oNetStatus r
    let x := (List.range 32).foldl (fun (x : NetStep) i => if x.net.quiet then x else x.hclk bypass (fun _ => true) (32 * s.frame + i)) ⟨s.routers, [], [], []⟩
    s.fabricEnd (x.rush bypass s.overdue (32 * s.frame + 32) 8192)

end Sys2Proof.Machine
end

