-- ==== Sys2Proof/Machine/Answers.lean ====
section
/-! DEFINITION. What reaches a transaction: the answers of agents (R76, R77, R103, R142 to R148, R150, R157, R168, R176, R310,
R355, R444), the answers of memory (R61, R144, R303, R344), and the reports of a rebuild sweep (R106, R416 to R421). -/

namespace Sys2Proof.Machine

/-! Discards. -/

/-- A malformed message with the number of the check or the reason code (R34, R539). -/
def State.malformed (s : State) (lane code : Nat) (flit : Flit) : State := s.raisePair (malformedSrc lane) code flit

/-- A stale message of a slice (R76). DEDUCED, log entry 39. One whose HSLICE names a slice that the part lacks, or one of a lost pair, is
discarded and counted nowhere: DESIGN CHOICE, log entry 40. -/
def State.stale (s : State) (k : Nat) : State := if k < s.nSlices && !s.pairLost k then s.incFld (oSl (s.engine k) 0xB8) 0 24 1 else s

/-- The block takes an agent's messages: its sluice is open, from the frame after its `CapAccept` on (R109, R437, R444). -/
def State.taking (s : State) (ag : Nat) : Bool := s.sluice ag && !(s.ag ag).joining

/-- What a message of a state other than SERVICE and RETIRING meets, and one of an agent whose `CapAccept` leaves in this frame (R110, R169,
R437, R444); `none`: the message goes on. `k`: the slice that counts it as stale. DESIGN CHOICE, log entry 13. -/
def State.closedAgent (s : State) (a : Arrival) (ag k : Nat) : Option State :=
  let st := s.agSt ag
  let f := headOf a.flits
  if s.taking ag then none
  else if st = agSleeping || st = agRetired then some (s.sluiceViolation ag f)
  else if st = agLost then some (s.stale k)
  else some (s.malformed a.lane 6 f)

/-- A message that its port discards (R33, R34, R110, R444); `none`: it goes on. The checks of R33 come first, whatever the agent's state is:
DESIGN CHOICE, log entry 43. -/
def State.refused (s : State) (a : Arrival) (k : Nat) : Option State :=
  match s.ingress a with
  | 0 => if isNcLane a.lane then none else s.closedAgent a (hAgent (headOf a.flits)) k
  | n => some (s.malformed a.lane n (headOf a.flits))

/-- No message toward the block has the opcode. -/
def strayOp (f : Header) : Bool := (reqOpOf (hOp f)).isNone && (rspOpOf (hOp f)).isNone && hOp f != 0x2F

/-- A message whose opcode no message toward the block has is discarded by its port, whichever row delivers it (R33 check 2, R34).
DEDUCED, log entry 20. -/
def State.stray (s : State) (a : Arrival) : State :=
  if s.inService && strayOp (headOf a.flits) then s.malformed a.lane (s.ingress a) (headOf a.flits) else s

/-! Matching (R76, R77). -/

/-- A live transaction of a slice with a tag and an epoch. -/
def State.matches (s : State) (k t : Nat) (ep : BitVec 2) : Bool :=
  k < s.nSlices && !s.pairLost k && (s.txn k t).st != .free && s.epoch k t == ep

/-- An address is a line of the transaction; a range snoop's answer carries 0 (R77, R104, R132). A `Fence` or an `AgentSleep` has no line: its
ADDR, 0, is taken as one. DESIGN CHOICE, log entry 43. -/
def Txn.hasLine (x : Txn) (a : WireAddr) : Bool :=
  if x.home = some .sweep then a == 0
  else a.toNat < 2 ^ 38 && (if x.want = 4 then sectorOf (lineOf a) == sectorOf x.line else lineOf a == x.line)

/-- The index of an address among the transaction's lines. -/
def Txn.lineNo (x : Txn) (a : WireAddr) : Nat := if x.want = 4 then lineIdx (lineOf a) else 0

/-- The wait of a snoop that an agent has not answered and that a response may answer: any of them answers a line snoop, `RspI` alone a
`SnpFlushRange`, and the rest of a `SnpReport`'s answers are its `RspReport` messages (R107, R142, R165). -/
def Txn.snoopWait (x : Txn) (op : RspOp) (ag j : Nat) : Option Wait :=
  x.waits.find? fun w => w.agent == ag && w.j == j &&
    (w.kind == .first || w.kind == .resent || w.kind == .final || (w.kind == .range && w.snp == .flush && op == .rspI))

/-- The agent counts as owner of line `j`: recorded so, or a possible owner in a recovery (R355, R361). -/
def Txn.isOwner (x : Txn) (ag j : Nat) : Bool :=
  match x.known[j]? with
  | some .lost => true
  | some (.found (.owned b)) => b == ag
  | some (.found st) => x.orphaned && (stVec st).getLsbD ag
  | none => false

/-- The transaction has taken an agent's answer to its snoop of line `j`: a later one is discarded (R103). -/
def Txn.tookAnswer (x : Txn) (ag j : Nat) : Bool := x.answers.contains (ag, j)

/-- The block took a message from an agent in this frame (R166, R168). -/
def State.tookFrom (s : State) (ag : Nat) : State := s.updAg ag fun g => { g with took := true }

/-- A transaction goes on after an answer. -/
def State.goOn (s : State) (h t : Nat) : State :=
  let x := s.txn h t
  if x.home = some .sweep then s
  else if x.home.isSome then (if s.tagOpen h t && !x.busy && x.mems.isEmpty then s.plan (s.frame + 1) h t .act else s)
  else s.settle h t

/-- Drop a wait and note that the agent's answer is taken (R142). -/
def Txn.answered (x : Txn) (w : Wait) : Txn :=
  { x with waits := x.waits.erase w, taken := vecSet x.taken w.agent
           answers := if w.kind = .range || x.answers.contains (w.agent, w.j) then x.answers else x.answers ++ [(w.agent, w.j)] }

/-- A snoop's answer without data (R144, R145): an owner without RSPCROSS may still have a `WbDirty` on its way. -/
def State.answerI (s : State) (h t : Nat) (w : Wait) : State :=
  let x := s.txn h t
  let opens := x.isOwner w.agent w.j && !s.rspCross w.agent && !x.gaveDirty w.agent w.j && w.kind != .range
  let s := s.upd h t fun x =>
    let y := x.answered w
    if opens then { y with waits := y.waits ++ [{ w with kind := .wbRspI }] } else y
  (s.tookFrom w.agent).goOn h t

/-- `RspS` (R144, R150): only `SnpDown` allows it. -/
def State.answerS (s : State) (h t : Nat) (w : Wait) : State :=
  if w.snp = .down then
    let s := s.upd h t fun x => { x.answered w with rspS := true }
    (s.tookFrom w.agent).goOn h t
  else (s.violation h 8 w.agent ((s.txn h t).lineAt w.j) t).answerI h t w

/-- `RspCross` (R144, R147, R176). -/
def State.answerCross (s : State) (h t : Nat) (w : Wait) : State :=
  let x := s.txn h t
  if x.isOwner w.agent w.j then
    let s := s.upd h t fun x =>
      let y := x.answered w
      if x.gaveDirty w.agent w.j then y
      else { y with waits := y.waits ++ [{ agent := w.agent, j := w.j, kind := .wbCross, snp := w.snp, start := s.frame, len := s.snoopContract w.agent }] }
    (s.tookFrom w.agent).goOn h t
  else
    let s := (s.violation h 5 w.agent (x.lineAt w.j) t).upd h t fun x => x.answered w
    (s.tookFrom w.agent).goOn h t

/-- `RspIData` (R61, R144, R148, R150, R351, R355). -/
def State.answerData (s : State) (h t : Nat) (w : Wait) (d : Line) (poison : Bool) : State :=
  let x := s.txn h t
  if x.isOwner w.agent w.j then
    let s := s.addDirty h t { agent := w.agent, j := w.j, data := d, poison := poison } fun x => x.answered w
    (s.tookFrom w.agent).goOn h t
  else
    let s := (s.violation h 3 w.agent (x.lineAt w.j) t).upd h t fun x => x.answered w
    (s.tookFrom w.agent).goOn h t

/-- A response that passed its port reaches the slice its HSLICE names (R76 to R78, R103, R187, R399). DEDUCED, log entry 20. Its ADDR is
tested before its SRC, and an answer of another kind to a range snoop is stale: DESIGN CHOICE, log entry 40. -/
def State.respond (s : State) (op : RspOp) (a : Arrival) : State :=
  let f := headOf a.flits
  let h := rHslice f
  let t := rHtid f
  let ag := hAgent f
  if !s.matches h t (rEpoch f) then s.stale h
  else
    let x := s.txn h t
    if !x.hasLine (rAddr f) then s.malformed a.lane 5 f
    else
      let j := x.lineNo (rAddr f)
      match op with
      | .ackGo =>
        if x.st = .ackwait && x.req.src = ag && (x.waits.any fun w => w.kind == .ackGo) then
          let hold := s.fld oHome 0 6
          let s := s.upd h t fun x => { x with st := .holding, waits := [], holdEnd := some (s.frame + hold) }
          let s := s.tookFrom ag
          let s := if x.far then
              let tbl := (s.sl h).watch
              let free := (List.range 32).find? fun p => !(thas tbl p)
              let p := match free with
                | some p => p
                | none => (minBy (fun p => (tget ⟨0, 0, 0⟩ tbl p).expiry) (List.range 32)).getD 0
              s.updSl h fun sl => { sl with watch := tput p ⟨x.line, ag, s.frame + hold + s.fld oAtom 8 6⟩ sl.watch }
            else s
          if hold = 0 && s.tagOpen h t then s.plan s.frame h t .release else s
        else s.stale h
      | _ =>
        match x.snoopWait op ag j with
        | none => if x.tookAnswer ag j then s else s.stale h
        | some w =>
          match op with
          | .rspI => if f.getLsbD 7 then s else s.answerI h t w
          | .rspS => s.answerS h t w
          | .rspCross => s.answerCross h t w
          | .rspIData => s.answerData h t w (lineAt a.flits 0) (f.getLsbD 6)
          | _ => s.stale h

/-- A message of an agent whose sluice has closed while it was on its way to its slice (R110, R169, R444, R455). DEDUCED, log entry 20. -/
def State.closedLate (s : State) (k ag lane : Nat) (f : Header) : State :=
  if s.agSt ag = agLost then s.stale k
  else if s.agSt ag = agSleeping || s.agSt ag = agRetired then s.sluiceViolation ag f
  else s.malformed lane 6 f

/-- A response row: the message carries the row's opcode; the port's checks come first, and the message then goes to the slice that its HSLICE
names, which samples it in the frame after it has reached it (R78, R249, R466). -/
def respondRow (op : RspOp) (a : Arrival) (s : State) : Outcome :=
  live s <| need (a.lane < 24) <|
  let f := headOf a.flits
  if hOp f != op.code || !s.inService then .next (s.stray a)
  else match s.refused a (rHslice f) with
    | some t => .next t
    | none => .next (if rHslice f < s.nSlices then s.injectAnswer (rHslice f) (lanePlace a.lane) (.response op a) else s.stale (rHslice f))

/-- RSP_I: an `RspI` arrives (R144, R145, R103). -/
def execRspI (a : Arrival) (s : State) : Outcome := respondRow .rspI a s
/-- RSP_S: an `RspS` arrives (R144, R150). -/
def execRspS (a : Arrival) (s : State) : Outcome := respondRow .rspS a s
/-- RSP_CROSS: an `RspCross` arrives (R144, R147, R176). -/
def execRspCross (a : Arrival) (s : State) : Outcome := respondRow .rspCross a s
/-- RSP_I_DATA: an `RspIData` arrives (R144, R148, R355). -/
def execRspIData (a : Arrival) (s : State) : Outcome := respondRow .rspIData a s
/-- ACK_GO: an `AckGo` arrives, and the minimum hold begins (R157, R310). -/
def execAckGo (a : Arrival) (s : State) : Outcome := respondRow .ackGo a s

/-! Memory answers. -/

/-- Transactions of a line go on in the frame after a staged write's `MemCmp` (R303). -/
def State.afterStaged (s : State) (h : Nat) (l : LineAddr) : State :=
  (s.sl h).txns.foldl (fun s p =>
    let x := p.2
    if (if x.want = 4 then sectorOf x.line == sectorOf l else x.want == 1 && x.locked == 1 && x.line == l) && x.st != .waiting then
      if x.probed then s.goOn h p.1
      else if x.req.op == .rdShared || x.req.op == .rdOwn || x.req.op == .rdCur then s.plan (s.frame + 1) h p.1 .specRead else s
    else s) s

/-- The `MemCmp` of a staged write: its entry frees at the end of the frame (R303). -/
def State.stagedDone (s : State) (h : Nat) (p : Nat × Merge) : State :=
  (s.updSl h fun sl => { sl with merges := tput p.1 { p.2 with done := true } sl.merges }).afterStaged h p.2.line

/-- A `MemCmp` for a tag: the oldest write awaited, or the staged write of that tag and epoch (R303). DEDUCED, log entry 19. -/
def State.takeCmp (s : State) (h t : Nat) (ep : BitVec 2) : State :=
  let x := s.txn h t
  let live := s.matches h t ep
  match (if live then x.mems.find? fun m => m.op == .wr || m.op == .wrPoison else none) with
  | some m => (s.upd h t fun x => { x with mems := x.mems.erase m }).goOn h t
  | none =>
    match (if h < s.nSlices && !s.pairLost h then (s.sl h).merges.find? fun p => p.2.used && p.2.staged && !p.2.done && p.2.tag == t && p.2.ep == ep else none) with
    | some p => s.stagedDone h p
    | none => s.stale h

/-- The read or write-and-read that a `MemData` answers: the oldest of the tag (R120). DEDUCED, log entry 19. -/
def Txn.dataWait (x : Txn) : Option MemWait := x.mems.find? fun m => m.op == .rd || m.op == .wrRd

/-- The data of a memory answer reaches its transaction's memory data buffer, where the flip mask meets it (R61, R144, R188, R350, R378,
R456). -/
def State.takeData (s : State) (h t : Nat) (m : MemWait) (d : Line) (poison created : Bool) : State :=
  let x := s.txn h t
  let s := if created then s.poisonCreated h 2 x.req.src x.line t else s
  let kept := !m.discard && !x.cmpSent
  let (f, s) := if kept then s.flipStore h 14 else (0, s)
  let s := s.upd h t fun x =>
    { x with mems := x.mems.erase m, memData := if kept then some (d, poison) else x.memData, dflip := if kept then f else x.dflip
             madePoison := x.madePoison || created }
  s.goOn h t

/-- A transaction's memory request is to be sent again in the next frame (R344). -/
def State.againMem (s : State) (h t : Nat) (m : MemWait) : State :=
  let n := { m with again := true }
  (s.upd h t fun x => { x with mems := x.mems.map fun k => if k = m then n else k }).plan (s.frame + 1) h t (.resendMem n)

/-- The wait that a request to be sent again has by now: its data may be discarded meanwhile. -/
def Txn.sameWait (x : Txn) (m : MemWait) : Option MemWait := x.mems.find? fun k => { k with discard := m.discard } == m

/-- Send a transaction's memory request again (R344); a port that has failed since is answered for (R345). -/
def State.resendMem (s : State) (h t : Nat) (m : MemWait) : State :=
  let x := s.txn h t
  match x.sameWait m with
  | none => s
  | some k =>
    let a := wireOf (x.lineAt m.j)
    let p := s.memPort a
    let s := s.upd h t fun x => { x with mems := x.mems.map fun n => if n = k then { k with sent := s.frame } else n }
    let s := s.send s.frame (.mem p) (.mem m.op (if x.home.isSome then 3 else x.cls) t h (s.epoch h t) a m.poison m.data)
    if s.memFailed.getLsbD p then s.plan (s.frame + 1) h t .portDown else s

/-- Count a discarded memory answer (R344). DEDUCED, log entry 19. -/
def State.memParity (s : State) (k : Nat) : State := if k < s.nSlices && !s.pairLost k then s.incFld (oSl (s.engine k) 0x68) 8 8 1 else s

/-- The port has failed in an earlier frame (R345). -/
def State.portGone (s : State) (p : Nat) : Bool := s.memFailed.getLsbD p

/-- A slice samples a `MemData`, whose header has passed its port's parity check (R344): the second one with a bad payload is taken with
POISON = 1, and not counted as discarded. -/
def State.onMemData (s : State) (m : MemArrival) : State :=
  let f := headOf m.flits
  let h := mHslice f
  let t := mHtid f
  if !s.matches h t (mEpoch f) then s.stale h
  else match (s.txn h t).dataWait with
    | none => s.stale h
    | some w =>
      if flitsOk m.flits then s.takeData h t w (lineAt m.flits 0) (f.getLsbD 6) false
      else if w.again then s.takeData h t w (lineAt m.flits 0) true true
      else (s.memParity h).againMem h t w

/-- A slice samples a `MemCmp` (R303, R344). -/
def State.onMemCmp (s : State) (m : MemArrival) : State :=
  let f := headOf m.flits
  s.takeCmp (mHslice f) (mHtid f) (mEpoch f)

/-- A memory answer at its port (R344): one whose header fails parity is discarded and counted there, another goes to the slice that its
HSLICE names (R78, R249, R466). -/
def State.memArrives (s : State) (op : BitVec 6) (m : MemArrival) (w : Answer) : State :=
  let f := headOf m.flits
  if !flitsOk (m.flits.take 1) then s.memParity (mHslice f)
  else if hOp f != op then s
  else if mHslice f < s.nSlices then s.injectAnswer (mHslice f) (Port.mem m.port).place w
  else s.stale (mHslice f)

/-- MEM_DATA: a `MemData` arrives at a memory port (R61, R141, R144, R344, R345). Before BLOCK_READY the port's fill engine takes it and
nothing follows (R511). -/
def execMemData (m : MemArrival) (s : State) : Outcome :=
  live s <| need (m.port < 12) <| .next (if s.ready then s.memArrives 0x30 m (.memData m) else s)

/-- A zero-fill write of a port's fill engine is answered (R511, R512). -/
def State.fillCmp (s : State) (port t : Nat) : State :=
  let e := tget {} s.boot.engines port
  if e.waiting.any fun w => w.1 == t then
    let e := { e with waiting := e.waiting.filter fun w => w.1 != t }
    let s := { s with boot := { s.boot with engines := tput port e s.boot.engines, zeroAt := s.frame } }
    s.incFld oFill 0 40 1
  else s

/-- A zero-fill answer fails parity: the engine sends the same write again in the next frame (R512). -/
def State.fillAgain (s : State) (port t : Nat) : State :=
  let e := tget {} s.boot.engines port
  let again := (e.waiting.filter fun w => w.1 == t).map fun w => (w.1, w.2.1, s.frame)
  { s with boot := { s.boot with engines := tput port { e with resend := e.resend ++ again } s.boot.engines } }

/-- A zero-fill answer at its port (R511, R512). -/
def State.fillAnswer (s : State) (m : MemArrival) : State :=
  let f := headOf m.flits
  if !flitsOk (m.flits.take 1) then s.fillAgain m.port (mHtid f)
  else if hOp f = 0x20 then s.fillCmp m.port (mHtid f) else s

/-- MEM_CMP: a `MemCmp` arrives at a memory port (R141, R154, R303, R344, R511). -/
def execMemCmp (m : MemArrival) (s : State) : Outcome :=
  live s <| need (m.port < 12) <| .next (if s.ready then s.memArrives 0x20 m (.memCmp m) else s.fillAnswer m)

/-! The rebuild sweep. -/

/-- Last 4 KiB page of homed memory (R416). -/
def State.lastPage (s : State) : BitVec 40 := if s.nBits = 4 then 0xFFFFFFFF else 0x7FFFFFFF

/-- Send a range snoop of the sweep and await it (R107, R416). -/
def State.rangeSnoop (s : State) (h t a : Nat) : State :=
  let k : Snoop := if s.snpReport a then .report else .flush
  let w : Wait := { agent := a, kind := .range, snp := k, start := s.frame, len := s.flushContract a }
  (s.upd h t fun x => { x with waits := x.waits ++ [w] }).send s.frame (.agent a)
    (.snoop k false a t h (s.epoch h t) 0 0 s.lastPage (if k = .report then h else 0))

/-- The rebuild sweep of a range starts once a home tag is free (R416, R422). -/
def State.sweepStart (s : State) (h : Nat) : State :=
  let s := s.setFlag (oSl (s.engine h) 0x90) 6 true
  match s.homeTag h with
  | none => s.updSl h fun sl => { sl with sweepDue := true }
  | some t =>
    let s := (s.bumpEpoch h t).put h t { home := some .sweep, st := .home, want := 0, issue := s.frame, slot := 15, probed := true }
    let s := (s.updSl h fun sl => { sl with sweep := some { tag := t }, sweepDue := false, reports := [] }).setReg (oSl (s.engine h) 0x98) 0
    let asked := (List.range 24).filter fun a => s.flag (oAg a 0) 1 && s.sluice a
    asked.foldl (fun s a => s.rangeSnoop h t a) s

/-- Record `i` of a report (R84). -/
def reportRecord (l : List (Flit × Par)) (i : Nat) : BitVec 48 := bits (lineAt l 0) (48 * i) 48

/-- A record names a homed line of the swept slice (R106). -/
def State.inSweep (s : State) (h : Nat) (r : BitVec 48) : Bool :=
  let a : WireAddr := bits r 0 46
  a.toNat < 2 ^ (34 + s.nBits) && s.hash a == h

/-- A slice samples an `RspReport`; the sweep takes it into its queue (R105, R106, R417, R419, R420). A COUNT above 10 is taken as 10, and
the records of a message that finds the queue full are discarded unexamined: DESIGN CHOICE, log entry 40. -/
def State.takeReport (s : State) (a : Arrival) : State :=
  let f := headOf a.flits
  let h := rHslice f
  let t := rHtid f
  let ag := hAgent f
  if !s.matches h t (rEpoch f) then s.stale h
  else match (s.txn h t).waits.find? (fun w => w.agent == ag && w.kind == .range && w.snp == .report), (s.sl h).sweep with
    | some w, some sw =>
      let all := (List.range (min 10 (bits f 82 4).toNat)).map fun i => reportRecord a.flits i
      let good := all.filter fun r => s.inSweep h r
      let last := f.getLsbD 86
      let s := s.tookFrom ag
      let full := 256 ≤ (s.sl h).reports.length
      let s := if full then s.incFld (oSl (s.engine h) 0x98) 24 24 all.length
        else s.incFld (oSl (s.engine h) 0xB8) 0 24 (all.length - good.length)
      let s := if full then s else s.updSl h fun sl => { sl with reports := sl.reports ++ [(ag, good)] }
      let sw := if full then { sw with cut := vecSet sw.cut ag } else sw
      let sw := if last && sw.cut.getLsbD ag then { sw with lastSeen := vecSet sw.lastSeen ag } else sw
      let s := s.updSl h fun sl => { sl with sweep := some sw }
      if last then s.upd h t fun x => { x with waits := x.waits.erase w } else s
    | _, _ => s.stale h

/-- RSP_REPORT: an `RspReport` arrives (R105, R417). DESIGN CHOICE, log entry 40. -/
def execRspReport (a : Arrival) (s : State) : Outcome := respondRow .rspReport a s

/-! Sampling of answers (R249, R250). -/

/-- A slice takes an answer off its ingress. -/
def State.takeAnswer (s : State) (m : Answer) : State :=
  s.taken m.slice m.tag (.answer m) <|
    match m with
    | .response op a =>
      let f := headOf a.flits
      if !s.sluice (hAgent f) then s.closedLate (rHslice f) (hAgent f) a.lane f
      else if op = .rspReport then s.takeReport a
      else s.respond op a
    | .memData m => s.onMemData m
    | .memCmp m => s.onMemCmp m

/-- A slice samples an answer; one of a memory port that has failed in an earlier frame is stale (R345). -/
def State.sampleAnswer (s : State) (m : Answer) : State :=
  match m with
  | .response .. => s.takeAnswer m
  | .memData a | .memCmp a => if s.portGone a.port then s.stale m.slice else s.takeAnswer m

/-- Apply one report record (R418, R419); none: it must wait for room. One whose bits [47:46] are 0b00 or 0b11 is dropped and counted in
DISCARDED: DESIGN CHOICE, log entry 43. -/
def State.applyRecord (s : State) (h ag : Nat) (r : BitVec 48) : Option State :=
  let l : LineAddr := bits r 0 38
  let kind := bits r 46 2
  let drop (s : State) : State := s.incFld (oSl (s.engine h) 0x98) 24 24 1
  let done (s : State) : State := s.incFld (oSl (s.engine h) 0x98) 0 24 1
  if !s.flag (oAg ag 0) 1 || s.lineBusy h l || (kind != 1 && kind != 2) then some (drop s)
  else
    let x := sectorOf l
    let s := s.zeroSector h x
    let p := s.probe h l
    let write (st : LineState) : Option State :=
      let st := s.clearLost st
      match p.loc with
      | some (.evgan set w) => if s.wbufRoom h 3 then some (done (s.writeAt h (.evgan set w) (lineIdx l) st false)) else none
      | some loc => some (done (s.writeAt h loc (lineIdx l) st false))
      | none => (s.allocate h 0 3 none x (lineIdx l) st false).map done
    match p.known with
    | .lost => some (drop s)
    | .found .untracked => write (if kind = 1 then .shared (vecOf ag) else .owned ag)
    | .found (.shared v) => if kind = 1 then write (.shared (vecSet v ag)) else some (drop s)
    | .found (.owned b) => if kind = 2 && b = ag then some (done s) else some (drop s)

/-- Apply the records of one payload until one must wait; the records left. -/
def applyPayload (s : State) (h ag : Nat) : List (BitVec 48) → Nat → State × List (BitVec 48) × Nat
  | [], n => (s, [], n)
  | r :: rest, 0 => (s, r :: rest, 0)
  | r :: rest, n + 1 =>
    match s.applyRecord h ag r with
    | none => (s, r :: rest, 0)
    | some s => applyPayload s h ag rest n

/-- Apply queued payloads in order of arrival, up to a number of records (R417). -/
def applyReports (s : State) (h : Nat) : List (Nat × List (BitVec 48)) → Nat → State
  | [], _ => s.updSl h fun sl => { sl with reports := [] }
  | (ag, rs) :: rest, n =>
    match applyPayload s h ag rs n with
    | (s, [], m) => applyReports s h rest m
    | (s, left, _) => s.updSl h fun sl => { sl with reports := (ag, left) :: rest }

/-- REPORT_APPLY: the sweep applies up to 64 report records of the frame (R417 to R419). -/
def execReportApply (h : Nat) (s : State) : Outcome :=
  live s <| need (h < s.nSlices) <|
  let sl := s.sl h
  when' (sl.sweep.isSome && !sl.reports.isEmpty && !sl.applied && s.rangeOpen h) s
    ((applyReports s h sl.reports 64).updSl h fun sl => { sl with applied := true })

/-- REPORT_REPEAT: the sweep asks an agent again whose report lost records (R420). -/
def execReportRepeat (h ag : Nat) (s : State) : Outcome :=
  live s <| need (h < s.nSlices && ag < 24) <|
  match (s.sl h).sweep with
  | none => .next s
  | some sw =>
    when' (sw.lastSeen.getLsbD ag && (s.sl h).reports.length ≤ 128 && s.sluice ag && s.rangeOpen h) s <|
      let s := s.updSl h fun sl => { sl with sweep := some { sw with cut := vecClear sw.cut ag, lastSeen := vecClear sw.lastSeen ag } }
      (s.incFld (oSl (s.engine h) 0x98) 48 8 1).rangeSnoop h sw.tag ag

/-- Every agent that the sweep snooped has answered, or is lost, and the queue is empty (R421). -/
def State.sweepDone (s : State) (h : Nat) (sw : Sweep) : Bool :=
  !((s.txn h sw.tag).waits.any fun w => w.kind == .range) && sw.cut == 0 && (s.sl h).reports.isEmpty

/-- The rebuild sweep of a range has ended: the range returns to filtered mode, and its maintenance starts again (R245, R411, R421). -/
def State.endSweep (s : State) (h : Nat) : State :=
  match (s.sl h).sweep with
  | none => s
  | some sw =>
    if !(s.sweepDone h sw && s.rangeOpen h) then s
    else
      let rebuilt := (s.sl h).rebuildOn
      let s := ((s.unplan h sw.tag).put h sw.tag {}).updSl h fun sl =>
        { sl with sweep := none, rebuildOn := false
                  txns := sl.txns.map fun p => (p.1, if p.2.bcast then { p.2 with swept := true } else p.2) }
      let code := if rebuilt then 0 else s.fld (oSl h 0x90) 2 4
      let s := if rebuilt then
          ((s.setFlag (oSl h 0x28) 0 true).setFlag (oSl h 0x28) 1 false).setFlag (oSl h 0x28) 4 false
        else s
      let s := if s.engine (buddy h) = s.engine h && s.sweeping (buddy h) then s
        else s.setFlag (oSl (s.engine h) 0x90) 6 false
      (s.raise 27 code (BitVec.ofNat 64 h)).maintNext h

/-- SWEEP_END: the rebuild sweep ends at the end of this frame (R245, R421). -/
def execSweepEnd (h : Nat) (s : State) : Outcome :=
  live s <| need (h < s.nSlices) <|
  match (s.sl h).sweep with
  | none => .next s
  | some sw => when' (s.sweepDone h sw && s.rangeOpen h) s (s.lapseAt (.sweep h))

end Sys2Proof.Machine
end

