-- ==== Sys2Proof/Machine/Expiry.lean ====
section
/-! DEFINITION. The expiries of the waits of R165 (R94, R101, R107, R145, R147, R164 to R167) and of watch entries (R310). -/

namespace Sys2Proof.Machine

/-- A wait has reached the end of its last frame (R14, R164). DESIGN CHOICE, log entry 9. -/
def Wait.due (w : Wait) (frame : Nat) : Bool := w.start + w.len ≤ frame

/-- The wait of a kind on an agent for a line. -/
def Txn.waitOf (x : Txn) (k : WaitKind) (ag j : Nat) : Option Wait :=
  x.waits.find? fun w => w.kind == k && w.agent == ag && w.j == j

/-- An expiry that counts toward the agent's loss (R165, R166), and the third one of a wait (R167). -/
def State.countExpiry (s : State) (ag : Nat) (third : Bool) : State :=
  (s.incFld (oAg ag 0x10) 8 16 1).updAg ag fun g =>
    { g with expired := true, lossDue := if third && !(g.lossDue.contains 7) then g.lossDue ++ [7] else g.lossDue }

/-- Replace a wait by another. -/
def Txn.reWait (x : Txn) (w v : Wait) : Txn := { x with waits := x.waits.map fun u => if u = w then v else u }

/-- An answer that would end a wait has come in time, but is still to be taken for want of records (R14, R388). -/
def Late.ends (l : Late) (x : Txn) (h t ag j : Nat) (k : WaitKind) : Bool :=
  match l with
  | .answer (.response op a) =>
    let f := headOf a.flits
    rHslice f == h && rHtid f == t && hAgent f == ag &&
      (match k with
       | .ackGo => op == .ackGo
       | .range => op != .ackGo
       | .first | .resent | .final => op != .ackGo && x.lineNo (rAddr f) == j
       | .wbCross | .wbRspI => false)
  | .sample n => (k == .wbCross || k == .wbRspI) && n.home == h && n.req.src == ag && x.idx (lineOf n.req.addr) == j
  | _ => false

/-- A transaction's wait has reached its end, and the transaction runs (R394, R410); its answer has not come (R14). -/
def State.waitDue (s : State) (h t ag j : Nat) (k : WaitKind) : Option Wait :=
  ((s.txn h t).waitOf k ag j).filter fun w => w.due s.frame && w.count < 3 && s.tagOpen h t && !(s.late.any fun l => l.ends (s.txn h t) h t ag j k)

/-- A row of the expiry of a transaction's wait: the parts that it names exist (`parts` beside the tag), and the wait expires at the end of
this frame (R14, R161). -/
def State.expiryRow (s : State) (h t : Nat) (parts : Bool) (ag j : Nat) (k : WaitKind) : Outcome :=
  live s <| need (h < s.nSlices && t < 1024 && parts) <|
  when' (s.waitDue h t ag j k).isSome s (s.expireAt (.wait h t ag j k))

/-- A snoop's first contract has expired; it is resent in the next frame (R101, R165). -/
def State.firstExpired (s : State) (h t : Nat) (w : Wait) : State :=
  let v : Wait := { w with kind := .resent, start := s.frame + 1, len := s.snoopContract w.agent, count := 1 }
  ((s.upd h t fun x => x.reWait w v).countExpiry w.agent false).plan (s.frame + 1) h t (.resend w.snp w.agent w.j)

/-- The resent snoop's contract has expired; the final wait starts in the next frame (R165). -/
def State.resendExpired (s : State) (h t : Nat) (w : Wait) : State :=
  let v : Wait := { w with kind := .final, start := s.frame + 1, len := s.snoopContract w.agent, count := 2 }
  ((s.upd h t fun x => x.reWait w v).countExpiry w.agent false).plan (s.frame + 1) h t (.openFinal w.agent w.j)

/-- The third expiry of a snoop's wait: the agent is lost at the edge (R165, R167). -/
def State.finalExpired (s : State) (h t : Nat) (w : Wait) : State :=
  (s.upd h t fun x => x.reWait w { w with count := 3 }).countExpiry w.agent true

/-- A wait for `AckGo`, or for a `WbDirty` after `RspCross`, starts again in the next frame, until its third expiry (R94, R147, R165, R167). -/
def State.waitAgain (s : State) (h t : Nat) (w : Wait) (a : Act) : State :=
  let v : Wait := { w with start := s.frame + 1, len := s.snoopContract w.agent, count := w.count + 1 }
  let s := (s.upd h t fun x => x.reWait w v).countExpiry w.agent (w.count = 2)
  if w.count = 2 then s else s.plan (s.frame + 1) h t a

/-- The wait of R145 has ended; the agent no longer counts as owner (R174), and nothing is counted. -/
def State.crossingExpired (s : State) (h t : Nat) (w : Wait) : State :=
  (s.upd h t fun x => { x with waits := x.waits.erase w, gone := x.gone ++ [(w.agent, w.j)] }).goOn h t

/-- A timer expires (R161, R165, R197, R323); one whose wait an arrival of this frame has ended does not (R14). -/
def State.expire (s : State) : Expiry → State
  | .watchdog h t => s.watchdog h t
  | .window h t => s.closeWindow h t
  | .wait h t ag j k =>
    match s.waitDue h t ag j k with
    | none => s
    | some w =>
      match k with
      | .first => s.firstExpired h t w
      | .resent => s.resendExpired h t w
      | .final => s.finalExpired h t w
      | .ackGo => s.waitAgain h t w .reAck
      | .wbCross => s.waitAgain h t w (.reCross ag j)
      | .wbRspI => s.crossingExpired h t w
      | .range =>
        if ((s.ag ag).lossDue.contains 2) then s else s.updAg ag fun g => { g with lossDue := g.lossDue ++ [2] }

/-- The slice and the tag of a timer's transaction. -/
def Expiry.owner : Expiry → Nat × Nat
  | .watchdog h t | .window h t | .wait h t _ _ _ => (h, t)

/-- The timers of the frame expire, in order (R161); where the records do not fit, in the next frame (R388). DEDUCED, log entry 16. -/
def State.expireAll (s : State) : State :=
  s.expired.foldl (fun s x =>
    let r := s.expire x
    let k := x.owner
    let d := s.recordedFor k.1 k.2 r
    if s.fits (s.isC0 k.1 k.2) r then d else { d with expired := d.expired ++ [x] }) { s with expired := [] }

/-- SNOOP_CONTRACT_EXPIRY: a snoop's first contract expires at the end of this frame (R101, R165). -/
def execSnoopContractExpiry (h t ag j : Nat) (s : State) : Outcome := s.expiryRow h t (ag < 24 && j < 4) ag j .first
/-- RESEND_EXPIRY: the resent snoop's contract expires (R165). -/
def execResendExpiry (h t ag j : Nat) (s : State) : Outcome := s.expiryRow h t (ag < 24 && j < 4) ag j .resent
/-- FINAL_WAIT_EXPIRY: the third expiry of the wait (R165, R167). -/
def execFinalWaitExpiry (h t ag j : Nat) (s : State) : Outcome := s.expiryRow h t (ag < 24 && j < 4) ag j .final
/-- ACKGO_WAIT_EXPIRY: the wait for `AckGo` expires (R94, R165, R167). -/
def execAckgoWaitExpiry (h t : Nat) (s : State) : Outcome := s.expiryRow h t true (s.txn h t).req.src 0 .ackGo
/-- WBDIRTY_WAIT_EXPIRY: the wait for a `WbDirty` after `RspCross` expires (R147, R165, R167). -/
def execWbdirtyWaitExpiry (h t ag j : Nat) (s : State) : Outcome := s.expiryRow h t (ag < 24 && j < 4) ag j .wbCross
/-- CROSSING_WAIT_EXPIRY: the wait of R145 ends (R145, R174). -/
def execCrossingWaitExpiry (h t ag j : Nat) (s : State) : Outcome := s.expiryRow h t (ag < 24 && j < 4) ag j .wbRspI

/-- FLUSH_CONTRACT_EXPIRY: a range snoop expires at the end of this frame; the agent is declared lost at the edge (R107, R165). -/
def execFlushContractExpiry (h ag : Nat) (s : State) : Outcome :=
  live s <| need (h < s.nSlices && ag < 24) <|
  match (s.sl h).sweep with
  | none => .next s
  | some sw => when' (s.waitDue h sw.tag ag 0 .range).isSome s (s.expireAt (.wait h sw.tag ag 0 .range))

/-- WATCH_ENTRY_EXPIRY: a watch entry leaves the table at the end of its expiry frame (R310). The command stands after the edge of
that frame. DESIGN CHOICE, log entry 10. -/
def execWatchEntryExpiry (h p : Nat) (s : State) : Outcome :=
  live s <| need (h < s.nSlices && p < 32) <|
  match (s.sl h).watch.find? fun e => e.1 == p with
  | none => .next s
  | some e => when' (e.2.expiry < s.frame) s (s.updSl h fun sl => { sl with watch := tdel p sl.watch })

end Sys2Proof.Machine
end

