-- ==== Sys2Proof/Machine/Maintenance.lean ====
section
/-! DEFINITION. The maintenance engine of a slice: range invalidation (R238 to R243), scrub (R381 to R384), agent walks (R446 to
R449), loss sweeps (R458), recount walks (R364), rereads and remaps (R367, R368, R370), correction write-backs (R205), the placement
loop (R226 to R233), memory initialization (R531, R532) and debug reads (R533). -/

namespace Sys2Proof.Machine

/-! Set reads. -/

/-- The places at a position. -/
def placesAt (p : Nat) : List Loc :=
  if p < Config.ondieSets then (List.range 16).map fun w => .ondie p w
  else if p < stagePos then (List.range 16).map fun w => .evgan (p - Config.ondieSets) w
  else (List.range Config.stageEntries).map fun i => .stage i

/-- The places at a position with an entry, of which the tag holds, and of which it fails. -/
def State.usedAt (s : State) (h p : Nat) (ok : Bool) : List Loc :=
  (placesAt p).filter fun l => !isFree (s.entry h l) && tagOk (s.entry h l) == ok

/-- A maintenance set read can take this selvedge slot for an operation (R236, R240, R530). -/
def State.readReady (s : State) (h : Nat) (p : MaintOp → Bool) : Bool :=
  let m := (s.sl h).maint
  match m.running with
  | none => false
  | some op =>
    p op && !s.maintHeld h op && s.canRead h op && s.inService && s.rangeOpen h && s.selvTurn h .engine

/-- Take the slot and the budget of a set read; orphans are found (R359), and `f` deals with the places whose tag holds. -/
def State.readSet (s : State) (h : Nat) (op : MaintOp) (f : State → List Loc → State) : State :=
  let q := s.nextPos op (s.sl h).maint.pos
  let e := s.engine h
  let s := ((s.useSelvedge e).useLate h (readCost q)).updSl h fun sl => { sl with maint := { sl.maint with pos := q + 1 } }
  let s := s.orphan h (s.usedAt h q false)
  let s := if op = .scrub then s else (s.usedAt h q true).foldl (fun s l => s.readLines h l) s
  (f s (s.usedAt h q true)).maintCheck h

/-- Add sectors that need a transaction. -/
def State.addFound (s : State) (h : Nat) (xs : List SectorAddr) : State :=
  s.updSl h fun sl => { sl with maint := { sl.maint with found := sl.maint.found ++ xs } }

/-- Records of a word that decode with a correction. -/
def fixedCount (e : Entry) : Nat := ((List.range 4).filter fun j => match decodeRec e j with | .fixed _ => true | _ => false).length

/-- A scrub passes over the records whose sectors are locked by now, and counts them (R383); that uses no slot (R530). -/
def State.skipLocked (s : State) (h : Nat) : State :=
  let m := (s.sl h).maint
  if m.running != some .scrub then s
  else
    let fixes := m.fixes.filter fun l => s.placeLocked h l
    let lost := m.lostAt.filter fun l => s.passesOver h l
    let n := (fixes.map fun l => fixedCount (s.entry h l)).sum + lost.length
    if n = 0 then s
    else (s.updSl h fun sl => { sl with maint := { m with fixes := m.fixes.filter (fun l => !fixes.contains l), lostAt := m.lostAt.filter fun l => !lost.contains l } }).incFld
      (oSl (s.engine h) 0x80) 52 8 n

/-! Transactions of the engine (R240). -/

/-- Put blocked sectors on the retry list as it has room, counting them (R240); at the end of the walk, and while the list is full and the
walk pauses for it, take back those that are no longer blocked. -/
def State.maintTidy (s : State) (h : Nat) : State :=
  let s := s.skipLocked h
  let m := (s.sl h).maint
  match m.running with
  | none => s
  | some op =>
    let hit := (m.found.filter fun x => s.blocked h op x).take (16 - m.retry.length)
    let found := m.found.filter fun x => !(hit.contains x)
    let retry := m.retry ++ hit
    let back := if (stagePos < m.pos && found.isEmpty) || 16 ≤ retry.length then retry.filter fun x => !s.blocked h op x else []
    let s := s.updSl h fun sl =>
      { sl with maint := { sl.maint with found := found ++ back, retry := retry.filter fun x => !(back.contains x) } }
    match op with
    | .rinv => s.incFld (oSl (s.engine h) 0x50) 40 16 hit.length
    | .agentWalk _ | .lossSweep _ => s.incFld (oSl (s.engine h) 0xA0) 24 16 hit.length
    | _ => s

/-- The sector on which the running operation's next transaction starts. -/
def State.startable (s : State) (h : Nat) (p : MaintOp → Bool) : Option (MaintOp × SectorAddr) :=
  let m := (s.sl h).maint
  match m.running with
  | none => none
  | some op =>
    if p op && !s.maintHeld h op && s.inService && s.rangeOpen h && (s.homeTag h).isSome && s.selvTurn h .engine then
      (m.found.find? fun x => !s.blocked h op x).map fun x => (op, x)
    else none

/-- What the transaction of an operation is. -/
def MaintOp.kind : MaintOp → HomeKind
  | .lossSweep v => .lsweep v | .agentWalk a => .awalk a | .rinv => .rinv | .scrub | .recount => .rinv

/-- Start the next transaction of the running operation on a sector (R239, R447, R458). -/
def State.startMaint (s : State) (hdrFail : Bool) (h : Nat) (op : MaintOp) (x : SectorAddr) : State :=
  let s := s.useSelvedge (s.engine h)
  s.recorded false ((s.updSl h fun sl => { sl with maint := { sl.maint with found := sl.maint.found.erase x } }).homeIssue
    hdrFail h op.kind (lineIn x 0) 4 none)

/-- A row that starts a transaction of the engine. -/
def maintRow (h : Nat) (p : MaintOp → Bool) (hdrFail : Bool) (s : State) : Outcome :=
  live s <| need (h < s.nSlices) <|
  let s' := s.maintTidy h
  match s'.startable h p with
  | none => .next s
  | some (op, x) => .next (s'.startMaint hdrFail h op x)

/-- The operations, as rows name them. -/
def MaintOp.isRinv : MaintOp → Bool | .rinv => true | _ => false
@[inherit_doc MaintOp.isRinv] def MaintOp.isScrub : MaintOp → Bool | .scrub => true | _ => false
@[inherit_doc MaintOp.isRinv] def MaintOp.isRecount : MaintOp → Bool | .recount => true | _ => false
@[inherit_doc MaintOp.isRinv] def MaintOp.isWalk : MaintOp → Bool | .agentWalk _ => true | _ => false
@[inherit_doc MaintOp.isRinv] def MaintOp.isLoss : MaintOp → Bool | .lossSweep _ => true | _ => false

/-- A row that reads a set for the running operation. -/
def readRow (h : Nat) (p : MaintOp → Bool) (f : MaintOp → State → List Loc → State) (s : State) : Outcome :=
  live s <| need (h < s.nSlices) <|
  let s' := s.maintTidy h
  match (s'.sl h).maint.running with
  | none => .next s
  | some op => when' (s'.readReady h p) s (s'.readSet h op (f op))

/-- The sectors of a set for which the operation has transactions to start. -/
def State.findSectors (h : Nat) (op : MaintOp) (s : State) (ls : List Loc) : State :=
  s.addFound h ((ls.filter fun l => s.opCovers op (s.sectorAt h l) (s.entry h l)).map (s.sectorAt h))

/-- RINV_SET_READ: the walk of a range invalidation reads one set (R239). -/
def execRinvSetRead (h : Nat) (s : State) : Outcome := readRow h MaintOp.isRinv (State.findSectors h) s

/-- RINV_TRANSACTION: a range-invalidation transaction starts on a sector (R239, R241). -/
def execRinvTransaction (p : Pass) (s : State) : Outcome := maintRow p.slice MaintOp.isRinv p.hdrFail s

/-- AGENTWALK_SET_READ: the walk reads one set and finds the agent's entries (R446, R447). -/
def execAgentwalkSetRead (h : Nat) (s : State) : Outcome := readRow h MaintOp.isWalk (State.findSectors h) s

/-- AGENTWALK_TRANSACTION: a walk transaction starts on a sector (R447). -/
def execAgentwalkTransaction (p : Pass) (s : State) : Outcome := maintRow p.slice MaintOp.isWalk p.hdrFail s

/-- LOSS_SWEEP_SET_READ: the loss sweep reads one set and finds the lost agents' entries (R458). -/
def execLossSweepSetRead (h : Nat) (s : State) : Outcome := readRow h MaintOp.isLoss (State.findSectors h) s

/-- LOSS_SWEEP_TRANSACTION: a loss-sweep transaction starts on a sector (R458). -/
def execLossSweepTransaction (p : Pass) (s : State) : Outcome := maintRow p.slice MaintOp.isLoss p.hdrFail s

/-! Recount (R364). -/

/-- The recount walk sums one set into the shadow counts; an uncorrectable record is noted for its recovery (R364, R382 step 5).
DEDUCED, log entry 17. -/
def State.recountSet (h : Nat) (s : State) (ls : List Loc) : State :=
  ls.foldl (fun s l =>
    let e := s.entry h l
    let bad := (List.range 4).filter fun j => decodeRec e j == .bad
    s.updSl h fun sl =>
      { sl with maint := { sl.maint with shadow := shadowAdd true sl.maint.shadow e
                                         lostAt := sl.maint.lostAt ++ bad.map (lineIn (s.sectorAt h l)) } }) s

/-- RECOUNT_SET_READ: the recount walk reads one set (R364). -/
def execRecountSetRead (h : Nat) (s : State) : Outcome := readRow h MaintOp.isRecount (fun _ => State.recountSet h) s

/-! Scrub (R381 to R384). -/

/-- A scrub decodes the records of one word (R382, R383): each error is counted with its bank unless its correction is already due, and
waits for its write-back or its recovery. A word whose tag fails is recovered as an orphan, and its lines with it. DEDUCED, log entry 17. -/
def State.scrubWord (s : State) (h : Nat) (l : Loc) : State :=
  let e := s.entry h l
  let o := oSl (s.engine h) 0x80
  let locked := s.placeLocked h l
  let orphaned := !isFree e && !tagOk e
  let known := (s.sl h).fixDue l
  let s := (List.range 4).foldl (fun (s : State) j =>
    match decodeRec e j with
    | .good _ => s
    | .fixed _ =>
      let s := if known then s else s.correctable h (bankOf l) (setOf l).1 (setOf l).2
      if locked then s.incFld o 52 8 1 else s
    | .bad =>
      let s := s.uncorrectable h (bankOf l) (setOf l).1 (setOf l).2
      if locked then s.incFld o 52 8 1
      else if orphaned then s.incFld o 32 8 1
      else s.updSl h fun sl => { sl with maint := { sl.maint with lostAt := sl.maint.lostAt ++ [lineIn (s.sectorAt h l) j] } }) s
  if anyFixed e && !locked && !((s.sl h).maint.fixes.contains l) then
    s.updSl h fun sl => { sl with maint := { sl.maint with fixes := sl.maint.fixes ++ [l] } } else s

/-- A scrub checks the replacement word, and the heat words, of a set that it has read (R214, R382 step 1). -/
def State.scrubSide (s : State) (h p : Nat) : State :=
  if stagePos ≤ p then s
  else
    let ev := Nat.ble Config.ondieSets p
    let set := if ev then p - Config.ondieSets else p
    let r := s.row h ev set
    let bad := (if xorBits (tget 0 (if ev then (s.sl h).replEv else (s.sl h).replOn) r) 65 then 1 else 0) +
      (if ev then ((List.range 16).filter fun w => xorBits (tget 0 (s.sl h).heat (16 * r + w)) 4).length else 0)
    let s := s.readRepl h ev set
    let s := if ev then foldSt (List.range 16) (fun s w => s.readHeat h set w) s else s
    s.incFld (oSl (s.engine h) 0x80) 46 6 bad

/-- A scrub checks the set it has read, its side words, its tags and every record, and counts it (R382, R383). DEDUCED, log entry 17. -/
def State.scrubSet (h : Nat) (s : State) (_ : List Loc) : State :=
  let q := s.nextPos .scrub 0
  let pos := (s.sl h).maint.pos - 1
  let o := oSl (s.engine h) 0x80
  let s := if pos < stagePos && q ≤ pos then s.incFld o 0 16 1 else s
  let s := (s.scrubSide h pos).incFld o 40 6 (s.usedAt h pos false).length
  (placesAt pos).foldl (fun s l => s.scrubWord h l) s

/-- SCRUB_SET_READ: a scrub reads one set and checks its words (R382, R383). -/
def execScrubSetRead (h : Nat) (s : State) : Outcome := readRow h MaintOp.isScrub (fun _ => State.scrubSet h) s

/-- SCRUB_RECOVERY: a recovery starts for a line whose record a scrub or a recount found uncorrectable (R364, R382 step 5). -/
def execScrubRecovery (p : Pass) (s : State) : Outcome :=
  let h := p.slice
  live s <| need (h < s.nSlices) <|
  let s' := s.skipLocked h
  match (s'.sl h).maint.lostAt with
  | [] => .next s
  | l :: rest =>
    when' (s'.inService && s'.rangeOpen h && (s'.homeTag h).isSome && s'.selvTurn h (.lost l)) s <|
      let scrub := (s'.sl h).maint.running == some .scrub
      let s0 := s'.useSelvedge (s'.engine h)
      let s := s0.updSl h fun sl => { sl with maint := { sl.maint with lostAt := rest } }
      s0.recorded false ((if scrub then s.incFld (oSl (s.engine h) 0x80) 32 8 1 else s).homeIssue p.hdrFail h (.scrub (lineIdx l)) l 1 none)

/-! Corrections, rereads and remaps. -/

/-- Write a word back corrected; its reread is then due (R205, R367). -/
def State.writeBack (s : State) (h : Nat) (l : Loc) : State :=
  let e := fixEntry (s.entry h l)
  match l with
  | .stage i =>
    if (s.stageAt h i).used then s.putEntry h l e
    else s.updSl h fun sl => { sl.wordWritten l with stage := tputD {} i { (s.stageAt h i) with word := e } sl.stage }
  | _ => s.putEntry h l e

/-- An Evgan word can be written now by a write-back (R263). -/
def State.backRoom (s : State) (h : Nat) (l : Loc) : Bool := s.endRoom h (some l)

/-- CORRECTION_WRITEBACK: the first word with room of those corrected by a read of an earlier frame is written back (R205, R263); else a
scrub's correction in a selvedge slot (R382 step 4). -/
def execCorrectionWriteback (h : Nat) (s : State) : Outcome :=
  live s <| need (h < s.nSlices) <|
  match (s.sl h).correct.find? fun c => c.1 < s.frame && s.backRoom h c.2 with
  | some c => when' s.inService s (s.writeBack h c.2)
  | none =>
    let s' := s.skipLocked h
    match (s'.sl h).maint.fixes.find? fun l => !s'.placeLocked h l && s'.backRoom h l with
    | none => .next s
    | some l =>
      when' (s'.inService && s'.rangeOpen h && s'.selvTurn h (.fix l)) s <|
        let n := fixedCount (s'.entry h l)
        let s := s'.useSelvedge (s'.engine h)
        ((s.writeBack h l).incFld (oSl (s.engine h) 0x80) 16 16 n).maintCheck h

/-- Tier and set of the row of a place; a stage entry has none (R365). -/
def rowOf : Loc → Option (Bool × Nat)
  | .ondie set _ => some (false, set) | .evgan set _ => some (true, set) | .stage _ => none

/-- WORD_REREAD: the slice rereads a word in a selvedge slot; any error in it is counted and marks its row hard-failed (R367, R372, R374).
An error that the read alone shows (`rowError`) counts as a correctable one. DEDUCED, log entry 17. -/
def execWordReread (h : Nat) (rowError : Bool) (s : State) : Outcome :=
  live s <| need (h < s.nSlices) <|
  match (s.sl h).reread with
  | [] => .next s
  | l :: rest =>
    let e := s.engine h
    let cost := match l with | .evgan _ _ => 1 | _ => 0
    when' (s.inService && s.rangeOpen h && s.selvTurn h (.reread l) && s.evRoom h cost) s <|
      let w := s.entry h l
      let badTag := !isFree w && !tagOk w
      let scrub := (s.sl h).maint.rereads.contains l
      let s := ((s.useSelvedge e).useLate h cost).updSl h fun sl => { sl with reread := rest, maint := { sl.maint with rereads := sl.maint.rereads.filter fun p => p != l } }
      let s := if badTag then s.orphan h [l] else s.readLines h l
      let s := if rowError then s.correctable h (bankOf l) (setOf l).1 (setOf l).2 else s
      match rowOf l with
      | some r =>
        if !(rowError || anyFixed w || anyBad w || badTag) then s
        else s.updSl h fun sl =>
          { sl with hardRows := if sl.hardRows.contains r || sl.copies.any (fun c => (c.ev, c.set) == r) then sl.hardRows else sl.hardRows ++ [r]
                    maint := if scrub && !(sl.copies.any fun c => (c.ev, c.set) == r) then { sl.maint with rows := sl.maint.rows ++ [r] } else sl.maint }
      | none => s

/-- The lowest remap word of a tier that is neither valid nor bad, and not about to be used (R368). -/
def State.freeRemap (s : State) (h : Nat) (ev : Bool) : Option Nat :=
  (List.range (if ev then 32 else 16)).find? fun k =>
    let o := oSl h ((if ev then 0x400 else 0x300) + 8 * k)
    !s.flag o 0 && !s.flag o 1 && !((s.sl h).copies.any fun c => c.ev == ev && c.k == k)

/-- Copy a row to a spare row: every correctable record corrected, the others as they are (R368); the flip mask meets the first word of an
on-die row (R378). DEDUCED, log entry 18. -/
def State.copyRow (s : State) (h : Nat) (ev : Bool) (set old new : Nat) : State :=
  let ways := List.range 16
  let src : Tbl Entry := if ev then (s.sl h).evgan else (s.sl h).ondie
  let word := fixEntry (tget 0 src (16 * old))
  let (first, s) := if ev then (word, s) else s.flipWord h (set / 1024) word
  let copied (t : Tbl Entry) : Tbl Entry :=
    tputD 0 (16 * new) first (ways.foldl (fun t w => tputD 0 (16 * new + w) (fixEntry (tget 0 src (16 * old + w))) t) t)
  s.updSl h fun sl =>
    if ev then
      { sl with
        evgan := copied sl.evgan
        replEv := tputD 0 new (tget 0 sl.replEv old) sl.replEv
        heat := ways.foldl (fun t w => tputD 0 (16 * new + w) (tget 0 sl.heat (16 * old + w)) t) sl.heat
        wbuf := sl.wbuf.map fun b => if b.1 / 16 = old then (16 * new + b.1 % 16, b.2) else b }
    else { sl with ondie := copied sl.ondie, replOn := tputD 0 new (tget 0 sl.replOn old) sl.replOn }

/-- Remap a set to a spare row; a spare row that the set used until now is bad (R366, R368). DEDUCED, log entry 18. -/
def State.remap (s : State) (h : Nat) (ev : Bool) (set k source : Nat) : State :=
  let total := if ev then Config.evganSets else Config.ondieSets
  let base := if ev then 0x400 else 0x300
  let old := s.row h ev set
  let s := if total ≤ old then (s.setFlag (oSl h (base + 8 * (old - total))) 0 false).setFlag (oSl h (base + 8 * (old - total))) 1 true else s
  let o := oSl h (base + 8 * k)
  let s := (s.copyRow h ev set old (total + k)).setReg o ((BitVec.ofNat 64 (set * 16 + source * 4)) ||| 1)
  s.raiseSl h 40 source (setDetail set (if ev then 1 else 0))

/-- ROW_REMAP: the remap of the oldest hard-failed row begins, or with no remap word free its bank fails (R368, R370). An Evgan row costs a
maintenance access now and another when its spare row is written. DEDUCED, log entry 18. -/
def execRowRemap (h : Nat) (s : State) : Outcome :=
  live s <| need (h < s.nSlices) <|
  match (s.sl h).hardRows with
  | [] => .next s
  | (ev, set) :: rest =>
    let e := s.engine h
    let cost := if ev then 1 else 0
    when' (s.inService && s.rangeOpen h && s.selvTurn h (.remap ev set) && s.evRoom h cost) s <|
      let scrub := (s.sl h).maint.rows.contains (ev, set)
      let s := ((s.useSelvedge e).useLate h cost).updSl h fun sl =>
        { sl with hardRows := rest, maint := { sl.maint with rows := sl.maint.rows.filter fun r => r != (ev, set) } }
      match s.freeRemap h ev with
      | some k => s.updSl h fun sl => { sl with copies := sl.copies ++ [{ ev := ev, set := set, k := k, source := 2, start := s.frame, scrub := scrub }] }
      | none =>
        s.bankFailure h (if ev then 4 + set / 2048 else set / 1024)

/-- The remaps whose spare rows are written at the end of this frame: on-die in their frame F, Evgan in F + 2 (R368); each is counted, raises
its event and makes a fault record due (R547). DEDUCED, log entry 18. -/
def State.endCopies (s : State) (h : Nat) : State :=
  let done (c : RowCopy) : Bool := c.start + (if c.ev then 2 else 0) ≤ s.frame
  ((s.sl h).copies.filter done).foldl (fun s c =>
    let s := (s.updSl h fun sl => { sl with copies := sl.copies.erase c }).remap h c.ev c.set c.k c.source
    let s := s.faultDue (72 * h + 40) c.source (setDetail c.set (if c.ev then 1 else 0))
    if c.scrub then s.incFld (oSl (s.engine h) 0x80) 60 4 1 else s) s

/-- Evgan accesses of a frame's spare rows (R368). DEDUCED, log entry 18. -/
def Slice.copyCost (sl : Slice) (frame : Nat) : Nat := (sl.copies.filter fun c => c.ev && c.start + 2 == frame).length

/-! The placement loop. -/

/-- No staged entry waits for a way of an Evgan set (R226). -/
def State.noStaged (s : State) (h set : Nat) : Bool :=
  !((List.range Config.stageEntries).any fun i =>
    let g := s.stageAt h i
    g.used && !isFree g.word && setE (sectorFrom (eTag g.word) g.set) == set)

/-- The lowest free unlocked way of a set (R231). -/
def State.freeUnlocked (s : State) (h : Nat) (ev : Bool) (set : Nat) : Option Nat :=
  (List.range 16).find? fun w => !s.wayLocked ev w && s.wayFree h ev set w

/-- The on-die victim of a promotion (R231): unlocked, no line locked. -/
def State.demotee (s : State) (h set : Nat) : Option Nat :=
  s.victim h false set ((List.range 16).filter fun w =>
    let e := s.wayAt h false set w
    !s.wayLocked false w && !isFree e && tagOk e && !s.sectorLocked h (sectorFrom (eTag e) set))

/-- The move that the engine plans for a sector (R231). -/
def State.planMove (s : State) (h : Nat) (x : SectorAddr) : Move :=
  let on := setD x
  let free := s.freeUnlocked h false on
  let vic := if free.isSome then none else s.demotee h on
  let dem := vic.map fun w => sectorFrom (eTag (s.wayAt h false on w)) on
  let tow := dem.bind fun y => if s.noStaged h (setE y) then s.freeUnlocked h true (setE y) else none
  match s.find h x with
  | some (.evgan set w) =>
    { sector := x, start := s.frame, evSet := set, evWay := w, onSet := on, onWay := free.or vic, demote := dem, toWay := tow
      dirty := s.sectorLocked h x || s.wayLocked true w }
  | _ => { sector := x, start := s.frame, evSet := 0, evWay := 0, onSet := on, onWay := none, demote := none, dirty := true }

/-- PLACEMENT_MOVE_START: the placement engine starts a move for the head of the promotion queue (R231, R236). -/
def execPlacementMoveStart (h : Nat) (s : State) : Outcome :=
  live s <| need (h < s.nSlices) <|
  match (s.sl h).promote, (s.sl h).move with
  | x :: _, none =>
    when' (s.inService && s.rangeOpen h && s.placing h && s.placeRoom h 4) s <|
      let m := s.planMove h x
      let s := (s.useLate h 4).readRepl h false m.onSet
      s.updSl h fun sl => { sl with move := some m }
  | _, _ => .next s

/-- Put a word into an Evgan way by a placement move, past the write buffer, whose drain alone the flip mask meets (R378). -/
def State.putEvgan (s : State) (h set way : Nat) (e : Entry) : State :=
  let s := s.zeroSet h true set
  let key := 16 * s.row h true set + way
  s.updSl h fun sl =>
    { sl.wordWritten (.evgan set way) with evgan := tputD 0 key e sl.evgan, wbuf := sl.wbuf.filter fun w => w.1 != key, heat := tdel key sl.heat }

/-- The way of the demotion's target set at the end of a move, none if it has none (R226, R231, R232). -/
def State.demoteTo (s : State) (h : Nat) (m : Move) (x : SectorAddr) : Option Nat :=
  if !s.noStaged h (setE x) then none
  else match m.toWay with
    | some w => if !s.wayLocked true w && s.wayFree h true (setE x) w then some w else s.freeUnlocked h true (setE x)
    | none => s.freeUnlocked h true (setE x)

/-- A move ends: it is committed, and takes effect from the next frame, or cancelled (R205, R220, R231, R232). DEDUCED, log entry 29. That it
is also cancelled, and counted, when the way found has been taken meanwhile, when the sector has left its Evgan way or when a way of it is
locked: DESIGN CHOICE, log entry 44. -/
def State.finishMove (s : State) (h : Nat) (m : Move) : State :=
  let s := s.updSl h fun sl => { sl with move := none, promote := sl.promote.filter fun x => x != m.sector }
  let cancel := s.incFld (oSl (s.engine h) 0x40) 24 24 1
  match m.onWay with
  | none => cancel
  | some w =>
    let e := s.wayAt h true m.evSet m.evWay
    let v := s.wayAt h false m.onSet w
    let clean := !m.dirty && !isFree e && sectorFrom (eTag e) m.evSet == m.sector && !s.wayLocked true m.evWay && !s.wayLocked false w &&
      !s.sectorLocked h m.sector
    let dst := match m.demote with | none => some 0 | some x => if s.sectorLocked h x then none else s.demoteTo h m x
    let fits := match m.demote with
      | none => s.wayFree h false m.onSet w
      | some x => !isFree v && sectorFrom (eTag v) m.onSet == x
    match dst with
    | none => cancel
    | some tw =>
      if !clean || !fits then cancel
      else
        let (e, s) := s.moveRead h (.evgan m.evSet m.evWay)
        let s := match m.demote with
          | none => s
          | some x =>
            let (v, s) := s.moveRead h (.ondie m.onSet w)
            ((s.putEvgan h (setE x) tw v).touch h true (setE x) tw true).entryMoved h (.ondie m.onSet w) (.evgan (setE x) tw) x v
        let s := (s.putEvgan h m.evSet m.evWay 0)
        let s := ((s.putEntry h (.ondie m.onSet w) e).touch h false m.onSet w true).entryMoved h (.evgan m.evSet m.evWay) (.ondie m.onSet w) m.sector e
        s.incFld (oSl (s.engine h) 0x40) 0 24 1

/-- PLACEMENT_MOVE_COMMIT: a move ends at the end of the frame two frames after its start (R231, R232). -/
def execPlacementMoveCommit (h : Nat) (s : State) : Outcome :=
  live s <| need (h < s.nSlices) <|
  match (s.sl h).move with
  | none => .next s
  | some m => when' (m.start + 2 ≤ s.frame && s.rangeOpen h) s (s.updSl h fun sl => { sl with move := some { m with ending := true } })

/-- The move that ends in this frame, if any, ends after the record writes of the frame (R231). -/
def State.endMove (s : State) (h : Nat) : State :=
  match (s.sl h).move with
  | some m => if m.ending then s.finishMove h m else s
  | none => s

/-- DECAY_VISIT: the decay walker lowers the heat of one Evgan set (R228). The next visit is due DECAY frames after this one, although this
one came late for want of budget: DESIGN CHOICE, log entry 44. -/
def execDecayVisit (h : Nat) (s : State) : Outcome :=
  live s <| need (h < s.nSlices) <|
  when' (s.inService && s.rangeOpen h && s.placing h && (s.sl h).decayDue ≤ s.frame && s.placeRoom h 1) s <|
    let set := (s.sl h).decaySet
    let s := foldSt (List.range 16) (fun s w => s.readHeat h set w) (s.useLate h 1)
    let keys := (List.range 16).map fun w => 16 * s.row h true set + w
    s.updSl h fun sl =>
      let sl := keys.foldl (fun (sl : Slice) i => if sl.heatAt i = 0 then sl else sl.putHeat i (sl.heatAt i - 1)) sl
      { sl with decaySet := (set + 1) % Config.evganSets, decayDue := s.frame + max 1 (s.fld oFilter 16 8) }

/-- The threshold after a window (R229). -/
def thetaNext (target on ev theta : Nat) : Nat :=
  if on + ev = 0 then theta
  else if 100 * on < target * (on + ev) then max (theta - 1) 1
  else if target * (on + ev) < 100 * on then min (theta + 1) 7
  else theta

/-- The window of 4,096 frames closes at the end of this frame, and has not closed yet (R229). -/
def State.placeDue (s : State) (h : Nat) : Bool :=
  s.inService && s.rangeOpen h && s.placing h && s.frame % 4096 == 4095 && (s.sl h).windows ≤ s.frame / 4096

/-- The window closes: the threshold follows the hits that it counted, and all three are published (R229). -/
def State.placeClose (s : State) (h : Nat) : State :=
  if !s.placeDue h then s
  else
    let sl := s.sl h
    let th := thetaNext (min 100 (s.fld oFilter 8 7)) sl.hOn sl.hEv sl.theta
    let o := oSl h 0x38
    let s := if s.sliceFailed h then s else ((s.setFld o 0 3 th).setFld o 8 17 sl.hOn).setFld o 32 17 sl.hEv
    s.updSl h fun sl => { sl with theta := th, hOn := 0, hEv := 0, windows := s.frame / 4096 + 1 }

/-- PLACEMENT_WINDOW_CLOSE: the window of 4,096 frames closes at the end of this frame (R229). -/
def execPlacementWindowClose (h : Nat) (s : State) : Outcome :=
  live s <| need (h < s.nSlices) <| when' (s.placeDue h) s (s.lapseAt (.place h))

/-! Memory initialization and debug. -/

/-- MEMINIT_TRANSACTION: a memory-initialization transaction starts on the next sector of the range (R531). DEDUCED, log entry 36. -/
def execMeminitTransaction (p : Pass) (s : State) : Outcome :=
  let h := p.slice
  live s <| need (h < s.nSlices) <|
  match (s.sl h).initFound with
  | [] => .next s
  | x :: rest =>
    let e := s.engine h
    when' (s.inService && s.rangeOpen h && (s.homeTag h).isSome && s.selvTurn h (.init x)) s <|
      let s := s.useSelvedge e
      s.recorded false ((s.updSl h fun sl => { sl with initFound := rest }).homeIssue p.hdrFail h .meminit (lineIn x 0) 4 none)

/-- The words of a stored word for LZ_DBG_DATA (R533). An INDEX beyond the array counts modulo its size: DESIGN CHOICE, log entry 44. -/
def dbgWords (x : BitVec 256) (check : BitVec 32) : List Reg :=
  [bits x 0 64, bits x 64 64, bits x 128 64, bits x 192 64, check.setWidth 64]

/-- DEBUG_READ: the started read takes a selvedge slot at the debug rank; the word is read raw (R533). -/
def execDebugRead (h : Nat) (s : State) : Outcome :=
  live s <| need (h < s.nSlices) <|
  let r := s.reg oDbg
  let arr := (bits r 4 2).toNat
  let idx := (bits r 6 14).toNat
  let way := (bits r 20 4).toNat
  let sl := s.sl h
  let e := s.engine h
  let cost := if arr = 1 then 1 else 0
  let word : BitVec 256 × BitVec 32 := match arr with
    | 0 => ((s.wayAt h false (idx % Config.ondieSets) way).setWidth 256, 0)
    | 1 => ((s.wayAt h true (idx % Config.evganSets) way).setWidth 256, 0)
    | 2 => ((s.stageAt h (idx % 8)).word.setWidth 256, 0)
    | _ =>
      let w := tget 0 sl.journal (idx % 1024)
      (w, Config.journalCheck w ^^^ (tget 0 sl.jflips (idx % 1024)).setWidth 32)
  when' (s.inService && s.bus.dbgStart && (bits r 0 4).toNat = h && s.selvedge e 6 && s.evRoom h cost) s <|
    let s := (s.useSelvedge e).useLate h cost
    { s with bus := { s.bus with dbgStart := false, debug := some (h, dbgWords word.1 word.2, 0) } }

end Sys2Proof.Machine
end

