-- ==== Sys2Proof/Machine/Ports.lean ====
section
/-! DEFINITION. Requests at the ports: the ingress checks, the unhomed completion, the streaming detector, the credits of a lane,
the stream tracker, and the sampling of a request by its slice (R33 to R35, R46 to R51, R189, R190, R249, R268, R292, R319,
R326 to R333, R399, R440, R444). -/

namespace Sys2Proof.Machine

/-! Unhomed addresses. -/

/-- The completion of a request for an unhomed address (R48, R88). It has no home and no tag: HTID is 0 (R74), and so are HSLICE and TEPOCH,
DESIGN CHOICE, log entry 40. -/
def unhomedCmp (r : Req) : Cmp :=
  let op : CmpOp := match r.op with
    | .rdShared | .rdOwn | .rdCur => .cmpData
    | .atomNear | .atomFar => .cmpAtom
    | .upgrade | .claim | .agentSleep => .cmpGo
    | .evictClean => .cmpEvict
    | .wbDirty | .wrFull | .wrPart | .wrStream | .fence => .cmpWr
  { op := op, dest := r.src, rtid := r.rtid, status := 1, poison := (match op with | .cmpData | .cmpAtom => true | _ => false) }

/-- The request names a line that is not homed (R46). -/
def State.unhomed (s : State) (r : Req) : Bool := r.op != .agentSleep && r.op != .fence && !s.homed r.addr

/-- Complete a request for an unhomed address in the next frame and raise the event (R47, R48, R50). -/
def State.completeUnhomed (s : State) (r : Req) : State :=
  (s.send (s.frame + 1) (portOf r.nc r.src) (.cmp (unhomedCmp r))).raise 20 0 (lineDetail (lineOf r.addr) r.src 0)

/-! The streaming detector (R319). -/

/-- STREAM_GAP in force. -/
def State.streamGap (s : State) : Nat := max 1 (s.fld oIowr 16 12)

/-- RUN of an agent. -/
def State.run (s : State) (a : Nat) : Nat := s.fld (oAg a 0x28) 0 8

/-- The agent is streaming: its claims are marked. -/
def State.streaming (s : State) (a : Nat) : Bool := s.fld oIowr 8 8 != 0 && s.fld oIowr 8 8 < s.run a

/-- The tenant that a request is served as (R54). -/
def State.servedAs (s : State) (r : Req) : Nat := if s.flag (oTn r.tenant 0) 0 then r.tenant else 0

/-- A `Claim` of a coherent I/O agent meets the detector: whether it is marked. DEDUCED, log entry 23. -/
def State.detect (s : State) (r : Req) : Bool × State :=
  if r.op = .claim && !r.nc && 16 ≤ r.src && s.priv (s.servedAs r) then
    let g := s.ag r.src
    let run := if 0 < s.run r.src && r.addr == g.last + 1 then min (s.run r.src + 1) 255 else 1
    let s := (s.setFld (oAg r.src 0x28) 0 8 run).updAg r.src fun g => { g with last := r.addr, idle := 0 }
    let m := s.streaming r.src
    (m, if m then s.incFld (oAg r.src 0x28) 16 15 1 else s)
  else (false, s)

/-- The detector's count of idle frames at an edge. -/
def State.detectEdge (s : State) (a : Nat) : State :=
  let s := s.updAg a fun g => { g with idle := min (g.idle + 1) 4095 }
  if s.streamGap ≤ (s.ag a).idle then s.setFld (oAg a 0x28) 0 8 0 else s

/-- STREAM_GAP_EXPIRY: STREAM_GAP frames have passed without a `Claim`, and the run ends (R319). -/
def execStreamGapExpiry (a : Nat) (s : State) : Outcome :=
  live s <| need (16 ≤ a && a < 24) <|
  when' (s.streamGap ≤ (s.ag a).idle) s (s.setFld (oAg a 0x28) 0 8 0)

/-! Injection (R292, R293). -/

/-- The wait queue that a request without a credit needs is full (R292). -/
def State.queueFull (s : State) (r : Req) : Bool :=
  let h := s.homeOf r
  let x := s.lane r.lane
  if r.cls = 0 then !(0 < s.laneC0 r.lane h && !x.waitC0.any fun n => n.home == h) && 8 ≤ x.waitC0.length
  else !(0 < s.laneGen r.lane h && !x.waitGen.any fun n => n.home == h) && 8 ≤ x.waitGen.length

/-- A request is injected toward its slice, or enters its lane's wait queue (R292). -/
def State.inject (s : State) (r : Req) : State :=
  let h := s.homeOf r
  let n : NetReq := { dest := s.phys h, home := h, req := r }
  let x := s.lane r.lane
  if r.cls = 0 then
    if 0 < s.laneC0 r.lane h && !x.waitC0.any fun n => n.home == h then (s.addCredit r.lane h true (-1)).injectReq n
    else s.setLane r.lane { x with waitC0 := x.waitC0 ++ [n] }
  else
    if 0 < s.laneGen r.lane h && !x.waitGen.any fun n => n.home == h then (s.addCredit r.lane h false (-1)).injectReq n
    else s.setLane r.lane { x with waitGen := x.waitGen ++ [n] }

/-! The stream tracker (R326 to R332). -/

/-- The stream of a requester. -/
def Tracker.stream (k : Tracker) (r : Nat) : Option Stream := k.streams.find? fun x => x.req == r

/-- Store a stream in place of the requester's. -/
def Tracker.setStream (k : Tracker) (x : Stream) : Tracker :=
  if k.streams.any fun y => y.req == x.req then { k with streams := k.streams.map fun y => if y.req = x.req then x else y }
  else { k with streams := k.streams ++ [x] }

/-- The stream that has had nothing in flight for longest; of several, the lowest requester ID (R326). -/
def Tracker.idlest (k : Tracker) : Option Stream :=
  minBy (fun x => x.idleFrom * 1024 + x.req) (k.streams.filter fun x => x.inflight.isEmpty)

/-- Make room for a new stream; `none`: all 64 have writes in flight. -/
def Tracker.room (k : Tracker) : Option Tracker :=
  if k.streams.length < 64 then some k
  else k.idlest.map fun x => { k with streams := k.streams.filter fun y => y.req != x.req }

/-- A sequence number has been passed by a frontier (R328, R329). -/
def Stream.passed (x : Stream) (q : BitVec 16) : Bool := (x.next - x.frontier).toNat ≤ (q - x.frontier).toNat

/-- A write is accepted: its sequence number is in flight and NEXT is the one after it (R327). -/
def Stream.accept (x : Stream) (q : BitVec 16) : Stream :=
  { x with next := q + 1, frontier := if x.next = q then x.frontier else q, inflight := x.inflight ++ [q] }

/-- The tracker accepts a write: an unhomed one is reported ready (R51, R330), another is injected. -/
def State.acceptWrite (s : State) (x : Stream) (r : Req) : State :=
  let h := hubOf r.lane
  let k := (s.hub h).setStream (x.accept r.seq)
  if s.unhomed r then
    s.setHub h { k with reports := k.reports ++ [(r.src, r.seq, s.frame)] }
  else (s.setHub h k).inject r

/-- The lane stalls on a message (R326 to R328). -/
def State.stallLane (s : State) (h : Nat) (w : Stall) (r : Req) : State :=
  s.setHub h { s.hub h with stall := some w, waiting := some r }

/-- The tracker takes a `WrStream` (R326 to R328). -/
def State.trackWrite (s : State) (r : Req) : State :=
  let h := hubOf r.lane
  let k := s.hub h
  match k.stream r.src with
  | none =>
    match k.room with
    | none => s.stallLane h .full r
    | some k => (s.setHub h k).acceptWrite { req := r.src, next := r.seq, frontier := r.seq, idleFrom := s.frame } r
  | some x =>
    if r.seq != x.next then
      let o := oStream h
      let s := ((s.incFld o 8 16 1).noteFld o 24 10 r.src).raise 23 h (BitVec.ofNat 64 r.src |||
        (x.next.setWidth 64 <<< 10) ||| (r.seq.setWidth 64 <<< 26))
      if x.inflight.isEmpty then s.acceptWrite { x with next := r.seq, frontier := r.seq } r else s.stallLane h (.broken r.src) r
    else if 1024 ≤ x.inflight.length then s.stallLane h (.window r.src) r
    else s.acceptWrite x r

/-- The tracker stamps a `Fence`, or marks it clear (R332). -/
def State.trackFence (s : State) (r : Req) : State :=
  let h := hubOf r.lane
  let k := s.hub h
  match k.stream r.src with
  | some x =>
    if x.inflight.isEmpty then s.inject { r with clear := true }
    else
      let f := (r.src, r.rtid, x.next - 1)
      let passed := x.passed (x.next - 1)
      (s.setHub h (if passed then k else { k with fences := k.fences ++ [f] })).inject { r with seq := x.next - 1 }
  | none => s.inject { r with clear := true }

/-- A stalled lane goes on when the stall's reason is gone (R326 to R328); an unhomed write needs no wait queue (R51). -/
def State.unstall (s : State) (h : Nat) : State :=
  let k := s.hub h
  match k.stall, k.waiting with
  | some w, some r =>
    let free := match w with
      | .full => k.streams.any fun x => x.inflight.isEmpty
      | .broken q => (match k.stream q with | some x => x.inflight.isEmpty | none => true)
      | .window q => (match k.stream q with | some x => x.inflight.length < 1024 | none => true)
    if !free || (!s.unhomed r && s.queueFull r) then s
    else
      let s := s.setHub h { k with stall := none, waiting := none }
      match w, k.stream r.src with
      | .broken _, some x => s.acceptWrite { x with next := r.seq, frontier := r.seq } r
      | _, _ => s.trackWrite r
  | _, _ => s

/-! Request rows. -/

/-- The lane takes a VC0 request that its checks have passed (R47, R292, R319, R326, R332). An unhomed stream write is completed whether or
not the tracker accepts it now (R47). -/
def State.takeRequest (s : State) (r : Req) : State :=
  if r.op = .wrStream then (if s.unhomed r then s.completeUnhomed r else s).trackWrite r
  else if r.op = .fence then s.trackFence r
  else
    let (m, s) := s.detect r
    if s.unhomed r then s.completeUnhomed r else s.inject { r with marked := m }

/-- A lane takes a request that its checks have passed, or stops with it while the wait queue that it needs is full (R292). -/
def State.offerRequest (s : State) (r : Req) : State :=
  if !s.unhomed r && s.queueFull r then s.setLane r.lane { s.lane r.lane with blocked := some r } else s.takeRequest r

/-- A lane takes no VC0 message (R292, R326); a non-caching lane serves from its hub's link-up on (R87). -/
def State.laneStopped (s : State) (l : Nat) : Bool :=
  (s.lane l).blocked.isSome || (isNcLane l && ((s.hub (hubOf l)).stall.isSome || !s.hubUp.getLsbD (hubOf l)))

/-- What a port does with a request of a row (R33, R34, R110, R169, R444); the lane takes none while it is stopped.
DEDUCED, log entry 20. -/
def requestRow (op : ReqOp) (a : Arrival) (s : State) : Outcome :=
  live s <| need (a.lane < 24) <|
  let f := headOf a.flits
  if hOp f != op.code then .next (s.stray a)
  else
    let r := parseReq op a s.frame
    if s.laneStopped a.lane || !s.inService then .next s
    else match s.ingress a with
      | 0 =>
        match (if isNcLane a.lane then none else s.closedAgent a r.src (s.homeOf r)) with
        | some t => .next t
        | none => .next (s.offerRequest r)
      | n => .next (s.malformed a.lane n f)

/-- The message that stopped a lane is taken once its wait queue has room (R292). -/
def State.unblock (s : State) (l : Nat) : State :=
  match (s.lane l).blocked with
  | some r => if s.queueFull r then s else (s.setLane l { s.lane l with blocked := none }).takeRequest r
  | none => s

/-- LANE_CREDIT_RETURN: the oldest credit of the pool on its way from the slice reaches the lane (R293), and waiting requests of
the pool are injected (R292). -/
def execLaneCreditReturn (lane k : Nat) (c0 : Bool) (s : State) : Outcome :=
  live s <| need (lane < 24 && k < s.nSlices) <|
  when' ((s.sl k).returning.contains (lane, c0)) s <|
    let s := s.updSl k fun sl => { sl with returning := sl.returning.erase (lane, c0) }
    let s := s.addCredit lane k c0 1
    (injectFrom s lane c0 (if c0 then (s.lane lane).waitC0 else (s.lane lane).waitGen) []).unblock lane

/-- RD_SHARED: a `RdShared` arrives at a port (R149). -/
def execRdShared (a : Arrival) (s : State) : Outcome := requestRow .rdShared a s
/-- RD_OWN: a `RdOwn` arrives at a port (R149). -/
def execRdOwn (a : Arrival) (s : State) : Outcome := requestRow .rdOwn a s
/-- UPGRADE: an `Upgrade` arrives at a port (R149). -/
def execUpgrade (a : Arrival) (s : State) : Outcome := requestRow .upgrade a s
/-- RD_CUR: a `RdCur` arrives at a port (R149). -/
def execRdCur (a : Arrival) (s : State) : Outcome := requestRow .rdCur a s
/-- CLAIM: a `Claim` arrives at a port (R149, R319). -/
def execClaim (a : Arrival) (s : State) : Outcome := requestRow .claim a s
/-- ATOM_NEAR: an `AtomNear` arrives at a port (R301). -/
def execAtomNear (a : Arrival) (s : State) : Outcome := requestRow .atomNear a s
/-- ATOM_FAR: an `AtomFar` arrives at a port (R305). -/
def execAtomFar (a : Arrival) (s : State) : Outcome := requestRow .atomFar a s
/-- EVICT_CLEAN: an `EvictClean` arrives at a port (R155). -/
def execEvictClean (a : Arrival) (s : State) : Outcome := requestRow .evictClean a s
/-- AGENT_SLEEP: an `AgentSleep` arrives at a port (R440). -/
def execAgentSleep (a : Arrival) (s : State) : Outcome := requestRow .agentSleep a s
/-- WR_FULL: a `WrFull` arrives at a port (R316). -/
def execWrFull (a : Arrival) (s : State) : Outcome := requestRow .wrFull a s
/-- WR_PART: a `WrPart` arrives at a port (R317). -/
def execWrPart (a : Arrival) (s : State) : Outcome := requestRow .wrPart a s
/-- WR_STREAM: a `WrStream` arrives at a port and meets the tracker (R327). -/
def execWrStream (a : Arrival) (s : State) : Outcome := requestRow .wrStream a s
/-- FENCE: a `Fence` arrives at a port and meets the tracker (R332, R333). -/
def execFence (a : Arrival) (s : State) : Outcome := requestRow .fence a s

/-! Sampling (R268, R399). -/

/-- The weir samples a request; a transaction that absorbs it goes on (R151, R268). DEDUCED, log entry 21. -/
def State.weirSampleOn (s : State) (e h : Nat) (r : Req) : State :=
  let ab := if r.op = .wbDirty then s.absorber h (lineOf r.addr) r.src else none
  let s := s.weirSample e h r
  match ab with
  | some t => (s.tookFrom r.src).goOn h t
  | none => s

/-- A weir samples a request of a logical slice; while its range is not open, the request is only stored (R399). -/
def State.sample (s : State) (e h : Nat) (r : Req) : State :=
  if s.sliceFailed h && !(s.sl h).tk.opened then
    s.updSl h fun sl => { sl with tk := { sl.tk with waiting := sl.tk.waiting ++ [{ req := r, home := h, c0pool := r.cls == 0 && r.op != .wbDirty }] } }
  else s.weirSampleOn e h r

/-- The entries of an agent in the writeback store of a slice are all taken (R189, R190). DEDUCED, log entry 21. -/
def State.wbFull (s : State) (h a : Nat) : Bool :=
  8 ≤ ((s.stored h).filter fun q => q.req.op == .wbDirty && q.req.src == a).length

/-- WB_DIRTY: a `WbDirty` arrives at a port, and travels on VC3 to its slice (R154, R187). DEDUCED, log entry 21. -/
def execWbDirty (a : Arrival) (s : State) : Outcome :=
  live s <| need (a.lane < 24) <|
  let f := headOf a.flits
  if hOp f != ReqOp.wbDirty.code || !s.inService then .next (s.stray a)
  else match s.ingress a with
    | 0 =>
      let r := parseReq .wbDirty a s.frame
      match s.closedAgent a r.src (s.homeOf r) with
      | some t => .next t
      | none =>
        if s.unhomed r then .next (s.completeUnhomed r)
        else
          let h := s.homeOf r
          .next (s.injectReq { dest := s.phys h, home := h, req := r })
    | n => .next (s.malformed a.lane n f)

/-- The requests that a slice is to sample of those that reached it, or its failed buddy, in an earlier frame (R249, R481). -/
def State.samplesDue (s : State) (k : Nat) : List NetReq :=
  s.net.filter fun n => s.weirOf n == k && !s.pairLost n.home && (match n.reached with | some f => f < s.frame | none => false)

/-- The order in which one frame's requests are sampled (R269). -/
def NetReq.rank (n : NetReq) : Nat := 2 * n.req.lane + (if n.req.op = .wbDirty then 1 else 0)

/-- The next request that a slice samples (R269). DESIGN CHOICE, log entry 9. -/
def State.nextSample (s : State) (k : Nat) : Option NetReq := minBy NetReq.rank (s.samplesDue k)

/-- A request that reaches its slice after its agent's sluice has closed is discarded there (R169, R444, R455). DEDUCED, log entry 20. -/
def State.lateRequest (s : State) (h : Nat) (r : Req) : State :=
  (s.freeEntry h { req := r, home := h, c0pool := r.cls == 0 }).closedLate h r.src r.lane r.hdr

/-- A slice takes a request off its ingress: a `WbDirty` that finds its agent's entries of the writeback store taken is discarded (R190),
another request is sampled (R253, R268); an absorption whose record does not fit in the frame is put off with its sampling (R388).
DEDUCED, log entry 21. -/
def State.takeSample (s : State) (n : NetReq) : State :=
  let r := { n.req with flits := [] }
  let s := { s with net := s.net.erase n }
  if !(r.nc || s.sluice r.src) then s.lateRequest n.home r
  else if r.op = .wbDirty && s.wbFull n.home r.src then s.malformed r.lane 7 r.hdr
  else
    let u := s.sample (s.weirOf n) n.home r
    if s.fits false u then u else let d := s.recorded false u; { d with late := d.late ++ [.sample n] }

/-- REQUEST_SAMPLE: the slice samples the next request of those that reached it in an earlier frame, which came on the lane (R249, R253,
R268 to R270); before the refill of the frame none is sampled (R276). -/
def execRequestSample (k lane : Nat) (s : State) : Outcome :=
  live s <| need (k < s.nSlices && lane < 24) <|
  match s.nextSample k with
  | none => .next s
  | some n => when' (s.inService && !s.refillDue && n.req.lane = lane) s (s.takeSample n)

/-- A slice samples at the end of the frame what no command has sampled in it (R253). -/
def State.sampleRest (s : State) (k : Nat) : Nat → State
  | 0 => s
  | i + 1 => match s.nextSample k with | none => s | some n => (s.takeSample n).sampleRest k i

end Sys2Proof.Machine
end

