-- ==== Sys2Proof/Machine/Streams.lean ====
section
/-! DEFINITION. The release of posted writes in stream order (R329 to R331) and the notices of fences (R333). -/

namespace Sys2Proof.Machine

/-- The frontier moves past every consecutive sequence number that is ready (R329): the frontier, the numbers passed, the others. -/
def Stream.advance (x : Stream) : Nat → Stream × List (BitVec 16)
  | 0 => (x, [])
  | n + 1 =>
    if x.frontier ∈ x.ready && x.frontier ∈ x.inflight then
      let q := x.frontier
      let (y, l) := { x with frontier := q + 1, ready := x.ready.filter fun r => r != q }.advance n
      (y, q :: l)
    else (x, [])

/-- The stream write of a requester with a sequence number that awaits its notice, whatever a watchdog has made of it since it was ready
(R335): its slice and tag. -/
def State.awaiting (s : State) (r : Nat) (q : BitVec 16) : Option (Nat × Nat) :=
  (List.range s.nSlices).findSome? fun h =>
    ((s.sl h).txns.find? fun p => p.2.home.isNone && p.2.req.nc && p.2.req.op == .wrStream && p.2.req.src == r &&
      p.2.req.seq == q && !p.2.noticed && !p.2.cmpSent).map fun p => (h, p.1)

/-- A write becomes visible: it is no longer in flight (R328, R331). -/
def Stream.visible (x : Stream) (q : BitVec 16) (frame : Nat) : Stream :=
  let l := x.inflight.filter fun p => p != q
  { x with inflight := l, idleFrom := if l.isEmpty && !x.inflight.isEmpty then frame else x.idleFrom }

/-- A write is released in a frame; it is visible from the frame after it (R331). -/
def State.released (s : State) (h r : Nat) (q : BitVec 16) (frame : Nat) : State :=
  let k := s.hub h
  if (k.stream r).any (fun x => x.inflight.contains q) && !(k.released.any fun p => p.1 == r && p.2.1 == q) then
    s.setHub h { k with released := k.released ++ [(r, q, frame)] }
  else s

/-- The tracker sends the release notice for a sequence number that its frontier has passed (R329); a write with no transaction, to
an unhomed address, is released in the frame in which the notices arrive (R330). -/
def State.notify (s : State) (h r : Nat) (q : BitVec 16) : State :=
  match s.awaiting r q with
  | some (k, t) => s.upd k t fun x => { x with noticed := true, dAt := s.frame }
  | none => s.released h r q (s.frame + 1)

/-- A `Fence` of a requester with a stamp that has issued: its slice and tag. -/
def State.issuedFence (s : State) (r : Nat) (rtid : BitVec 10) (q : BitVec 16) : Option (Nat × Nat) :=
  (List.range s.nSlices).findSome? fun h =>
    ((s.sl h).txns.find? fun p => p.2.home.isNone && p.2.req.op == .fence && p.2.req.src == r && p.2.req.rtid == rtid &&
      p.2.req.seq == q && !p.2.req.clear && !p.2.noticed && !p.2.cmpSent).map fun p => (h, p.1)

/-- The tracker sends the notices of the fences whose stamp its frontier has passed (R333). -/
def State.notifyFences (s : State) (h r : Nat) : State :=
  let k := s.hub h
  match k.stream r with
  | none => s
  | some x =>
    let due := k.fences.filter fun f => f.1 == r && x.passed f.2.2
    let s := s.setHub h { k with fences := k.fences.filter fun f => !(f.1 == r && x.passed f.2.2) }
    due.foldl (fun s f =>
      match s.issuedFence f.1 f.2.1 f.2.2 with
      | some (e, t) => s.upd e t fun y => { y with noticed := true, dAt := s.frame }
      | none => s) s

/-- The tracker takes a ready report (R329, R333). -/
def State.takeReady (s : State) (h r : Nat) (q : BitVec 16) : State :=
  let k := s.hub h
  match k.stream r with
  | none => s
  | some x =>
    let (y, l) := { x with ready := if q ∈ x.ready then x.ready else x.ready ++ [q] }.advance 1024
    let s := s.setHub h (k.setStream y)
    (l.foldl (fun s q => s.notify h r q) s).notifyFences h r

/-- STREAM_READY_REPORT: the tracker takes the report of a ready stream write, in a frame after it became ready (R329). -/
def execStreamReadyReport (k t : Nat) (s : State) : Outcome :=
  live s <| need (k < s.nSlices && t < 1024) <|
  let x := s.txn k t
  when' (x.home.isNone && x.req.op = .wrStream && x.st = .orderwait && x.dAt < s.frame && !x.noticed) s
    (s.takeReady (hubOf x.req.lane) x.req.src x.req.seq)

/-- A stream write whose notice has arrived writes its record and sends `CmpWr` (R329, R331). -/
def State.endWrite (s : State) (h t : Nat) : State :=
  let x := s.txn h t
  if x.st = .orderwait && !x.cmpSent && !x.waitStage && !x.waitWbuf then
    match s.recordDone h t with
    | (true, s) => s.complete h t 0 false
    | (false, s) => s
  else s

/-- STREAM_RELEASE_NOTICE: the notice of a stream write arrives: it is released, writes its record and sends `CmpWr` (R329, R331). One that
a watchdog has aborted is released, and completes after its replay (R335). -/
def execStreamReleaseNotice (k t : Nat) (s : State) : Outcome :=
  live s <| need (k < s.nSlices && t < 1024) <|
  let x := s.txn k t
  when' (x.home.isNone && x.req.op = .wrStream && x.noticed && x.dAt < s.frame && !x.cmpSent && s.tagOpen k t) s
    (s.recordedFor k t ((s.released (hubOf x.req.lane) x.req.src x.req.seq s.frame).endWrite k t))

/-- FENCE_NOTICE: the notice of a `Fence` arrives and it completes (R333). -/
def execFenceNotice (k t : Nat) (s : State) : Outcome :=
  live s <| need (k < s.nSlices && t < 1024) <|
  let x := s.txn k t
  when' (x.home.isNone && x.req.op = .fence && x.st = .orderwait && x.noticed && x.dAt < s.frame && !x.cmpSent && s.tagOpen k t) s
    (s.recordedFor k t (s.complete k t 0 false))

/-- The tracker's work at the end of a frame: the reports of unhomed writes accepted in earlier frames (R330). DEDUCED, log entry 20. -/
def State.hubEdge (s : State) (h : Nat) : State :=
  let k := s.hub h
  let due := k.reports.filter fun p => p.2.2 < s.frame
  let s := s.setHub h { k with reports := k.reports.filter fun p => !(p.2.2 < s.frame) }
  due.foldl (fun s p => s.takeReady h p.1 p.2.1) s

/-- The start of a frame in a tracker: the writes released before it are visible (R331), and a stalled lane may go on (R326 to R328). -/
def State.hubStart (s : State) (h : Nat) : State :=
  let k := s.hub h
  let due := k.released.filter fun p => p.2.2 < s.frame
  let s := s.setHub h { k with released := k.released.filter fun p => !(p.2.2 < s.frame) }
  (due.foldl (fun s p =>
    match (s.hub h).stream p.1 with
    | some x => s.setHub h ((s.hub h).setStream (x.visible p.2.1 s.frame))
    | none => s) s).unstall h

end Sys2Proof.Machine
end

