-- ==== Sys2Proof/Machine/Agents.lean ====
section
/-! DEFINITION. Agents joining, sleeping and leaving: link events, the capability exchange, sleep, retirement, loss and its
handling (R110 to R116, R166 to R171, R345, R430 to R460). -/

namespace Sys2Proof.Machine

/-! What the slices hold of an agent. -/

/-- A request of the agent. -/
def Req.ofAgent (r : Req) (a : Nat) : Bool := !r.nc && r.src == a

/-- An eviction: `EvictClean` or `WbDirty`. -/
def Req.evict (r : Req) : Bool := r.op == .evictClean || r.op == .wbDirty

/-- The requests that a slice holds and that have not issued. -/
def Slice.unissued (sl : Slice) : List QReq := sl.c0q ++ sl.queued ++ sl.redHold ++ sl.tk.waiting

/-- The slices that serve. -/
def State.liveSlices (s : State) : List Nat := (List.range s.nSlices).filter fun h => !s.pairLost h

/-- Some slice holds a request of the agent that satisfies `p`: queued, held, waiting, issued or absorbed. -/
def State.holdsReq (s : State) (a : Nat) (p : Req → Bool) : Bool :=
  s.liveSlices.any fun h =>
    let sl := s.sl h
    (sl.unissued.any fun q => q.req.ofAgent a && p q.req) ||
    (sl.txns.any fun e => (e.2.home.isNone && e.2.req.ofAgent a && p e.2.req) || e.2.absorbed.any fun r => r.ofAgent a && p r)

/-- Some wait on the agent is open. -/
def State.awaits (s : State) (a : Nat) : Bool :=
  s.liveSlices.any fun h => (s.sl h).txns.any fun e => e.2.waits.any fun w => w.agent == a

/-- The agent's presence count is 0 in every slice (R127). -/
def State.absent (s : State) (a : Nat) : Bool := s.liveSlices.all fun h => s.presence h a == 0

/-- A message toward the agent leaves its slice in this frame or later, or is on its way through the network, the port's egress or its
bridge (R441, R450, R473, R478). -/
def State.egress (s : State) (a : Nat) : Bool :=
  (s.out.any fun m => m.port == .agent a && s.frame ≤ m.frame) || s.routers.holds fun f => f.agent == some a

/-! Link events. -/

/-- A cause of loss is sampled for an agent in SERVICE or RETIRING (R431). -/
def State.lossCause (s : State) (a c : Nat) : State :=
  s.updAg a fun g => { g with lossDue := if c ∈ g.lossDue then g.lossDue else g.lossDue ++ [c] }

/-- LINK_UP: the agent's link reports up (R430); the link of an I/O agent is its hub's, whose non-caching lane it puts in service (R87).
DEDUCED, log entry 20. -/
def execLinkUp (a : Nat) (s : State) : Outcome :=
  live s <| need (a < 24) <|
  let s := (s.setFlag (oAg a 0) 0 true).updAg a fun g => { g with upSince := true }
  let s := if 16 ≤ a then { s with hubUp := setBits s.hubUp (hubOf a) 1 1 } else s
  .next (if s.agSt a = agDown then s.setAgSt a agAwait else s)

/-- LINK_DOWN: the agent's link reports down (R431, R432). -/
def execLinkDown (a : Nat) (s : State) : Outcome :=
  live s <| need (a < 24) <|
  let s := s.setFlag (oAg a 0) 0 false
  .next (if s.sluice a then s.lossCause a 3 else if s.agSt a = agAwait then s.setAgSt a agDown else s)

/-- LINK_RETRAIN_PAUSE: the link of an agent's port pauses for a retrain in this frame: nothing leaves the bridge of the port, of an I/O agent's
hub on both lanes of the link (R473). It has no other effect; the contracts run on (R172, R433). DESIGN CHOICE, log entry 37. -/
def execLinkRetrainPause (a : Nat) (s : State) : Outcome :=
  live s <| need (a < 24) <|
  let p (q : Port) : Nat := 8 * q.place.1 + q.place.2
  let ports := p (.agent a) :: (if 16 ≤ a then [p (.nc (hubOf a))] else [])
  .next { s with routers := { s.routers with paused := s.routers.paused ++ ports.filter fun p => !s.routers.paused.contains p } }

/-- MEMORY_PORT_DOWN: a memory port reports down; after BLOCK_READY it is failed from the next edge (R345). -/
def execMemoryPortDown (p : Nat) (s : State) : Outcome :=
  live s <| need (p < 12) <|
  let s := s.setFlag oFill (40 + p) false
  .next (if s.inService && !s.memFailed.getLsbD p && !s.memDownDue.contains p then { s with memDownDue := s.memDownDue ++ [p] } else s)

/-- HP_SURPRISE: the pin of an I/O agent is sampled 1 (R431). DEDUCED, log entry 22. -/
def execHpSurprise (a : Nat) (s : State) : Outcome :=
  live s <| need (16 ≤ a && a < 24) <|
  let s := { s with hpSurprise := setBits s.hpSurprise (a - 16) 1 1 }
  .next (if s.sluice a then s.lossCause a 4 else s)

/-! Capability exchange (R110 to R116, R435 to R437). -/

/-- The revision that the block chooses for an offer; 0 refuses (R112). -/
def chooseRev (h : Header) : Nat :=
  let lo := (bits h 16 4).toNat
  let hi := (bits h 20 4).toNat
  if lo ≤ 3 && 3 ≤ hi then 3 else if lo ≤ 2 && 2 ≤ hi then 2 else 0

/-- The capabilities granted (R112). -/
def grantCaps (h : Header) : BitVec 3 := if chooseRev h = 3 then bits h 24 3 else 0

/-- The payload masks of a `CapAccept` (R114). -/
def State.offerMasks (s : State) : List (BitVec 40) :=
  (List.range 4).map fun n => if n = 3 && s.nBits = 3 then 0 else bits (s.reg (oMask n)) 0 40

/-- Answer an offer (R112 to R116, R436); the agent's messages are taken from the next frame (R437). A refused offer leaves REV and the
capability bits of an earlier grant as they are. DESIGN CHOICE, log entry 13; DESIGN CHOICE, log entry 40. -/
def State.answerOffer (s : State) (a : Nat) (h : Header) : State :=
  let rev := chooseRev h
  let caps := grantCaps h
  let s := s.send s.frame (.agent a) (.capAccept a rev caps s.offerMasks s.nBits)
  let s := s.updAg a fun g => { g with offer := none }
  if rev = 0 then
    ((s.setAgSt a agAwait).incFld (oAg a 0) 20 4 1).raise 21 0 (BitVec.ofNat 64 a)
  else
    let s := ((((s.setFlag (oAg a 0) 1 true).setFld (oAg a 0) 4 4 rev).setFld (oAg a 0) 8 3 caps.toNat).setFld (oAg a 0) 20 4 0)
    let s := (s.setFld (oAg a 0x10) 0 2 0).setAgSt a agService
    s.updAg a fun g => { g with took := false, expired := false, lossDue := [], intakeClosed := false, retire := .none, sleepGo := none, joining := true }

/-- Hold an offer in place of any held before (R436). -/
def State.holdOffer (s : State) (a : Nat) (h : Header) : State := s.updAg a fun g => { g with offer := some h }

/-- CAP_OFFER: a `CapOffer` arrives and is answered, held, or causes a loss (R435, R436, R444).
DESIGN CHOICE, log entry 13; DEDUCED, log entry 23. -/
def execCapOffer (m : Arrival) (s : State) : Outcome :=
  live s <| need (m.lane < 24) <|
  let f := headOf m.flits
  if hOp f != 0x2F || !s.inService then .next (s.stray m)
  else match s.ingress m with
    | 0 =>
      let a := hAgent f
      let st := s.agSt a
      let s' := (s.setFld (oAg a 0) 12 4 (bits f 20 4).toNat).setFld (oAg a 0) 16 4 (bits f 16 4).toNat
      if st = agDown then .next (s.malformed m.lane 6 f)
      else if st = agAwait then .next (s'.answerOffer a f)
      else if st = agLost then .next (s'.holdOffer a f)
      else if st = agSleeping || st = agRetired then
        if (s.ag a).upSince then .next ((s'.holdOffer a f).lossCause a 6) else .next (s.sluiceViolation a f)
      else .next ((s'.holdOffer a f).lossCause a 5)
    | n => .next (s.malformed m.lane n f)

/-! Sleep (R439 to R443). -/

/-- The conditions of R440 for granting sleep, at the end of frame D. -/
def State.maySleep (s : State) (h t a : Nat) (levels : BitVec 16) : Bool :=
  levels.getLsbD a && s.absent a && !s.awaits a && s.agSt a == agService &&
  !(s.liveSlices.any fun k =>
    let sl := s.sl k
    (sl.unissued.any fun q => q.req.ofAgent a) ||
    (sl.txns.any fun e => (!(k == h && e.1 == t) && e.2.home.isNone && e.2.req.ofAgent a) || e.2.absorbed.any fun r => r.ofAgent a) ||
    s.flag (oSl k 0x78) 24 || !s.flag (oSl k 0x28) 0 || sl.sweep.isSome || sl.sweepDue)

/-- An `AgentSleep` goes on: the decision at the end of frame D, then `CmpGo` in frame D + 3, or `Retry` in frame D + 1 (R440 to R442); a lost
agent receives neither (R456). -/
def State.sleepDecide (s : State) (h t : Nat) (levels : BitVec 16) : State :=
  let x := s.txn h t
  let a := x.req.src
  if x.cmpSent || !s.tagOpen h t then s
  else match x.granted with
    | some true => (s.updAg a fun g => { g with sleepGo := some s.frame }).complete h t 0 false
    | some false =>
      if x.reqLost || s.agSt a = agLost then (s.upd h t fun x => { x with cmpSent := true }).plan s.frame h t .release else
      let s := s.send s.frame (.agent a) (retryMsg x.req h (s.epoch h t) 3 (s.fld oAgentCtl 0 4))
      ((s.incFld (oAg a 0x20) 16 15 1).upd h t fun x => { x with cmpSent := true }).plan s.frame h t .release
    | none =>
      if x.reqLost || s.agSt a = agLost then (s.upd h t fun x => { x with cmpSent := true }).plan (s.frame + 1) h t .release
      else if s.maySleep h t a levels then
        let s := ((s.incFld (oAg a 0x20) 0 16 1).setAgSt a agSleeping).updAg a fun g => { g with upSince := false }
        (s.upd h t fun x => { x with granted := some true }).plan (s.frame + 3) h t .act
      else (s.upd h t fun x => { x with granted := some false }).plan (s.frame + 1) h t .act

/-- SLEEP_GRANT_RISE: PM_SLEEP_GRANT rises at the edge after the frame in which the sleep `CmpGo` left the bridge (R441). -/
def execSleepGrantRise (a : Nat) (s : State) : Outcome :=
  live s <| need (a < 16) <|
  match (s.ag a).sleepGo with
  | none => .next s
  | some f =>
    when' (f < s.frame && !s.egress a && s.agSt a = agSleeping && s.pmSleepReq.getLsbD a) s
      ({ s with pmGrant := setBits s.pmGrant a 1 1 }.updAg a fun g => { g with sleepGo := none })

/-- PM_SLEEP_REQ_FALL: PM_SLEEP_REQ is sampled 0, and PM_SLEEP_GRANT falls at the next edge; the sluice stays closed (R443). -/
def execPmSleepReqFall (a : Nat) (s : State) : Outcome :=
  live s <| need (a < 16) <|
  .next ({ s with pmSleepReq := setBits s.pmSleepReq a 1 0 }.updAg a fun g => { g with fallDue := true })

/-! Retirement (R450 to R452). -/

/-- HP_RETIRE_REQ: the pin is sampled 1; an agent in SERVICE enters RETIRING (R450). -/
def execHpRetireReq (a : Nat) (s : State) : Outcome :=
  live s <| need (16 ≤ a && a < 24) <|
  let s := { s with hpRetireReq := setBits s.hpRetireReq (a - 16) 1 1 }
  .next (if s.inService && s.agSt a = agService then (s.setAgSt a agRetiring).updAg a fun g => { g with retire := .drain } else s)

/-- HP_RETIRE_CANCEL: the pin is sampled 0 before the sluice closes; the retirement ends at the next edge (R450). -/
def execHpRetireCancel (a : Nat) (s : State) : Outcome :=
  live s <| need (16 ≤ a && a < 24) <|
  .next ({ s with hpRetireReq := setBits s.hpRetireReq (a - 16) 1 0 }.updAg a fun g => { g with permitDue := false })

/-- HP_PERMIT_FALL: the pin is sampled 0 with the agent retired or its loss handled, and HP_PERMIT falls at the next edge (R450). -/
def execHpPermitFall (a : Nat) (s : State) : Outcome :=
  live s <| need (16 ≤ a && a < 24) <|
  .next ({ s with hpRetireReq := setBits s.hpRetireReq (a - 16) 1 0 }.updAg a fun g => { g with fallDue := true, permitDue := false })

/-- An agent walk starts in every slice (R446, R448). -/
def State.startWalk (s : State) (a : Nat) : State :=
  foldSt s.liveSlices (fun s h => s.maintAdd h (.agentWalk a)) (s.setFlag oWalk 9 true)

/-- The walk of an agent runs or is queued somewhere. -/
def State.walking (s : State) (a : Nat) : Bool := s.maintAnywhere fun o => o == .agentWalk a

/-- RETIRE_REQUESTS_DRAINED: no slice holds a request of the retiring agent but evictions, and its walk starts (R450 steps 2, 3). -/
def execRetireRequestsDrained (a : Nat) (s : State) : Outcome :=
  live s <| need (16 ≤ a && a < 24) <|
  when' (s.agSt a = agRetiring && (s.ag a).retire = .drain && (s.ag a).intakeClosed && !s.holdsReq a fun r => !r.evict) s
    ((s.updAg a fun g => { g with retire := .walk }).startWalk a)

/-- The walk of a retiring agent is done, every presence count is 0 and no eviction is held (R450 step 4). -/
def State.mayRetire (s : State) (a : Nat) : Bool := !s.walking a && s.absent a && !s.holdsReq a fun q => q.evict

/-- RETIRE_SLUICE_CLOSE: the sluice of a retiring agent closes at the next edge, if the conditions of R450 step 4 hold there. -/
def execRetireSluiceClose (a : Nat) (s : State) : Outcome :=
  live s <| need (16 ≤ a && a < 24) <|
  let r := (s.ag a).retire
  when' (s.agSt a = agRetiring && (r = .walk || r = .evictions)) s
    (s.updAg a fun g => { g with retire := .closed })

/-- HP_PERMIT_RISE: the port's egress has sent every message for the retired agent, or the loss of a retiring agent is handled
(R450 step 5, R452). -/
def execHpPermitRise (a : Nat) (s : State) : Outcome :=
  live s <| need (16 ≤ a && a < 24) <|
  let g := s.ag a
  when' ((s.agSt a = agRetired && g.retire = .closed && !s.egress a || g.permitDue) && s.hpRetireReq.getLsbD (a - 16)) s
    ({ s with hpPermit := setBits s.hpPermit (a - 16) 1 1 }.updAg a fun g => { g with retire := .none, permitDue := false })

/-- The retirements at an edge: intakes close, cancelled ones end, an ended walk runs again or not, and a sluice closes (R450).
DEDUCED, log entry 22. -/
def State.retireEdge (s : State) (a : Nat) : State :=
  let g := s.ag a
  let pin := s.hpRetireReq.getLsbD (a - 16)
  if s.inService && s.agSt a = agService && pin then (s.setAgSt a agRetiring).updAg a fun g => { g with retire := .drain }
  else if s.agSt a ≠ agRetiring then s
  else if !pin then (s.setAgSt a agService).updAg a fun g => { g with retire := .none, intakeClosed := false }
  else if g.retire = .closed && s.mayRetire a then (s.setAgSt a agRetired).updAg a fun g => { g with upSince := false }
  else if g.retire = .walk || g.retire = .closed then
    if s.walking a then s.updAg a fun g => { g with retire := .walk }
    else if s.absent a then s.updAg a fun g => { g with retire := .evictions }
    else (s.updAg a fun g => { g with retire := .walk }).startWalk a
  else if g.intakeClosed then s
  else s.updAg a fun g => { g with intakeClosed := true }

/-! Loss (R169 to R171, R431, R453 to R459). -/

/-- Declare an agent lost at the edge, with a cause (R169, R453, R454); the edge then starts the sweep. DEDUCED, log entry 23. -/
def State.declareLost (s : State) (a cause : Nat) : State :=
  let o := oAg a 0x18
  let s := (s.setAgSt a agLost).setFld o 4 3 cause
  let s := if cause = 6 then s.incFld o 16 8 1 else (s.incFld o 8 8 1).raise 30 cause (BitVec.ofNat 64 a)
  let s := s.setFlag (oAg a 0) 1 false
  let swept := if s.absent a then [] else s.liveSlices
  s.updAg a fun g => { g with lossDue := [], lossAt := s.frame + 1, sweepIn := swept, expired := false, took := false }

/-- A loss sweep that waits covers the agents as well; otherwise one is queued (R448, R458). -/
def State.addLossSweep (s : State) (h : Nat) (v : Agents) : State :=
  let m := (s.sl h).maint
  if m.queue.any fun o => match o with | .lossSweep _ => true | _ => false then
    s.updSl h fun sl => { sl with maint := { sl.maint with queue := sl.maint.queue.map fun o =>
      match o with | .lossSweep w => .lossSweep (w ||| v) | o => o } }
  else s.maintAdd h (.lossSweep v)

/-- The declarations of an edge (R169, R251 step 1): the agents declared lost. -/
def State.lossEdge (s : State) : Agents × State :=
  let r := (List.range 24).foldl (fun (p : Agents × State) a =>
    match minBy (fun c => c) (p.2.ag a).lossDue with
    | none => p
    | some c => (vecSet p.1 a, p.2.declareLost a c)) ((0 : Agents), s)
  let v := (vecAgents r.1).foldl (fun v a => if (r.2.ag a).sweepIn.isEmpty then v else vecSet v a) (0 : Agents)
  (r.1, if v = 0 then r.2 else foldSt r.2.liveSlices (fun s h => s.addLossSweep h v) r.2)

/-- CONSEC of an agent at the end of a frame (R166, R169). -/
def State.consecEdge (s : State) (a : Nat) : State :=
  let g := s.ag a
  if !g.took && !g.expired then s
  else
    let n := if g.took then 0 else s.fld (oAg a 0x10) 0 2
    let n := if g.expired then min 3 (n + 1) else n
    let s := (s.setFld (oAg a 0x10) 0 2 n).updAg a fun g => { g with took := false, expired := false }
    if n = 3 && s.sluice a then s.lossCause a 1 else s

/-- The requests of a lost agent that a slice has not issued are discarded, but for evictions (R455). -/
def State.dropUnissued (s : State) (h a : Nat) : State :=
  let gone (q : QReq) : Bool := q.req.ofAgent a && !q.req.evict
  let sl := s.sl h
  let s := (sl.unissued.filter gone).foldl (fun s q => s.freeEntry q.home q) s
  s.updSl h fun sl => { sl with c0q := sl.c0q.filter fun q => !gone q, queued := sl.queued.filter fun q => !gone q
                                redHold := sl.redHold.filter fun q => !gone q
                                tk := { sl.tk with waiting := sl.tk.waiting.filter fun q => !gone q } }

/-- A waiter of a lost agent leaves its chain; a lock just passed to it goes on to the next (R455). -/
def State.dropWaiter (s : State) (h t : Nat) : State :=
  let x := s.txn h t
  let s := s.leaveChain h t x.line
  let s := if x.resumeAt.isSome then s.releaseLine h t x.line else s
  s.put h t {}

/-- The merge entry of a lost requester's gatherer keeps the bytes of the requests merged into it alone (R325, R456). -/
def State.keepMerged (s : State) (h : Nat) (x : Txn) : State :=
  match x.merge with
  | some m =>
    if x.gathersForOthers then
      s.updSl h fun sl => { sl with merges := tput m { s.mergeAt h m with mask := x.merged.foldl (fun v r => v ||| r.mask) 0 } sl.merges }
    else s
  | none => s

/-- A lost agent's transaction that runs goes on under R456. -/
def State.runLost (s : State) (h t : Nat) : State :=
  let s := s.keepMerged h (s.txn h t)
  let s := s.upd h t fun x =>
    { x with reqLost := true, memData := none, st := if x.st = .alu || x.st = .gather then .memory else x.st, winClosed := true
             mems := x.mems.map fun m => if m.op = .rd then { m with discard := true } else m }
  let x := s.txn h t
  if x.cmpSent || !x.probed || x.busy || x.memBusy || !s.tagOpen h t then s else s.plan s.frame h t .act

/-- A lost agent's own transaction (R455, R456). -/
def State.ownLost (s : State) (h a t : Nat) : State :=
  let x := s.txn h t
  if x.home.isSome || !x.req.ofAgent a || x.req.evict || x.st = .free then s
  else if x.st = .waiting then s.dropWaiter h t
  else if x.cmpSent then s
  else s.runLost h t

/-- The synthesized answer to one wait (R171). -/
def State.synthesize (s : State) (h t : Nat) (w : Wait) : State :=
  let x := s.txn h t
  match w.kind with
  | .ackGo => (s.upd h t fun x => { x with waits := x.waits.erase w, st := .holding }).plan s.frame h t .release
  | .range => s.upd h t fun x => { x with waits := x.waits.erase w }
  | _ =>
    let s := s.upd h t fun x => x.answered w
    (if x.isOwner w.agent w.j && !x.gaveDirty w.agent w.j then s.synthDirty h t w.agent w.j else s).goOn h t

/-- The loss of an agent in the transaction of a tag: its own goes on under R455 and R456, and every wait on it takes its synthesized answer
(R169, R171); a transaction that a takeover has still to replay takes it in the replay frame (R410). -/
def State.loseTag (s : State) (h t a : Nat) : State :=
  let s := s.ownLost h a t
  if !s.tagOpen h t then s
  else ((s.txn h t).waits.filter fun w => w.agent == a).foldl (fun s w => s.synthesize h t w) s

/-- Frame E + 1 of a loss in every slice: requests that have not issued go, a sweep awaits nothing more of the agent, and every transaction
takes the loss with what else is taken in the frame's first hclk (R169, R171, R250, R420, R455, R456). -/
def State.lossEffects (s : State) (a : Nat) : State :=
  foldSt s.liveSlices (fun s h =>
    let s := s.dropUnissued h a
    let s := { s with late := s.late ++ (s.sl h).txns.map fun e => .loss h e.1 a }
    if !s.rangeOpen h then s
    else s.updSl h fun sl =>
      { sl with sweep := sl.sweep.map fun sw => { sw with cut := vecClear sw.cut a, lastSeen := vecClear sw.lastSeen a } }) s

/-- Loss handling of an agent is complete (R459). DEDUCED, log entry 35. -/
def State.lossOver (s : State) (a : Nat) : Bool :=
  s.agSt a == agLost && (s.ag a).lossAt ≤ s.frame && (s.ag a).sweepIn.isEmpty && !s.awaits a && !s.holdsReq a fun _ => true

/-- LOSS_DONE: loss handling completes; a held offer is answered, or the agent enters AWAIT or DOWN (R436, R452, R459).
DESIGN CHOICE, log entry 13. -/
def execLossDone (a : Nat) (s : State) : Outcome :=
  live s <| need (a < 24) <|
  when' (s.lossOver a) s <|
    let s := s.raise 31 0 (BitVec.ofNat 64 a)
    let retiring := (s.ag a).retire != .none
    let permit := retiring && 16 ≤ a && s.hpRetireReq.getLsbD (a - 16)
    let s := s.updAg a fun g => { g with intakeClosed := false, retire := .none, sleepGo := none, permitDue := permit }
    match (s.ag a).offer with
    | some h => s.answerOffer a h
    | none => s.setAgSt a (if s.flag (oAg a 0) 0 then agAwait else agDown)

end Sys2Proof.Machine
end

