-- ==== Sys2Proof/Machine/Image.lean ====
section
/-! DEFINITION. Byte strings: little-endian fields, CRC-32, the start-up image (R499 to R505) and the cistern record (R549). -/

namespace Sys2Proof.Machine

/-! Bytes. -/

/-- The value of a little-endian byte string. -/
def leNat : List Byte → Nat
  | [] => 0
  | b :: t => b.toNat + 256 * leNat t

/-- `n` bytes from an offset. -/
def cut (l : List Byte) (off n : Nat) : List Byte := (l.drop off).take n

/-- The little-endian field of `n` bytes at an offset. -/
def fieldAt (l : List Byte) (off n : Nat) : Nat := leNat (cut l off n)

/-- The `n` little-endian bytes of a value. -/
def leBytes : Nat → Nat → List Byte
  | 0, _ => []
  | n + 1, v => BitVec.ofNat 8 v :: leBytes n (v / 256)

/-- The CRC register after `n` bits (R501); a register of zeros stays zeros. -/
def crcBits : Nat → Nat → Nat
  | 0, c => c
  | _ + 1, 0 => 0
  | n + 1, c + 1 => crcBits n (if (c + 1) % 2 = 1 then ((c + 1) / 2) ^^^ 0xEDB88320 else (c + 1) / 2)

/-- The CRC register after a byte string. Each step looks at the register before it goes on, which keeps the evaluation shallow. -/
def crcRun : Nat → List Byte → Nat
  | c, [] => c
  | 0, b :: t => crcRun (crcBits 8 b.toNat) t
  | c + 1, b :: t => crcRun (crcBits 8 ((c + 1) ^^^ b.toNat)) t

/-- CRC-32 (R501). -/
def crc32 (l : List Byte) : BitVec 32 := ~~~(BitVec.ofNat 32 (crcRun 0xFFFFFFFF l))

/-- A stored CRC matches. -/
def crcIs (l : List Byte) (v : Nat) : Bool := (crc32 l).toNat == v

/-- `a` is newer than `b`, both modulo 2^32 (R504). -/
def newer (a b : Nat) : Bool := let d := (a + 2 ^ 32 - b) % 2 ^ 32; 1 ≤ d && d ≤ 2 ^ 31 - 1

/-- All bytes are 0. -/
def zeroes (l : List Byte) : Bool := l.all fun b => b == 0

/-! The header of an image copy (R499, R503). -/

/-- REVISION, LENGTH and SECTIONS of a header. -/
def hdrRevision (h : List Byte) : Nat := fieldAt h 0x08 4
@[inherit_doc hdrRevision] def hdrLength (h : List Byte) : Nat := fieldAt h 0x0C 4
@[inherit_doc hdrRevision] def hdrSections (h : List Byte) : Nat := fieldAt h 0x07 1

/-- FUSING of a part (R5). -/
def Fusing.code : Fusing → Nat | .kr16 => 0x10 | .kr16x8 => 0x08

/-- The header is valid but for COMMIT (R503). -/
def hdrValid (f : Fusing) (h : List Byte) : Bool :=
  cut h 0 4 == [0x4C, 0x5A, 0x49, 0x31] && fieldAt h 4 2 == 1 && fieldAt h 6 1 == f.code &&
  1 ≤ hdrSections h && hdrSections h ≤ 32 && hdrLength h ≤ 0x400000 && fieldAt h 0x10 1 ≤ 1 &&
  crcIs (cut h 0 0x20 ++ [0xFF, 0xFF, 0xFF, 0xFF] ++ cut h 0x24 0x18) (fieldAt h 0x3C 4)

/-- Why a copy is no candidate, from its header; 0: it is one (R503, R514). -/
def headerReject (f : Fusing) (h : List Byte) : Nat :=
  if !hdrValid f h then 1 else if fieldAt h 0x20 4 != 0 then 8 else 0

/-! Sections (R500 to R502). -/

/-- Entry `i` of the section table: TYPE, OFFSET, SIZE, SCRC. -/
def sectionAt (b : List Byte) (i : Nat) : Nat × Nat × Nat × Nat :=
  let o := 0x40 + 16 * i
  (fieldAt b o 2, fieldAt b (o + 4) 4, fieldAt b (o + 8) 4, fieldAt b (o + 12) 4)

/-- The section table of a copy. -/
def sectionsOf (b : List Byte) : List (Nat × Nat × Nat × Nat) := (List.range (hdrSections b)).map (sectionAt b)

/-- The bytes of the section of a type, if the copy has one. -/
def sectionBytes (b : List Byte) (type : Nat) : Option (List Byte) :=
  ((sectionsOf b).find? fun e => e.1 == type).map fun e => cut b e.2.1 e.2.2.1

/-- Check 1 of R505, the CRCs. -/
def crcsOk (b : List Byte) : Bool :=
  crcIs (cut b 0x40 (16 * hdrSections b)) (fieldAt b 0x38 4) &&
  (sectionsOf b).all fun e => crcIs (cut b e.2.1 e.2.2.1) e.2.2.2

/-- The SIZE of a defined section (R501). -/
def sizeOk (b : List Byte) (e : Nat × Nat × Nat × Nat) : Bool :=
  match e.1 with
  | 1 => e.2.2.1 == 16 | 2 => e.2.2.1 == 32 | 3 => e.2.2.1 == 128 | 4 => e.2.2.1 == 32 | 5 => e.2.2.1 == 96
  | 6 => fieldAt b e.2.1 1 ≤ 16 && e.2.2.1 == 16 + 16 * fieldAt b e.2.1 1
  | t => 0x8000 ≤ t

/-- Two sections of a table overlap. -/
def overlaps : List (Nat × Nat × Nat × Nat) → Bool
  | [] => false
  | e :: t => (t.any fun g => e.2.1 < g.2.1 + g.2.2.1 && g.2.1 < e.2.1 + e.2.2.1) || overlaps t

/-- The layout rules of R500 and R501. -/
def layoutOk (b : List Byte) : Bool :=
  let t := sectionsOf b
  (t.all fun e => e.2.1 % 16 == 0 && 0x40 + 16 * hdrSections b ≤ e.2.1 && e.2.1 + e.2.2.1 ≤ hdrLength b && sizeOk b e) &&
  !overlaps t && [1, 2, 3].all (fun k => t.any fun e => e.1 == k) &&
  ((t.map fun e => e.1).filter fun k => k < 0x8000) == ((t.map fun e => e.1).filter fun k => k < 0x8000).eraseDups

/-- Word `i` of `n` bytes of a section. -/
def wordAt (l : List Byte) (n i : Nat) : Nat := fieldAt l (n * i) n

/-- The bits that the words of TUNING leave reserved, in the order of R502. -/
def tuningReserved : List Nat :=
  [0xFFFF00C0, 0xFFC0F000, 0xFFF00000, 0xF0000000, 0, 0xFFFFFF00, 0xF00000F0, 0xFFFFFFF0]

/-- Reserved bits of a 64-bit memory route word and of an AG_CONTRACT word. -/
def routeReserved : Nat := 0xC000C000FFFF0008
@[inherit_doc routeReserved] def contractReserved : Nat := 0xFFF000C0

/-- BASE and LIMIT of entry `i` of ZEROFILL. -/
def fillEntry (z : List Byte) (i : Nat) : Nat × Nat := (fieldAt z (16 + 16 * i) 8, fieldAt z (24 + 16 * i) 8)
/-- The entries of ZEROFILL as first and last 4 KiB page. -/
def fillEntries (b : List Byte) : List (Nat × Nat) :=
  match sectionBytes b 6 with
  | none => []
  | some z => (List.range (fieldAt z 0 1)).map fun i => fillEntry z i

/-- Check 2 of R505: every reserved byte and bit is 0. -/
def reservedOk (b : List Byte) : Bool :=
  let sec (t : Nat) := (sectionBytes b t).getD []
  zeroes (cut b 0x13 13) && zeroes (cut b 0x24 20) &&
  (List.range (hdrSections b)).all (fun i => fieldAt b (0x42 + 16 * i) 2 == 0) &&
  fieldAt (sec 1) 0 1 < 16 && fieldAt (sec 1) 1 1 == 0 && zeroes (cut (sec 1) 4 12) &&
  (List.range 4).all (fun i => wordAt (sec 2) 8 i < 2 ^ 40) &&
  (List.range 16).all (fun i => wordAt (sec 3) 8 i &&& routeReserved == 0) &&
  ((List.range 8).zip tuningReserved).all (fun p => wordAt (sec 4) 4 p.1 &&& p.2 == 0) &&
  (List.range 24).all (fun i => wordAt (sec 5) 4 i &&& contractReserved == 0) &&
  zeroes (cut (sec 6) 1 15) &&
  (fillEntries b).all (fun e => e.1 % 4096 == 0 && e.2 % 4096 == 0 && e.1 < 2 ^ 44 && e.2 < 2 ^ 44)

/-- The XOR of the words of a list that a selection picks. -/
def xorPick (l : List Nat) (sel : Nat) : Nat :=
  (l.zipIdx).foldl (fun a p => if sel.testBit p.2 then a ^^^ p.1 else a) 0

/-- Check 3 of R505: the masks are independent over GF(2) on the bits that a homed address can set (R37, R38). -/
def masksOk (f : Fusing) (b : List Byte) : Bool :=
  let z := (sectionBytes b 2).getD []
  match f with
  | .kr16 => let m := (List.range 4).map fun i => wordAt z 8 i % 2 ^ 36
             (List.range 16).all fun k => k == 0 || xorPick m k != 0
  | .kr16x8 => let m := (List.range 3).map fun i => wordAt z 8 i % 2 ^ 35
               (List.range 8).all fun k => k == 0 || xorPick m k != 0

/-- A memory route word is invalid or meets R45. -/
def routeOk (f : Fusing) (w : Nat) : Bool :=
  let r := BitVec.ofNat 64 w
  !r.getLsbD 0 ||
  (bits r 4 12 != 0 && (bits r 32 14).toNat ≤ (bits r 48 14).toNat && (bits r 1 2) != 3 &&
   (match f with | .kr16 => true | .kr16x8 => (bits r 48 14).toNat < 2 ^ 13))

/-- Check 4 of R505. -/
def routesOk (f : Fusing) (b : List Byte) : Bool :=
  (List.range 16).all fun i => routeOk f (wordAt ((sectionBytes b 3).getD []) 8 i)

/-- Check 5 of R505: R260 with the image's C0_SLOTS and C0_TAGS and the reset tenant table. -/
def tuningOk (b : List Byte) : Bool :=
  match sectionBytes b 4 with
  | none => true
  | some z =>
    let slots := min 8 (wordAt z 4 2 % 16)
    slots == 0 || r260Sums slots (max 16 (wordAt z 4 0 / 256 % 256)) 32 2

/-- A GiB is homed by the routes of the image (R43, R46). -/
def gibHomed (f : Fusing) (routes : List Reg) (g : Nat) : Bool :=
  g < (match f with | .kr16 => 2 ^ 14 | .kr16x8 => 2 ^ 13) &&
  routes.any fun r => r.getLsbD 0 && (bits r 32 14).toNat ≤ g && g ≤ (bits r 48 14).toNat

/-- Check 6 of R505: every page of a ZEROFILL entry is homed. -/
def fillsOk (f : Fusing) (b : List Byte) : Bool :=
  let routes := (List.range 16).map fun i => BitVec.ofNat 64 (wordAt ((sectionBytes b 3).getD []) 8 i)
  (fillEntries b).all fun e =>
    e.1 ≤ e.2 && (List.range (e.2 / 2 ^ 30 + 1 - e.1 / 2 ^ 30)).all fun i => gibHomed f routes (e.1 / 2 ^ 30 + i)

/-- Why a tried copy is rejected; 0: it is accepted (R505, R514). -/
def copyReject (f : Fusing) (b : List Byte) : Nat :=
  if !crcsOk b then 2 else if !(layoutOk b && reservedOk b) then 3 else if !masksOk f b then 4 else if !routesOk f b then 5
  else if !tuningOk b then 6 else if !fillsOk f b then 7 else 0

/-! Cistern records (R549, R552). -/

/-- A slot's header is valid: MAGIC, FORMAT and HCRC. -/
def slotHeader (b : List Byte) : Bool :=
  cut b 0 4 == [0x4C, 0x5A, 0x43, 0x31] && fieldAt b 4 2 == 1 && crcIs (cut b 0 0x3C) (fieldAt b 0x3C 4)

/-- The slot is a candidate: its header is valid and it is committed. -/
def slotCandidate (b : List Byte) : Bool := slotHeader b && fieldAt b 0xFFC 4 == 0

/-- The slot's body matches BCRC. -/
def slotBody (b : List Byte) : Bool := crcIs (cut b 0x40 0xFBC) (fieldAt b 0x18 4)

end Sys2Proof.Machine
end

