-- ==== Sys2Proof/Machine/Takeover.lean ====
section
/-! DEFINITION. The failure of a slice, its takeover by the buddy, and its return (R393 to R429, R464, R480 to R484), and the
retries of the network (R339, R340). -/

namespace Sys2Proof.Machine

/-! The registers of a slice that fails (R565). -/

/-- Bits of a field of a read value. -/
def rfield (lo w v : Nat) : Reg := (BitVec.ofNat w v).setWidth 64 <<< lo

/-- What a slice register reads as. Of a failed slice, or of a lost pair, only the presence counts go on changing with the slice's state
(R565). DEDUCED, log entry 39. -/
def State.readSlice (s : State) (k p : Nat) : Reg :=
  let sl := s.sl k
  let r := s.reg (oSl k p)
  if 0x100 ≤ p ∧ p < 0x1C0 then rfield 0 21 (s.presence k ((p - 0x100) / 8))
  else if (s.sliceFailed k || s.pairLost k) && p < 0x100 then r
  else if p = 0x00 then
    let n (lo hi : Nat) : Nat := hi - lo - (sl.txns.filter fun e => lo ≤ e.1 && e.1 < hi).length
    rfield 0 10 (n 0 992) ||| rfield 10 5 (n 992 1008) ||| rfield 15 5 (n 1008 1024) |||
      rfield 20 10 (sl.txns.filter fun e => e.2.st == .waiting).length
  else if p = 0x20 then setBits (setBits (setBits r 0 32 (BitVec.ofNat 32 sl.vtime)) 32 10 (BitVec.ofNat 10 (s.storeUsed k))) 42 10
      (BitVec.ofNat 10 sl.redHold.length)
  else if p = 0x48 then setBits r 16 6 (BitVec.ofNat 6 sl.wbuf.length)
  else if p = 0x60 then setBits r 0 6 (BitVec.ofNat 6 sl.merges.length)
  else if 0x800 ≤ p ∧ p < 0xA00 then
    let t := (p - 0x800) / 8
    (BitVec.ofInt 24 (s.cBucket k t)).setWidth 64 ||| ((BitVec.ofInt 24 (s.pBucket k t)).setWidth 64 <<< 24)
  else r

/-- The registers of a slice keep what its pipeline and weir show when it fails (R565). DEDUCED, log entry 39. -/
def State.freeze (s : State) (k : Nat) : State :=
  if s.sliceFailed k || s.pairLost k then s
  else [0x00, 0x20, 0x48, 0x60].foldl (fun u p => u.setReg (oSl k p) (s.readSlice k p)) s

/-! Declaring a slice failed. -/

/-- A pair is lost (R396): the bit, the fatal event and a fault record. -/
def State.losePair (s : State) (f cause : Nat) : State :=
  if s.pairLost f then s
  else
    let s := (s.freeze f).freeze (buddy f)
    ((s.setFlag oTakeover (16 + f / 2) true).raise 29 cause (BitVec.ofNat 64 f)).faultDue (1152 + 29) cause (BitVec.ofNat 64 f)

/-- The journal held for a slice cannot serve a takeover: it is retired, or the record of a live tag is invalid (R396). -/
def State.journalUnfit (s : State) (f : Nat) : Bool :=
  let b := buddy f
  s.flag (oSl b 0x88) 1 || (s.sl b).invalid.any fun t => thas (s.sl f).txns t

/-- A slice is declared failed at the edge before frame 0 (R394, R396); frame 0 is the frame `now`. The operation of its maintenance engine
goes back to its place in the order (R411, R448). A `Retry` that its weir owes leaves from the buddy. One of a pair that is lost has its ROLE
and CAUSE set, and nothing else changes (R569). DEDUCED, log entry 15. -/
def State.declareFailed (s : State) (f cause now : Nat) : State :=
  if s.sliceFailed f then s
  else
    let b := buddy f
    let o := oSl f 0x90
    let gone := s.pairLost f
    let lost := s.sliceFailed b || s.journalUnfit f
    let s := (((s.freeze f).setFld o 0 2 1).setFld o 2 4 cause).setFld o 6 1 0
    if gone then s
    else if lost then s.losePair f cause
    else
      let s := s.setFld (oSl b 0x90) 0 2 2
      s.updSl f fun sl =>
        { sl with tk := { active := true, frame0 := now, badBank := if cause = 5 then sl.tk.badBank else none }
                  slots := 0, move := none, promote := [], replayQ := [], copies := [], resends := [], tflips := []
                  maint := { sl.maint with running := none, found := [], retry := [], fixes := [], lostAt := [], rereads := [], rows := []
                                           queue := (match sl.maint.running with
                                             | some o => insertBy (fun a b => a.order ≤ b.order) o sl.maint.queue
                                             | none => sl.maint.queue) }
                  txns := sl.txns.map fun p => (p.1, { p.2 with wdStart := none }) }

/-- Frame 0 of a takeover: the event and the fault record (R398). -/
def State.failedEvent (s : State) (f cause : Nat) : State :=
  (s.raise 25 cause (BitVec.ofNat 64 f)).faultDue (1152 + 25) cause (BitVec.ofNat 64 f)

/-- EVCLK_LOSS in service: every powered slice fails with CAUSE 0x5 at the next edge, whatever else has failed it in this frame (R569). -/
def State.evclkFail (s : State) : State :=
  foldSt (List.range s.nSlices) (fun s k => s.failSlice k 5) { s with failDue := s.failDue.map fun p => (p.1, 5) }

/-! The sequence (R398). -/

/-- TAKEOVER_MAP_WRITE: in frame 1 the buddy writes the failed slice's map field to itself; it takes effect at the next map-epoch
switch (R42, R398). -/
def execTakeoverMapWrite (f : Nat) (s : State) : Outcome :=
  live s <| need (f < s.nSlices) <|
  let tk := (s.sl f).tk
  when' (tk.active && !tk.mapped && tk.frame0 + 1 ≤ s.frame && !s.pairLost f) s
    ({ s with routers := { s.routers with mapDue := s.routers.mapDue ++ [(f, buddy f)] } }.updSl f fun sl =>
      { sl with tk := { sl.tk with mapped := true } })

/-- Frame 2: the stage and the presence counts are written to zeros, RECOUNT is cleared, and every set of the filter is marked
unzeroed (R398). -/
def State.unzeroFilter (s : State) (f : Nat) : State :=
  ((s.zeroStage f).updSl f fun sl =>
    { sl with presence := [], wbuf := [], spillQ := [], orphans := [], orphanRest := [], correct := [], reread := [], hardRows := []
              tk := { sl.tk with zeroPos := 0, zeroed := [] }
              txns := sl.txns.map fun p => (p.1, { p.2 with loc := none, claim := none, recDone := false }) }).setFlag (oSl f 0x78) 24 false

/-! A word whose decoder inverts a good data bit (R380). Bit `n` of the first word of a record names its field (R389); the conflict-table word
is taken to hold the same fields in the same places: DESIGN CHOICE, log entry 17. NEXT, bits 18 to 8, stays as it is: DESIGN CHOICE,
log entry 17. -/

/-- A transaction with a bit of its state, class, header or line inverted. -/
def Txn.misread (x : Txn) (n : Nat) : Txn :=
  if n < 5 then { x with st := stateOfCode (x.st.code ^^^ 2 ^ (n - 1)) }
  else if n = 7 then { x with locked := if x.locked = 0 then 1 else 0 }
  else if n < 19 then x
  else if n < 21 then { x with cls := x.cls ^^^ 2 ^ (n - 19) }
  else
    let r := x.req
    if n < 27 then { x with req := { r with op := (reqOpOf (r.op.code ^^^ 1 <<< (n - 21))).getD r.op } }
    else if n < 37 then { x with req := { r with src := r.src ^^^ 2 ^ (n - 27) } }
    else if n < 47 then { x with req := { r with rtid := r.rtid ^^^ 1 <<< (n - 37) } }
    else if n < 53 then { x with req := { r with tenant := r.tenant ^^^ 2 ^ (n - 47) } }
    else { x with line := x.line ^^^ 1 <<< (n - 53) }

/-- The stored word of a tag reads with a bit inverted: VALID, the epoch, or a field of its transaction. -/
def State.misreadTag (s : State) (h t n : Nat) : State :=
  if (s.txn h t).st = .free then s
  else if n = 5 || n = 6 then s.updSl h fun sl => { sl with epochs := tputD 0 t (s.epoch h t ^^^ 1 <<< (n - 5)) sl.epochs }
  else
    let x := (s.txn h t).misread n
    s.setTxn h t (if n = 0 || x.st = .free then {} else x)

/-- The buddy decodes the record of a tag, once after it was written (R380, R390, R402). DEDUCED, log entry 17. -/
def State.decodeRecord (s : State) (b t : Nat) : State :=
  let m := tget 0 (s.sl b).jflips t
  let d := decodeFlip m
  if d = .clean then s
  else if d = .bad then s.badRecord b t
  else
    let s := (s.correctable b 13 t 2).updSl b fun sl =>
      { sl with journal := tputD 0 t (tget 0 sl.journal t ^^^ (flipData m).setWidth 256) sl.journal, jflips := tdel t sl.jflips }
    if d = .wrong then s.misreadTag (buddy b) t (Config.heavyFlipBit m % 64) else s

/-- The buddy reads the record of a tag (R390, R398): a live tag without a usable record loses the pair (R396). DEDUCED, log entry 15. -/
def State.scanRecord (s : State) (f t : Nat) : State :=
  let s := s.decodeRecord (buddy f) t
  if s.journalUnfit f then s.losePair f (s.fld (oSl f 0x90) 2 4) else s

/-- The scan reads the header of a store entry (R398): a request whose two copies both fail is lost (R397). -/
def State.scanHeader (s : State) (f : Nat) (q : QReq) : State :=
  let s := s.readFlip f 15 0 q.flip
  let s := if decodeFlip q.flip = .bad then s.readFlip f 15 0 q.flip2 else s
  if q.headerLost then s.lostRequest f q else s

/-- Requests by their place in the order of sampling. -/
def bySampling (l : List QReq) : List QReq := l.foldl (fun l q => insertBy (fun a b => a.order < b.order) q l) []

/-- The scan reads the next four headers of the failed slice's stores, in frames 2 to 201 (R398). -/
def State.scanHeaders (s : State) (f : Nat) : State :=
  let sl := s.sl f
  if 800 ≤ sl.tk.scanPos then s
  else
    let next := (bySampling ((sl.c0q ++ sl.queued ++ sl.redHold).filter fun q => q.home == f && sl.tk.hdrNext ≤ q.order)).take 4
    let s := next.foldl (fun s q => s.scanHeader f q) s
    s.updSl f fun sl => { sl with tk := { sl.tk with hdrNext := (next.getLast?.map fun q => q.order + 1).getD sl.tk.hdrNext } }

/-- TAKEOVER_SCAN: from frame 2 on, four records of the journal, and four headers of the stores, are read and checked (R398). -/
def execTakeoverScan (f : Nat) (s : State) : Outcome :=
  live s <| need (f < s.nSlices) <|
  let tk := (s.sl f).tk
  when' (tk.active && tk.mapped && tk.scanPos < 1024 && tk.frame0 + 2 + tk.scanPos / 4 ≤ s.frame && !s.pairLost f) s <|
    let s := if tk.scanPos = 0 then s.unzeroFilter f else s
    let s := foldSt ((List.range 4).map fun i => tk.scanPos + i) (fun s t => s.scanRecord f t) s
    (s.scanHeaders f).updSl f fun sl => { sl with tk := { sl.tk with scanPos := tk.scanPos + 4 } }

/-- A transaction that the opening of a taken-over range ends: a rebuild sweep, in whose place a new one starts (R398), and work of
the maintenance engine that has not read its sector, which starts again with its operation (R411). What has sent its snoops
continues with the answers it has taken, so that no dirty line is lost. DEDUCED, log entry 15. -/
def Txn.restarts (x : Txn) : Bool :=
  match x.home with
  | none | some (.spill _) | some (.orphan ..) => false
  | some .sweep => true
  | some _ => !x.probed

/-- The requests in the failed slice's stores enter the buddy's queues (R407): red-held ones are recolored, C0 ones keep their path,
the others queue under the waking rule with their recorded cost. -/
def State.adoptQueues (s : State) (f b : Nat) : State :=
  let sl := s.sl f
  let s := s.updSl f fun sl => { sl with c0q := [], queued := [], redHold := [] }
  let s := s.updSl b fun g => { g with c0q := g.c0q ++ sl.c0q }
  let s := (bySampling sl.queued).foldl (fun s q => s.enqueue b q) s
  let s := s.updSl b fun g => { g with redHold := g.redHold ++ bySampling sl.redHold }
  foldSt ((sl.redHold.map fun q => q.ten).eraseDups) (fun s t => s.recolor b t) s

/-- The requests that the buddy stored during the scan are sampled now (R399, R407). DEDUCED, log entry 15. -/
def State.sampleWaiting (s : State) (f : Nat) : State :=
  let w := (s.sl f).tk.waiting
  let s := s.updSl f fun sl => { sl with tk := { sl.tk with waiting := [] } }
  w.foldl (fun s q => s.weirSampleOn (s.engine f) f q.req) s

/-- The replay list (R408): every transaction that is neither FREE nor WAITING, and the head of every chain without a holder. -/
def State.replayList (s : State) (f : Nat) : List Nat :=
  ((s.sl f).txns.filter fun p => p.2.home != some .sweep && (p.2.st != .waiting || p.2.resumeAt.isSome)).map Prod.fst

/-- TAKEOVER_OPEN: at frame 258 the range opens (R398, R407, R408, R411, R416). -/
def execTakeoverOpen (f : Nat) (s : State) : Outcome :=
  live s <| need (f < s.nSlices) <|
  let tk := (s.sl f).tk
  let b := buddy f
  when' (tk.active && !tk.opened && 1024 ≤ tk.scanPos && tk.frame0 + 258 ≤ s.frame && !s.pairLost f) s <|
    let s := ((s.sl f).txns.filter fun p => p.2.restarts).foldl (fun s p =>
      (if p.2.st = .waiting then s.leaveChain f p.1 (p.2.lineAt p.2.locked) else s).release f p.1) s
    let s := s.updSl f fun sl =>
      { sl with sweep := none, sweepDue := false, reports := [], rebuildOn := false, initFound := []
                initPos := if sl.initPos.isSome || !sl.initFound.isEmpty then some 0 else none }
    let list := s.replayList f
    let s := s.updSl f fun sl =>
      { sl with tk := { sl.tk with opened := true, replays := list }
                txns := sl.txns.map fun p => (p.1, { p.2 with resumeAt := none }) }
    let o := oSl b 0x90
    let s := (s.setFld o 8 10 (s.frame - tk.frame0)).setFld o 18 11 0
    let s := ((s.adoptQueues f b).sampleWaiting f).mergeAll b
    let s := s.sweepStart f
    s.raise 26 (s.fld (oSl f 0x90) 2 4) (BitVec.ofNat 64 f)

/-! Replay (R408 to R412). -/

/-- The record that a completed transaction wrote, from its journal record (R389, R411). -/
def Txn.result (x : Txn) : LineState :=
  if x.resSt = 1 then sharedOr x.resVec else if x.resSt = 2 then .owned ((vecAgents x.resVec).headD 0) else .untracked

/-- A wait restarts in the replay frame; a snoop's wait is one with a first contract again (R410, R411). -/
def State.freshWait (s : State) (w : Wait) : Wait :=
  { w with start := s.frame, count := 0
           kind := (match w.kind with | .resent | .final => .first | k => k)
           len := if w.kind = .range then s.flushContract w.agent else s.snoopContract w.agent }

/-- A memory request whose answer is still awaited is sent again (R411). DEDUCED, log entry 15. -/
def State.sendAgain (s : State) (h t : Nat) (m : MemWait) : State :=
  let x := s.txn h t
  let a := wireOf (x.lineAt m.j)
  let p := s.memPort a
  let s := s.send s.frame (.mem p) (.mem m.op (if x.home.isSome then 3 else x.cls) t h (s.epoch h t) a m.poison m.data)
  if s.memFailed.getLsbD p then s.plan (s.frame + 1) h t .portDown else s

/-- The waits and memory requests of a replayed transaction start again, and lost agents answer at once (R410, R411). -/
def State.restart (s : State) (h t : Nat) : State :=
  let s := s.upd h t fun x =>
    { x with waits := x.waits.map s.freshWait, wdStart := some s.frame, wdSkip := 0, replayed := true, waitStage := false, waitWbuf := false
             mems := x.mems.map fun m => { m with sent := s.frame } }
  let s := (s.txn h t).mems.foldl (fun s m => s.sendAgain h t m) s
  ((s.txn h t).waits.filter fun w => s.agSt w.agent == agLost).foldl (fun s w => s.synthesize h t w) s

/-- A transaction continues from its journaled state (R411); `none`: its record must wait for a place. One that has sent its completion
only releases its line (R426). DEDUCED, log entry 15. -/
def State.replayFrom (s : State) (h t : Nat) : Option State :=
  let x := s.txn h t
  if x.home.isSome then
    let s := s.restart h t
    if x.st = .waiting then
      let s := s.leaveChain h t (x.lineAt x.locked)
      some ((s.upd h t fun x => { x with st := .home, locked := x.locked + 1 }).takeLines h t 5)
    else if !x.probed then some (s.plan (s.frame + 1) h t .probe)
    else some (s.plan (s.frame + 1) h t .act)
  else match x.st with
    | .waiting => some (((s.leaveChain h t x.line).upd h t fun x => { x with locked := 1, replayed := true }).beginRun h t)
    | .ackwait => (s.writeRec h t x.line (s.dropLost x x.result)).map fun s => s.restart h t
    | .holding => (s.writeRec h t x.line (s.dropLost x x.result)).map fun s =>
        (s.restart h t).upd h t fun x => { x with holdEnd := some (s.frame + s.fld oHome 0 6) }
    | .free => some s
    | st =>
      if x.cmpSent then some ((s.restart h t).plan s.frame h t .release)
      else if x.want = 0 then some (if st = .orderwait then s.restart h t else (s.restart h t).plan (s.frame + 1) h t .act)
      else match st with
        | .alu => some ((s.restart h t).upd h t fun x => { x with dAt := s.frame })
        | .gather =>
          let s := (s.restart h t).upd h t fun x => { x with winClosed := x.merge.isSome }
          some (if x.merge.isSome then s.plan (s.frame + 1) h t .act else s)
        | .orderwait => some (s.restart h t)
        | _ =>
          let s := s.upd h t fun x =>
            { x with bcast := true, recovery := true, known := [.lost], probed := false, loc := none, st := .probing, winClosed := x.winClosed || x.merge.isSome }
          some ((s.restart h t).plan (s.frame + 1) h t .probe)

/-- TAKEOVER_REPLAY: the oldest entry of the replay list replays, in a shared slot or in the selvedge slot of the buddy (R342, R408 to
R411). -/
def execTakeoverReplay (p : Pass) (slot : Nat) (s : State) : Outcome :=
  let f := p.slice
  live s <| need (f < s.nSlices && slot < 16) <|
  let e := s.engine f
  let free := if slot = 15 then s.inService && s.selvTurn f .takeover else s.slotFree e slot
  if !free then .next s
  else
    let m := if slot = 15 then s else s.beforeSlot e
    let mine := match (if slot = 15 then m.oldestReplay e else match m.pick e slot with | .replay h t => some (h, t) | _ => none) with
      | some (h, t) => if h = f then some t else none
      | none => none
    match mine with
    | none => .next m
    | some t =>
      let s' := if slot = 15 then m.useSelvedge e else m.useSlot e slot
      let s' := s'.incFld (oSl e 0x90) 18 11 1
      match (s'.updSl f fun sl => { sl with tk := { sl.tk with replays := sl.tk.replays.filter fun u => u != t } }).replayFrom f t with
      | none => .next m
      | some r => .next (r.passHeader p.hdrFail f t)

/-- ZEROING_WALK_STEP: the walker zeroes the next unzeroed set, at the rank of maintenance reads (R236, R404); after a return the slice
itself goes on with it. -/
def execZeroingWalkStep (f : Nat) (s : State) : Outcome :=
  live s <| need (f < s.nSlices) <|
  let tk := (s.sl f).tk
  let total := Config.ondieSets + Config.evganSets
  let ev := Nat.ble Config.ondieSets tk.zeroPos
  when' (!s.pairLost f && tk.zeroPos < total && (!ev || s.evRoom f 1)) s <|
    let set := if ev then tk.zeroPos - Config.ondieSets else tk.zeroPos
    let todo := (s.sl f).unzeroed ev set
    let s := if todo then (s.zeroSet f ev set).updSl f fun sl => { sl with evLate := sl.evLate || ev } else s
    let next := if tk.zeroPos + 1 = Config.ondieSets && !s.evganPresent then total else tk.zeroPos + 1
    s.updSl f fun sl => { sl with tk := { sl.tk with zeroPos := next, zeroed := sl.tk.zeroed.filter fun p => tk.zeroPos < p } }

/-! The return (R427, R428). -/

/-- A return is accepted (R427). -/
def State.mayReturn (s : State) (f : Nat) : Bool :=
  let sl := s.sl f
  f < s.nSlices && s.sliceFailed f && !s.pairLost f && sl.tk.opened && sl.sweep.isNone && !sl.sweepDue &&
  (s.fld (oSl f 0x90) 2 4 != 5 || (match sl.tk.badBank with | some b => (s.freeRemap f (4 ≤ b)).isSome | none => true))

/-- A return is running (R428). -/
def State.anyReturn (s : State) : Bool := (List.range s.nSlices).any fun k => (s.sl k).tk.returning

/-- The slice takes its range back at the edge of the map-epoch switch (R428 steps 4 to 6). -/
def State.takeBack (s : State) (f : Nat) : State :=
  let b := buddy f
  let mine (q : QReq) : Bool := q.home == f
  let sl := s.sl b
  let s := s.updSl b fun g => { g with c0q := g.c0q.filter fun q => !mine q, queued := g.queued.filter fun q => !mine q
                                       redHold := g.redHold.filter fun q => !mine q }
  let s := s.updSl f fun g => { g with tk := { zeroPos := g.tk.zeroPos, zeroed := g.tk.zeroed }, vtime := sl.vtime, cBkt := [], pBkt := [], c0q := sl.c0q.filter mine, queued := [], slots := 0
                                       redHold := sl.redHold.filter mine, evUsed := 0 }
  let s := foldSt (List.range 64) (fun s t =>
    let (_, _, c, p) := s.meter t
    s.setBuckets f t c p) s
  let s := (bySampling (sl.queued.filter mine)).foldl (fun s q => s.enqueue f q) s
  let s := foldSt (((s.sl f).redHold.map fun q => q.ten).eraseDups) (fun s t => s.recolor f t) s
  let s := (s.setFld (oSl f 0x90) 0 2 0).setFld (oSl b 0x90) 0 2 0
  let s := (s.setFlag oTakeover 6 s.anyReturn).raise 28 (s.fld (oSl f 0x90) 2 4) (BitVec.ofNat 64 f)
  s.maintNext f

/-- RETURN_COMPLETE: in a selvedge slot of the buddy, at the self-test rank, the tests of step 2 are run, and end the return if they fail;
later, once every tag of the range is FREE, the map returns at the next edge (R428, R530). -/
def execReturnComplete (f : Nat) (testOk : Bool) (s : State) : Outcome :=
  live s <| need (f < s.nSlices) <|
  let tk := (s.sl f).tk
  if !(tk.returning && s.sliceFailed f && !s.pairLost f) then .next s
  else if tk.tested then
    when' ((s.sl f).txns.isEmpty && !(s.routers.mapDue.contains (f, f))) s
      { s with routers := { s.routers with mapDue := s.routers.mapDue ++ [(f, f)] } }
  else
    when' (s.inService && s.selvTurn f .selftest) s <|
      let s := s.useSelvedge (s.engine f)
      if testOk then s.updSl f fun sl => { sl with tk := { sl.tk with tested := true } }
      else
        let s := s.updSl f fun sl => { sl with tk := { sl.tk with returning := false } }
        (s.setFlag oTakeover 6 s.anyReturn).setFlag oTakeover 7 true

/-! Map epochs and bypass (R42, R480 to R484). -/

/-- The map-epoch switch of an edge (R42, R251 step 3, R480, R482, R483): the fields change, routers enter or leave bypass, and a
returning slice takes its range back. -/
def State.mapSwitch (s : State) : State :=
  match s.routers.mapDue with
  | [] => s
  | due =>
    let s := { s with routers := { s.routers with mapDue := [] } }
    let s := s.setFld oNetStatus 32 8 ((s.fld oNetStatus 32 8 + 1) % 256)
    due.foldl (fun s p =>
      let s := ((s.setFld oMap (4 * p.1) 4 p.2).setFlag oNetStatus p.1 (p.1 != p.2)).setFlag oNetStatus (16 + p.1) true
      let s := { s with routers := { s.routers with
        changing := tput p.1 ((List.range 20).filter fun l => (laneOf p.1 l).isSome) s.routers.changing
        changeAt := tput p.1 (32 * (s.frame + 1)) s.routers.changeAt } }
      if p.1 = p.2 then s.takeBack p.1 else s) s

/-- BYPASS_LANE_CHANGE: a lane of a router whose buffer is empty as the frame begins changes mode, `hclk` after the edge of the change; a
lane that empties inside a frame changes as it does (R483). -/
def execBypassLaneChange (r l hclk : Nat) (s : State) : Outcome :=
  live s <| need (r < s.nSlices && l < 20) <|
  when' ((tget [] s.routers.changing r).contains l && s.routers.laneEmpty r l) s <|
    let c := tget 0 s.routers.changeAt r + hclk
    let x := (NetStep.mk s.routers [] [] []).changeLanes c r fun m => m == l
    x.changed.foldl State.bypassDone { s with routers := x.net }

/-- FLIT_HOP_RETRY: a router refuses a flit on the link from another; the sender holds the next flit to cross it in this frame, and sends it
again 4 hclk later. The eighth refusal in a row on the hop is a hard network fault (R339, R340, R476). DESIGN CHOICE, log entry 37. -/
def execFlitHopRetry (src dst : Nat) (again : Bool) (s : State) : Outcome :=
  live s <| need (src < 24 && dst < 24) <|
  when' (linked src dst) s <|
    let s := s.hopRefused src dst (if again then tget 0 s.routers.refused (32 * src + dst) + 1 else 1)
    { s with routers := { s.routers with refuse := s.routers.refuse ++ [(src, dst)] } }

end Sys2Proof.Machine
end

