-- ==== Sys2Proof/Machine/StartUp.lean ====
section
/-! DEFINITION. Reset, the phases of start-up, and the temperature (R234, R235, R369, R375 to R377, R485 to R514, R552, R569, R573 to
R575). -/

namespace Sys2Proof.Machine

/-- PHASE of LZ_BOOT_STATUS (R491). -/
def State.phase (s : State) : Nat := s.fld oBoot 0 4

/-- Go to a phase. -/
def State.setPhase (s : State) (n : Nat) : State := s.setFld oBoot 0 4 n

/-- Start-up fails in the phase in progress, with a code (R514); BLOCK_FAIL rises at the next edge. -/
def State.failNow (s : State) (code : Nat) : State := ((s.setPhase 15).setFlag oBoot 5 true).setFld oBoot 16 5 code

/-- Start-up fails with a code, unless the block is in service or start-up has failed before (R514). -/
def State.startFail (s : State) (code : Nat) : State := if s.phase = 8 || s.phase = 15 then s else s.failNow code

/-! Reset. -/

/-- RESET_ASSERT: LZ_RST_N falls and the block returns to reset (R485, R487). The levels on its input pins and the fuses stay.
DESIGN CHOICE, log entry 1; DESIGN CHOICE, log entry 12. -/
def execResetAssert (s : State) : Outcome :=
  .next { State.reset with
    fusing := s.fusing, pending := s.pending, freeCount := s.freeCount, hpRetireReq := s.hpRetireReq, pmSleepReq := s.pmSleepReq }

/-- RESET_DEASSERT: LZ_RST_N rises and frame 0 begins (R13, R485, R498). -/
def execResetDeassert (s : State) : Outcome :=
  .next (if s.inReset then { s with inReset := false, frame := 0 } else s)

/-! Phases NVM and IMAGE. -/

/-- FLASH_RESET_WAIT_END: frame 4,160 has come, and the headers are read next (R498). -/
def execFlashResetWaitEnd (s : State) : Outcome :=
  live s <| when' (s.phase = 1 && 4160 ≤ s.frame) s { s with boot := { s.boot with waited := true } }

/-- Record why a copy was rejected (R514). -/
def State.rejectCopy (s : State) (copyB : Bool) (code : Nat) : State := s.setFld oBoot (if copyB then 12 else 8) 4 code

/-- The candidates in the order they are tried (R504). -/
def tryOrder (fz : Fusing) (a b : List Byte) : List Bool :=
  let okA := headerReject fz a == 0
  let okB := headerReject fz b == 0
  if okA && okB then (if newer (hdrRevision b) (hdrRevision a) then [true, false] else [false, true])
  else if okA then [false] else if okB then [true] else []

/-- IMAGE_HEADER_READ_DONE: a header has been read, first that of copy A (R498, R503, R504, R506). DEDUCED, log entry 26. -/
def execImageHeaderReadDone (copyB : Bool) (hdr : List Byte) (s : State) : Outcome :=
  live s <|
  if !(s.phase = 1 && s.boot.waited) then .next s
  else match copyB, s.boot.hdrA with
    | false, none => .next ({ s with boot := { s.boot with hdrA := some hdr } }.rejectCopy false (headerReject s.fusing hdr))
    | true, some a =>
      let order := tryOrder s.fusing a hdr
      let s := { s with boot := { s.boot with hdrB := some hdr, toTry := order } }.rejectCopy true (headerReject s.fusing hdr)
      .next (if order.isEmpty then s.failNow 0x10 else s.setPhase 2)
    | _, _ => .next s

/-- IMAGE_COPY_READ_DONE: the copy under trial has been read; it is accepted, or the other candidate is tried (R505, R506). The header
is the one read before. DEDUCED, log entry 26. -/
def execImageCopyReadDone (bytes : List Byte) (s : State) : Outcome :=
  live s <|
  match s.boot.toTry with
  | [] => .next s
  | c :: rest =>
    if s.phase ≠ 2 then .next s
    else
      let h := ((if c then s.boot.hdrB else s.boot.hdrA).getD [])
      let b := h ++ bytes.drop 64
      match copyReject s.fusing b with
      | 0 =>
        let s := { s with boot := { s.boot with toTry := [], accepted := some b } }
        .next (((s.setFlag oBoot 6 c).setFlag oBoot 7 (s.boot.tried != 0)).setFld oBoot 24 32 (hdrRevision h))
      | code =>
        let s := { s with boot := { s.boot with toTry := rest, tried := s.boot.tried + 1 } }.rejectCopy c code
        .next (if rest.isEmpty then s.failNow 0x10 else s)

/-! The load edge (R492). -/

/-- The signed value of TEMP. -/
def tempOf (t : BitVec 8) : Int := t.toInt

/-- The Evgan budget for a reading (R235); a failed pair of sensors counts as 106 °C (R574). -/
def budgetFor (t : BitVec 8) : Nat :=
  if t = 0x80 then 32
  else if tempOf t ≤ 95 then 128
  else if 106 ≤ tempOf t then 32
  else 32 + (96 * (106 - tempOf t) / 11).toNat

/-- The budget of a slice from its last reading and BUDGET_CAP (R234 to R236); without the Evgan tier the reading does not count
(R8). -/
def State.rebudget (s : State) (k : Nat) : State :=
  let cap := min 128 (max 32 (s.fld oEvgan 0 8))
  s.setFld (oSl k 0x48) 8 8 (if s.evganPresent then min (budgetFor (bits (s.reg (oSl k 0x48)) 0 8)) cap else cap)

/-- Take fields of a register from a word of the image: the lowest bit and the width of each. -/
def State.loadFields (s : State) (off w : Nat) (fs : List (Nat × Nat)) : State :=
  fs.foldl (fun s f => s.setFld off f.1 f.2 (w / 2 ^ f.1 % 2 ^ f.2)) s

/-- The fields that TUNING sets (R502), each word with its register and its fields. -/
def tuningFields : List (Nat × List (Nat × Nat)) :=
  [(oHome, [(0, 6), (8, 8)]), (oProgress, [(0, 12), (16, 6)]), (oSlot, [(0, 4)]), (oWeir, [(0, 8), (8, 8), (16, 8), (24, 4)]),
   (oWaylock, [(0, 16), (16, 16)]), (oEvgan, [(0, 8)]), (oIowr, [(0, 4)]), (oAgentCtl, [(0, 4)])]

/-- The values of the accepted image take effect (R492, R502), and phase CISTERN begins. -/
def State.loadImage (s : State) (b : List Byte) : State :=
  let sec (t : Nat) := (sectionBytes b t).getD []
  let p := fieldAt (sec 1) 0 1
  let s := ((s.setFlag oFilter 0 (p.testBit 0)).setFlag oFilter 1 (p.testBit 1)).setFlag oFlip 2 (p.testBit 2)
  let s := s.setFlag oTakeover 8 (p.testBit 3)
  let s := foldSt (List.range 4) (fun s i => s.setFld (oMask i) 0 40 (wordAt (sec 2) 8 i)) s
  let s := foldSt (List.range 16) (fun s i => s.setReg (oRoute i) (BitVec.ofNat 64 (wordAt (sec 3) 8 i))) s
  let s := match sectionBytes b 4 with
    | some z => (tuningFields.zipIdx).foldl (fun s e => s.loadFields e.1.1 (wordAt z 4 e.2) e.1.2) s
    | none => s
  let s := match sectionBytes b 5 with
    | some z => foldSt (List.range 24) (fun s a => s.loadFields (oAg a 8) (wordAt z 4 a) [(0, 6), (8, 12)]) s
    | none => s
  let s := foldSt (List.range s.nSlices) State.rebudget s
  { s with boot := { s.boot with
      accepted := none, loadAt := some s.frame, memWait := max 1 (fieldAt (sec 1) 2 2), fills := fillEntries b } }.setPhase 3

/-- The load edge, at an edge of the frame now beginning. -/
def State.loadEdge (s : State) : State :=
  match s.boot.accepted with
  | some b => if s.phase = 2 then s.loadImage b else s
  | none => s

/-- No partition has to answer after 64 frames from the load edge (R507). -/
def State.probeDue (s : State) : Bool :=
  match s.boot.loadAt with | some f => s.evganPresent && f + 64 ≤ s.frame | none => false

/-- EVGAN_PROBE_TIMEOUT: a partition has not answered within 64 frames of the load edge (R507). -/
def execEvganProbeTimeout (k : Nat) (s : State) : Outcome :=
  live s <| need (k < s.nSlices) <| when' s.probeDue s (s.lapseAt .probe)

/-! Phase CISTERN (R369, R552). -/

/-- The candidate with the newest SEQ (R504, R552); of equals the one in the lower slot. -/
def newestSlot : List SlotImage → Option SlotImage
  | [] => none
  | x :: t =>
    match newestSlot t with
    | none => some x
    | some y => if newer (fieldAt y.bytes 8 4) (fieldAt x.bytes 8 4) then some y else some x

/-- The newest candidate whose body matches, of at most `n` tries. -/
def restorable : Nat → List SlotImage → Option SlotImage
  | 0, _ => none
  | n + 1, l =>
    match newestSlot l with
    | none => none
    | some x => if slotBody x.bytes then some x else restorable n (l.erase x)

/-- A remap word of a record as the register holds it, with SOURCE 0b11 (R369, R549). -/
def remapReg (w : Nat) : Reg :=
  if w / 2 ^ 14 = 0 then 0
  else BitVec.ofNat 64 (w / 2 ^ 15 + 2 * (w / 2 ^ 14 % 2) + 4 * 3 + 16 * (w % 2 ^ 14))

/-- Register of remap word `k` of a slice: the on-die words first (R549). -/
def oRemap (h k : Nat) : Nat := if k < 16 then oSl h (0x300 + 8 * k) else oSl h (0x400 + 8 * (k - 16))

/-- Restore from a record (R552). DEDUCED, log entry 25. -/
def State.restoreFrom (s : State) (x : SlotImage) : State :=
  let b := x.bytes
  let s := (s.setReg oPowered (BitVec.ofNat 64 (fieldAt b 0x40 8))).setReg oCalendar (BitVec.ofNat 64 (fieldAt b 0x48 8))
  let s := s.setReg oHot (BitVec.ofNat 64 (fieldAt b 0x50 4))
  let s := foldSt (List.range (16 * s.nSlices)) (fun s n => s.setReg (oLifeCe n) (BitVec.ofNat 64 (fieldAt b (0x80 + 4 * n) 4))) s
  let s := foldSt (List.range s.nSlices) (fun s h =>
    foldSt (List.range 48) (fun s k => s.setReg (oRemap h k) (remapReg (fieldAt b (0x480 + 2 * (48 * h + k)) 2))) s) s
  let seq := fieldAt b 8 4
  let s := { s with cistern := { s.cistern with newest := some x.slot, seq := BitVec.ofNat 32 seq, ckptAt := fieldAt b 0x40 8 } }
  ((s.setFld oCisternStat 0 32 seq).setFld oCisternStat 32 8 x.slot).setFlag oCisternStat 40 true

/-- SLOT_WRITES of every slot: a slot with no valid header counts as the most-written valid one (R552). DEDUCED, log entry 26. -/
def slotCounts (l : List SlotImage) : Tbl Nat :=
  let counts := (l.filter fun x => slotHeader x.bytes).map fun x => (x.slot, fieldAt x.bytes 0xC 4)
  let top := counts.foldl (fun m p => max m p.2) 0
  (List.range 256).filterMap fun k =>
    let n := match counts.find? fun p => p.1 == k with | some p => p.2 | none => top
    if n = 0 then none else some (k, n)

/-- CISTERN_READ_DONE: the slots have been read; the newest valid record is restored, and self-test begins (R369, R491, R552). A slot
that is not listed reads erased. DEDUCED, log entry 26. -/
def execCisternReadDone (slots : List SlotImage) (s : State) : Outcome :=
  live s <|
  if s.phase ≠ 3 then .next s
  else match restorable slots.length (slots.filter fun x => slotCandidate x.bytes) with
    | some x => .next (({ s with cistern := { s.cistern with slotWrites := slotCounts slots } }.restoreFrom x).setPhase 4)
    | none => .next (s.setPhase 4)

/-! Phases SELFTEST and FILL (R375 to R377, R508 to R510). -/

/-- A spare row fails: BAD is set, and a set that it replaced needs another row (R366, R377). DEDUCED, log entry 25. -/
def State.badSpare (s : State) (h : Nat) (ev : Bool) (k : Nat) : State :=
  let o := oSl h ((if ev then 0x400 else 0x300) + 8 * k)
  let s := (s.setFlag o 1 true)
  if s.flag o 0 then
    (s.setFlag o 0 false).updSl h fun sl => { sl with hardRows := sl.hardRows ++ [(ev, s.fld o 4 14)] }
  else s

/-- A slice starts failed, with CAUSE and failed bank (R509). DEDUCED, log entry 25. -/
def State.startFailed (s : State) (f cause : Nat) (bank : Option Nat) : State :=
  if s.sliceFailed f then s
  else
    let b := buddy f
    let o := oSl f 0x90
    if s.sliceFailed b then ((s.setFld o 0 2 1).setFld o 2 4 cause).losePair f cause
    else
      let s := (((s.freeze f).setFld o 0 2 1).setFld o 2 4 cause).setFld (oSl b 0x90) 0 2 2
      let s := s.updSl f fun sl =>
        { sl with tk := { active := true, frame0 := s.frame, mapped := true, scanPos := 1024, opened := true, badBank := bank } }
      { s with routers := { s.routers with mapDue := s.routers.mapDue ++ [(f, b)] } }

/-- A failing row is remapped, or fails its slice (R377, R508). DEDUCED, log entry 25. -/
def State.startRow (s : State) (h : Nat) (ev : Bool) (set : Nat) : State :=
  if s.row h ev set ≠ set then s
  else match s.freeRemap h ev with
    | some k => s.remap h ev set k 1
    | none => s.startFailed h 5 (some (if ev then 4 + set / 2048 else set / 1024))

/-- The result of one failing part (R508). -/
def State.selfResult (s : State) : SelfFail → State
  | .row h ev set => s.startRow h ev set
  | .spare _ _ _ => s
  | .decoder h b => s.startFailed h 5 (some b)
  | .conflict h => s.startFailed h 3 none
  | .pipeline h => s.startFailed h 2 none
  | .journal h => s.retireJournal h
  | .store h _ => s.losePair h 0
  | .router _ => s

/-- The slice of a part that fails self-test; a router has none. -/
def selfSlice : SelfFail → Option Nat
  | .row h _ _ | .spare h _ _ | .decoder h _ | .conflict h | .pipeline h | .journal h | .store h _ => some h
  | .router _ => none

/-- SELFTEST_DONE: self-test ends and every failure has its result (R491, R508 to R510). DEDUCED, log entry 25. -/
def execSelftestDone (fails : List SelfFail) (s : State) : Outcome :=
  live s <| need (fails.all fun f => match selfSlice f with | some h => h < s.nSlices | none => true) <|
  if s.phase ≠ 4 then .next s
  else
    let s := fails.foldl (fun s f => match f with | .spare h ev k => s.badSpare h ev k | _ => s) s
    let s := foldSt (List.range s.nSlices) (fun s h =>
      let rows := (s.sl h).hardRows
      let s := s.updSl h fun sl => { sl with hardRows := [] }
      rows.foldl (fun s r => s.startRow h r.1 r.2) s) s
    let s := fails.foldl State.selfResult s
    .next (if s.fld oTakeover 16 8 ≠ 0 then s.failNow 0x12
      else if fails.any fun f => match f with | .router _ => true | _ => false then s.failNow 0x13
      else s.setPhase 5)

/-- The memory ports that the valid routes use (R493). -/
def State.usedPorts (s : State) : List Nat :=
  (List.range 12).filter fun p => (List.range 16).any fun n => s.flag (oRoute n) 0 && s.flag (oRoute n) (4 + p)

/-- Every memory port that the routes use reports up. -/
def State.portsUp (s : State) : Bool := s.usedPorts.all fun p => s.flag oFill (40 + p)

/-- Phase ZERO begins. -/
def State.enterZero (s : State) : State := { s with boot := { s.boot with zeroAt := s.frame } }.setPhase 7

/-- ARRAY_FILL_DONE: every array has been written, and MEMWAIT begins unless every port is up (R206, R386, R491, R493). -/
def execArrayFillDone (s : State) : Outcome :=
  live s <|
  if s.phase ≠ 5 then .next s
  else
    let s := foldSt (List.range s.nSlices) (fun s k => s.updSl k fun sl =>
      { sl with ondie := [], evgan := [], stage := [], replOn := [], replEv := [], heat := [], journal := [], jflips := [] }) s
    .next (if s.portsUp then s.enterZero else s.setPhase 6)

/-- MEMORY_PORT_UP: a memory port reports up (R491, R493). -/
def execMemoryPortUp (p : Nat) (s : State) : Outcome :=
  live s <| need (p < 12) <|
  let s := s.setFlag oFill (40 + p) true
  .next (if s.phase = 6 && s.portsUp then s.enterZero else s)

/-- MEM_WAIT has run out with a used port not up (R493). -/
def State.memWaitDue (s : State) : Bool :=
  match s.boot.loadAt with
  | some f => 3 ≤ s.phase && s.phase ≤ 6 && f + 1024 * s.boot.memWait ≤ s.frame && !s.portsUp
  | none => false

/-- MEM_WAIT_EXPIRY: MEM_WAIT runs out since the load edge with a used port not up by the end of this frame (R14, R493, R514).
DEDUCED, log entry 24. -/
def execMemWaitExpiry (s : State) : Outcome := live s <| when' s.memWaitDue s (s.lapseAt .memWait)

/-! Phase ZERO (R511, R512). -/

/-- The next line from `pos` to `last` that is routed to a port; a GiB whose route does not use the port is passed over. -/
def State.nextFill (s : State) (p last : Nat) : (fuel pos : Nat) → Option Nat
  | 0, _ => none
  | n + 1, pos =>
    if last < pos then none
    else
      let a := BitVec.ofNat 46 pos
      let uses := match s.routeOf a with | some r => s.flag (oRoute r) (4 + p) | none => false
      if !uses then s.nextFill p last n ((pos / 2 ^ 24 + 1) * 2 ^ 24)
      else if s.memPort a = p then some pos
      else s.nextFill p last n (pos + 1)

/-- The next line of an engine: entry of ZEROFILL and line. -/
def State.nextLine (s : State) (p : Nat) : (fuel range pos : Nat) → Option (Nat × Nat)
  | 0, _, _ => none
  | n + 1, range, pos =>
    match s.boot.fills[range]? with
    | none => none
    | some f =>
      match s.nextFill p (f.2 / 64 + 63) 20000 (max pos (f.1 / 64)) with
      | some l => some (range, l)
      | none => s.nextLine p n (range + 1) 0

/-- The fill engine of a port. -/
def State.fillEngine (s : State) (p : Nat) : FillEngine := tget {} s.boot.engines p

/-- Store a fill engine. -/
def State.setEngine (s : State) (p : Nat) (e : FillEngine) : State :=
  { s with boot := { s.boot with engines := tput p e s.boot.engines, zeroAt := s.frame } }

/-- The line an engine sends next. -/
def State.fillNext (s : State) (p : Nat) : Option (Nat × Nat) :=
  s.nextLine p 17 (s.fillEngine p).range (s.fillEngine p).pos

/-- An engine has had every write answered. -/
def State.fillDone (s : State) (p : Nat) : Bool := (s.fillEngine p).waiting.isEmpty && (s.fillNext p).isNone

/-- The write of zeros that an engine sends (R511). -/
def fillMsg (htid line : Nat) : Msg := .mem .wr 3 htid 0 0 (BitVec.ofNat 46 line) false 0

/-- FILL_WRITE_SEND: an engine sends a write again, or the next line, at most 24 in a frame (R511, R512). -/
def execFillWriteSend (p : Nat) (s : State) : Outcome :=
  live s <| need (p < 12) <|
  let e := s.fillEngine p
  let n := if e.offered.1 = s.frame then e.offered.2 else 0
  if s.phase ≠ 7 || 24 ≤ n then .next s
  else
    let e := { e with offered := (s.frame, n + 1) }
    match e.resend.find? fun w => w.2.2 < s.frame with
    | some w =>
      let e := { e with resend := e.resend.erase w, waiting := e.waiting.map fun v => if v.1 = w.1 then (v.1, v.2.1, s.frame) else v }
      .next ((s.setEngine p e).send s.frame (.mem p) (fillMsg w.1 w.2.1))
    | none =>
      match s.fillNext p, (List.range 256).find? fun t => !(e.waiting.any fun w => w.1 == t) with
      | some (r, l), some t =>
        .next ((s.setEngine p { e with range := r, pos := l + 1, waiting := e.waiting ++ [(t, l, s.frame)] }).send s.frame (.mem p)
          (fillMsg t l))
      | _, _ => .next s

/-- A write of a fill engine has had no answer for 65,536 frames (R512). -/
def State.fillLate (s : State) (p : Nat) : Bool := s.phase = 7 && (s.fillEngine p).waiting.any fun w => w.2.2 + 65536 ≤ s.frame

/-- FILL_WRITE_TIMEOUT: a write has no answer by the end of the 65,536th frame after it was sent (R14, R512). DEDUCED, log entry 24. -/
def execFillWriteTimeout (p : Nat) (s : State) : Outcome :=
  live s <| need (p < 12) <| when' (s.fillLate p) s (s.lapseAt (.fill p))

/-- The fault records due at BLOCK_READY: remaps by self-test and slices that start failed (R495, R547). -/
def State.startFaults (s : State) (h : Nat) : State :=
  let s := foldSt (List.range 48) (fun s k =>
    let o := oRemap h k
    if s.flag o 0 && s.fld o 2 2 == 1 then s.faultDue (72 * h + 40) 1 (setDetail (s.fld o 4 14) (if k < 16 then 0 else 1)) else s) s
  if s.sliceFailed h then s.faultDue (1152 + 25) (s.fld (oSl h 0x90) 2 4) (BitVec.ofNat 64 h) else s

/-- BLOCK_READY: at the edge after the end of phase ZERO the block enters service (R495, R513). The command stands right after the
edge. DESIGN CHOICE, log entry 10. -/
def execBlockReady (s : State) : Outcome :=
  live s <|
  when' (s.phase = 7 && s.boot.zeroAt < s.frame && s.usedPorts.all s.fillDone) s <|
    s.edgeDo fun s => { ((foldSt (List.range s.nSlices) State.startFaults s).setFlag oBoot 4 true).setPhase 8 with ready := true }

/-! The Evgan clock and the temperature. -/

/-- EVCLK_LOSS: the Evgan interfaces find EVCLK lost (R569). DEDUCED, log entry 24. -/
def execEvclkLoss (s : State) : Outcome :=
  live s <| when' s.evganPresent s (if s.inService then s.evclkFail else s.startFail 0x11)

/-- The reading of a slice, from the sensors whose conversions passed (R573, R574). -/
def readingOf : Option Int → Option Int → Option Int
  | some a, some b => some (min 127 (max (-64) (max a b)))
  | some a, none | none, some a => some (min 127 (max (-64) a))
  | none, none => none

/-- Raise events of the frame that has just ended, at whose edge their cause takes effect. DESIGN CHOICE, log entry 10. -/
def State.atLastEdge (s : State) (f : State → State) : State :=
  { (f { s with frame := s.frame - 1, logNew := [] }).logFlush with frame := s.frame, marks := s.marks, logNew := s.logNew }.pinsOut

/-- A reading is 110 °C or more: the event belongs to the frame at whose edge the reading takes effect (R494, R575).
DEDUCED, log entry 24. -/
def State.tooHot (s : State) (k : Nat) (t : Int) : State :=
  if !s.ready then s.startFail 0x16
  else if k ∈ s.hotSlices then s
  else
    let d := BitVec.ofNat 64 k ||| ((BitVec.ofInt 8 t).setWidth 64 <<< 4)
    { s with hotSlices := s.hotSlices ++ [k] }.atLastEdge fun s => (s.raise 35 0 d).faultDue (1152 + 35) 0 d

/-- A reading of a slice takes effect (R234, R235, R574, R575). -/
def State.takeReading (s : State) (k : Nat) (r : Option Int) : State :=
  match r with
  | none => (s.setFld (oSl k 0x48) 0 8 0x80).rebudget k
  | some t =>
    let s := (s.setFld (oSl k 0x48) 0 8 (BitVec.ofInt 8 t).toNat).rebudget k
    let s := if t < 108 then { s with hotSlices := s.hotSlices.filter fun h => h != k } else s
    if 110 ≤ t then s.tooHot k t else s

/-- TEMP_READING: the reading of a slice takes effect at a reading edge (R234, R573). The command stands right after the edge.
DESIGN CHOICE, log entry 10. -/
def execTempReading (k : Nat) (a b : Option Int) (s : State) : Outcome :=
  liveAtEdge s <| need (k < s.nSlices) <|
  match s.boot.loadAt with
  | none => .next s
  | some f => when' ((s.frame - f) % 1024 = 0) s (s.edgeDo fun s => s.takeReading k (readingOf a b))

end Sys2Proof.Machine
end

