-- ==== Sys2Proof/Machine/Regs.lean ====
section
/-! DEFINITION. The register port: what each register holds and lets be written, configuration transactions, and the effect of a write
at its edge (R20, R54, R55, R238, R244 to R246, R296, R378, R379, R381, R427, R429, R446, R490, R516 to R524, R531, R533, R535, R542,
R546, R547, R553 to R566). -/

namespace Sys2Proof

/-! What an access covers. -/

/-- The register slot of an access. -/
def RegAccess.slot (w : RegAccess) : Nat := w.off / 8 * 8

/-- The access is one that the port accepts (R559). -/
def RegAccess.accepted (w : RegAccess) : Bool := (w.size = 4 || w.size = 8) && w.off % w.size = 0 && w.off < 0x200000

/-- The bits of its slot that a write covers (R560). DEDUCED, log entry 27. -/
def RegAccess.mask (w : RegAccess) : Reg :=
  if w.size = 8 then BitVec.allOnes 64 else if w.off % 8 = 4 then 0xFFFFFFFF00000000 else 0xFFFFFFFF

/-- The value that a write brings to its slot. -/
def RegAccess.value (w : RegAccess) : Reg := if w.size = 8 then w.val else if w.off % 8 = 4 then w.val <<< 32 else w.val &&& 0xFFFFFFFF

/-- What a read gets of the value of its slot. -/
def RegAccess.part (w : RegAccess) (v : Reg) : Reg := if w.size = 8 then v else if w.off % 8 = 4 then v >>> 32 else v &&& 0xFFFFFFFF

/-- A WO bit is written 1. -/
def RegAccess.starts (w : RegAccess) (b : Nat) : Bool := (w.mask &&& w.value).getLsbD b

end Sys2Proof

namespace Sys2Proof.Machine

/-! The shape of the registers. -/

/-- The slice and the offset in its window of an offset among the slice windows (R557). -/
def sliceOff (o : Nat) : Option (Nat × Nat) :=
  if 0x100000 ≤ o ∧ o < 0x200000 then some ((o - 0x100000) / 0x10000, (o - 0x100000) % 0x10000) else none

/-- The bytes of the registers of a slice window: its statistics, then its arrays of registers; the upper half of a register of 32 bits is
not among them (R557, R561, R566). -/
def sliceNamed (p : Nat) : Bool :=
  let narrow := [0x00, 0x08, 0x10, 0x28, 0x48, 0x60, 0x68].contains (p / 8 * 8) || (0x100 ≤ p && p < 0x1C0) || (0x300 ≤ p && p < 0x540)
  (p < 0x1C0 && !(0xC0 ≤ p && p < 0x100) || 0x200 ≤ p && p < 0x380 && !(0x280 ≤ p && p < 0x300) || 0x400 ≤ p && p < 0x580 || 0x800 ≤ p && p < 0xA00)
    && (!narrow || p % 8 < 4)

/-- RW fields of a slice register. -/
def rwSlice (o : Nat) : Reg := if 0x500 ≤ o ∧ o < 0x540 then 0xF7F3F else 0

/-- RW fields of the registers. -/
def rwMask (o : Nat) : Reg :=
  match sliceOff o with
  | some (_, p) => rwSlice p
  | none =>
    if o = oRinv then 0xFFFF
    else if o = oRinvBase ∨ o = oRinvLimit then 0xFFFFFFFFF
    else if o = oCe then 0xFFFFFF
    else if o = oFlip then 0xFFFFF0
    else if o = oScrub then 0x3FFFF
    else if o = oScrubRange then 0x3FFF3FFF
    else if o = oTakeover then 0xF
    else if o = oWalk then 0x1F
    else if o = oMeminitRange ∨ o = oDrain ∨ o = oCalendar then BitVec.allOnes 64
    else if o = oDbg then 0xFFFFFF
    else if o = oLogCtl ∨ o = oPmcCtl then 0x1
    else if o = oCistern then 0xFF
    else if o = oNvm then 0xFFFFFFFFFF00
    else if oNvmBuf 0 ≤ o ∧ o < oNvmBuf 32 then BitVec.allOnes 64
    else if o = oCfgCtl then 0xFFFF
    else if o = oBus then 0x7FF
    else if o = oAgentCtl then 0xF
    else 0

/-- RWL fields of the registers. -/
def rwlMask (o : Nat) : Reg :=
  match sliceOff o with
  | some (_, p) => if p = 0x28 then 0x1 else 0
  | none =>
    if 0x20000 ≤ o ∧ o < 0x24000 then
      match o % 0x100 with
      | 0x00 => if o = 0x20000 then 0x6 else 0x7
      | 0x08 => 0xFFFFFFFF
      | 0x10 => 0xFFF
      | 0x18 => BitVec.allOnes 64
      | 0x20 => 0x1FFF
      | 0x28 => 0x1
      | _ => 0
    else if 0x24000 ≤ o ∧ o < 0x24C00 then (if o % 0x80 = 8 then 0xFFF3F else 0)
    else if o = oHome then 0xFF3F
    else if o = oProgress then 0x3F0FFF
    else if o = oSlot then 0xF
    else if o = oWeir then 0xFFFFFFF
    else if o = oAtom then 0x3F03
    else if o = oIowr then 0xFFFFF0F
    else if o = oFilter then 0xFF7F04
    else if o = oWaylock then 0xFFFFFFFF
    else if o = oEvgan then 0xFF
    else if oEvtRoute 0 ≤ o ∧ o < oEvtRoute 25 then 0x1F1F1F1F1F1F1F1F
    else 0

/-- W1C bits of the registers. -/
def w1cMask (o : Nat) : Reg :=
  match sliceOff o with
  | some (_, p) =>
    if p = 0x28 then 0x4 else if p = 0xA8 then BitVec.allOnes 64 else if p = 0xB0 then 0xFF
    else if 0x540 ≤ p ∧ p < 0x580 then 0x1000000000000 else 0
  | none =>
    if o = oRinv then 0xC0000
    else if o = oFlip then 0x2
    else if o = oScrub then 0x300000
    else if o = oTakeover then 0x80
    else if o = oWalk then 0xC00
    else if o = oMeminit then 0xC
    else if o = oDbg then 0x2000000
    else if o = oEvtPend 0 ∨ o = oEvtPend 1 then BitVec.allOnes 64
    else if o = oPmcCtl then 0x4
    else if o = oCycles then 0x1000000000000
    else if o = oNvm then 0x10
    else 0

/-- Bits of the registers whose write of 1 starts something or clears counts. -/
def woMask (o : Nat) : Reg :=
  match sliceOff o with
  | some (_, p) => if p = 0x28 then 0x8 else if p < 0x540 then 0x8000000080000000 else 0
  | none =>
    if o = oRinv then 0x10000
    else if o = oFlip then 0x1
    else if o = oScrub then 0x40000
    else if o = oTakeover then 0x30
    else if o = oWalk then 0x100
    else if o = oMeminit then 0x1
    else if o = oDbg then 0x1000000
    else if o = oPmcCtl then 0x2
    else if o = oCistern then 0x100
    else if o = oNvm then 0x7
    else if o = oLogPtr then 0x1FFF0000
    else if 0x20000 ≤ o ∧ o < 0x24C00 then 0x8000000080000000
    else if oStream 0 ≤ o ∧ o < oStream 4 ∨ o = oNetInteg ∨ o = oLogCtl then 0x8000000080000000
    else 0

/-- What a CLEAR field clears (R563): its bit, the counts, and the values noted beside a count. -/
structure Clear where
  bit    : Nat
  counts : List (Nat × Nat)
  notes  : List (Nat × Nat) := []
  deriving DecidableEq, Repr

/-- The CLEAR field of a slice register. -/
def clearSlice (p : Nat) : Option Clear :=
  match p with
  | 0x08 => some ⟨31, [(0, 16)], [(16, 5), (21, 4)]⟩
  | 0x10 => some ⟨31, [(0, 8), (22, 8)], [(8, 10), (18, 4)]⟩
  | 0x18 => some ⟨63, [(0, 24), (32, 16)], [(24, 8)]⟩
  | 0x20 => some ⟨63, [(52, 8)], []⟩
  | 0x30 => some ⟨63, [(0, 24), (24, 24), (48, 8)], []⟩
  | 0x40 => some ⟨63, [(0, 24), (24, 24)], []⟩
  | 0x58 => some ⟨63, [(0, 24), (24, 24), (48, 8)], []⟩
  | 0x60 => some ⟨31, [(6, 16), (22, 8)], []⟩
  | 0x68 => some ⟨31, [(0, 8), (8, 8)], []⟩
  | 0x70 => some ⟨63, [(0, 24), (24, 16)], [(40, 3)]⟩
  | 0x78 => some ⟨63, [(0, 16), (16, 8)], [(25, 38)]⟩
  | 0x88 => some ⟨63, [(13, 16), (29, 24)], []⟩
  | 0xA0 => some ⟨63, [(0, 24), (24, 16), (40, 16)], []⟩
  | 0xB0 => some ⟨63, [(8, 16)], []⟩
  | 0xB8 => some ⟨63, [(0, 24), (24, 24)], []⟩
  | _ => if 0x200 ≤ p ∧ p < 0x280 then some ⟨63, [(16, 16), (32, 8)], []⟩ else none

/-- The CLEAR field of a register. -/
def clearOf (o : Nat) : Option Clear :=
  match sliceOff o with
  | some (_, p) => clearSlice p
  | none =>
    if 0x20000 ≤ o ∧ o < 0x24000 then (if o % 0x100 = 0x30 then some ⟨63, [(0, 24), (24, 24), (48, 8)], []⟩ else none)
    else if 0x24000 ≤ o ∧ o < 0x24C00 then
      match o % 0x80 with
      | 0x10 => some ⟨31, [(8, 16)], []⟩
      | 0x18 => some ⟨31, [(8, 8), (16, 8), (24, 7)], []⟩
      | 0x20 => some ⟨31, [(0, 16), (16, 15)], []⟩
      | 0x28 => some ⟨31, [(16, 15)], []⟩
      | _ => none
    else if oStream 0 ≤ o ∧ o < oStream 4 then some ⟨63, [(8, 16)], [(24, 10)]⟩
    else if o = oNetInteg then some ⟨63, [(0, 32)], []⟩
    else if o = oLogCtl then some ⟨31, [(16, 15)], []⟩
    else none

/-! Reads (R558 to R562, R565). -/

/-- A block source, or a source of slice `k`, with EN = 1 is pending (R536). -/
def State.slicePending (s : State) (k : Nat) (p : Nat → Bool) : Bool :=
  (List.range 72).any fun i => s.flag (oSl k (if i < 64 then 0xA8 else 0xB0)) (i % 64) && (s.routeByte i).getLsbD 0 && p i
@[inherit_doc State.slicePending] def State.blockPending (s : State) (p : Nat → Bool) : Bool :=
  (List.range 128).any fun j => s.flag (oEvtPend (j / 64)) (j % 64) && (s.routeByte (72 + j)).getLsbD 0 && p (72 + j)

/-- What a register outside the slice windows reads as to an initiator. -/
def State.readBlock (s : State) (init o : Nat) : Reg :=
  let r := s.reg o
  if o = 0 then rfield 0 8 s.fusing.code ||| rfield 8 8 3 ||| rfield 16 8 1
  else if o = 8 then BitVec.ofNat 64 s.frame
  else if o = oCfg then
    let v := s.view init
    rfield 2 1 (if v.isOpen then 1 else 0) ||| rfield 3 13 (min v.writes 4097) ||| rfield 16 4 v.result
  else if o = oSlot then setBits r 4 16 ((c0Map s.c0Slots).foldl (fun m k => m ||| ((1 : BitVec 16) <<< k)) 0)
  else if oStream 0 ≤ o ∧ o < oStream 4 then setBits r 0 7 (BitVec.ofNat 7 (s.hub ((o - oStream 0) / 8)).streams.length)
  else if o = oEvtSummary then
    s.vectors.setWidth 64 ||| ((List.range s.nSlices).foldl (fun m k => if s.slicePending k fun _ => true then m ||| rfield (8 + k) 1 1 else m) 0)
      ||| rfield 24 1 (if s.blockPending fun _ => true then 1 else 0)
  else if o = oLogPtr then rfield 0 13 s.ring.wr.toNat ||| rfield 16 13 s.ring.rd.toNat
  else if 0x10000 ≤ o ∧ o < 0x20000 then bits (tget 0 s.ring.entries ((o - 0x10000) / 16)) (64 * (o / 8 % 2)) 64
  else if 0x24000 ≤ o ∧ o < 0x24C00 ∧ o % 0x80 = 0x28 then
    let a := (o - 0x24000) / 0x80
    if a < 16 then 0 else setBits r 8 1 (b1 (s.streaming a))
  else r

/-- What a register reads as to an initiator, by the fields as they stand (R517, R558, R559, R561). -/
def State.readReg (s : State) (w : RegAccess) : Reg :=
  if !w.accepted then 0
  else w.part <| match sliceOff w.slot with
    | some (k, p) => if k < s.nSlices then s.readSlice k p else 0
    | none => s.readBlock w.init w.slot

/-- The register port answers a read (R562). -/
def State.answerRead (s : State) (w : RegAccess) (v : Reg) : State := { s with reads := s.reads ++ [⟨s.frame, w.init, w.off, w.size, v⟩] }

/-! Where accesses go. -/

/-- The access goes to a register of a slice window that exists (R561). -/
def State.toSlice (s : State) (w : RegAccess) : Option Nat :=
  match sliceOff w.off with
  | some (k, p) => if k < s.nSlices && sliceNamed p then some k else none
  | none => none

/-- The window of a failed slice, or of a lost pair, takes only W1C bits and CLEAR fields (R565). -/
def State.deadWindow (s : State) (w : RegAccess) : Bool :=
  match s.toSlice w with
  | some k => s.sliceFailed k || s.pairLost k
  | none => false

/-- The offset lies among the slice windows and is unnamed: on KR16/8 the windows of slices 8 to 15 are (R561). -/
def State.unnamed (s : State) (w : RegAccess) : Bool := (sliceOff w.slot).isSome && (s.toSlice w).isNone

/-- The register holds an RWL field and the write covers it or its half (R518, R558, R560). DEDUCED, log entry 27. -/
def State.isRwl (s : State) (w : RegAccess) : Bool :=
  let m := rwlMask w.slot
  m != 0 && !s.unnamed w && !s.deadWindow w && (w.mask &&& 0xFFFFFFFF != 0 || m >>> 32 != 0)

/-! Configuration transactions (R516 to R522). -/

/-- Configuration refused (R522, R539). -/
def State.cfgRefused (s : State) (init result off : Nat) : State :=
  s.raise 36 result (BitVec.ofNat 64 init ||| (BitVec.ofNat 64 off <<< 8))

/-- Store the shadow of a write: a later write of the same bits replaces them (R518). -/
def shadowPut (o : Nat) (m v : Reg) : List (Nat × Reg × Reg) → List (Nat × Reg × Reg)
  | [] => [(o, m, v &&& m)]
  | e :: t => if e.1 = o then (o, e.2.1 ||| m, (e.2.2 &&& ~~~m) ||| (v &&& m)) :: t else e :: shadowPut o m v t

/-- An RWL write of an initiator: to shadow in a transaction, otherwise rejected (R20, R518). DEDUCED, log entry 27. -/
def State.rwl (s : State) (w : RegAccess) : State :=
  let v := s.view w.init
  if v.isOpen then
    s.setView w.init { v with writes := min 4097 (v.writes + 1), shadow := shadowPut w.slot (w.mask &&& rwlMask w.slot) w.value v.shadow }
  else s.incFld oCfgCtl 16 16 1

/-- CMD of LZ_CFG is served (R520, R521). DEDUCED, log entry 28. -/
def State.cfgCmd (s : State) (init cmd : Nat) : State :=
  let v := s.view init
  match cmd with
  | 1 => s.setView init (if v.isOpen then { v with result := 7 } else
      { v with isOpen := true, writes := 0, shadow := [], begunAt := s.frame, begunSeq := s.commits })
  | 2 =>
    if v.isOpen then
      { s.setView init { v with isOpen := false, writes := 0, shadow := [] } with edgeQ := s.edgeQ ++ [.commit init v] }
    else s.setView init { v with result := 7 }
  | 3 => s.setView init (if v.isOpen then { v with isOpen := false, writes := 0, shadow := [], result := 2 } else { v with result := 7 })
  | _ => s

/-- Serve an access outside the slice windows, or one that has won its transfer; a read returns the fields as they stood at the edge that
began the frame (R518, R520, R560, R562, R564). -/
def State.serve (s : State) (w : RegAccess) : State :=
  if w.read then s.answerRead w (s.asShown.readReg w)
  else if s.unnamed w then s
  else if w.slot = oCfg then (if w.mask.getLsbD 0 then s.cfgCmd w.init (w.value.toNat % 4) else s)
  else
    let s := if s.isRwl w then s.rwl w else s
    if (rwMask w.slot ||| w1cMask w.slot ||| woMask w.slot) &&& w.mask = 0 then s else { s with edgeQ := s.edgeQ ++ [.write w] }

/-- Serve the accesses at the head of the port's queue that need no transfer (R562). -/
def drainPort (s : State) : List RegAccess → State
  | [] => { s with bus := { s.bus with port := [] } }
  | w :: rest => if (s.toSlice w).isSome then { s with bus := { s.bus with port := w :: rest } } else drainPort (s.serve w) rest

/-- The operation that a write of LZ_NVM_CTL names (R554). -/
def nvmOp (w : RegAccess) : Nat := if w.slot = oNvm && w.mask.getLsbD 0 then (w.mask &&& w.value).toNat % 8 else 0

/-- An operation written before BLOCK_READY is refused: ERROR 0x1, although the write is ignored (R490, R554). DEDUCED, log entry 27. -/
def State.earlyOp (s : State) (w : RegAccess) : State := if 1 ≤ nvmOp w && nvmOp w ≤ 4 then s.setFld oNvm 5 3 1 else s

/-- An access arrives at the register port (R490, R559, R561, R562). DEDUCED, log entry 27. -/
def State.portAccess (s : State) (w : RegAccess) : State :=
  if !w.accepted then (if w.read then s.answerRead w 0 else s)
  else if !s.ready && !w.read then (s.incFld oCfgCtl 16 16 1).earlyOp w
  else if !s.bus.port.isEmpty || (s.toSlice w).isSome then { s with bus := { s.bus with port := s.bus.port ++ [w] } }
  else s.serve w

/-- An access row: the access is the row's, or the event is not this one. -/
def accessRow (p : Bool) (w : RegAccess) (s : State) : Outcome := live s <| need (w.init < 16) <| when' p s (s.portAccess w)
@[inherit_doc accessRow] def writeRow (p : Bool) (w : RegAccess) (s : State) : Outcome := accessRow (p && !w.read) w s

/-- CFG_BEGIN (R520). -/
def execCfgBegin (init : Nat) (s : State) : Outcome := writeRow true ⟨init, oCfg, 4, 1, false⟩ s
/-- CFG_COMMIT (R519, R520). -/
def execCfgCommit (init : Nat) (s : State) : Outcome := writeRow true ⟨init, oCfg, 4, 2, false⟩ s
/-- CFG_ROLLBACK (R520, R521). -/
def execCfgRollback (init : Nat) (s : State) : Outcome := writeRow true ⟨init, oCfg, 4, 3, false⟩ s

/-- A transaction is at the end of its lifetime (R521). -/
def State.configDue (s : State) (init : Nat) : Bool :=
  (s.view init).isOpen && (s.view init).begunAt + 1024 * max 1 (s.fld oCfgCtl 0 16) ≤ s.frame

/-- A transaction is discarded at the end of its lifetime (R521, R522). -/
def State.configLapse (s : State) (init : Nat) : State :=
  (s.setView init { s.view init with isOpen := false, writes := 0, shadow := [], result := 3 }).cfgRefused init 3 0

/-- CFG_TIMEOUT: a transaction that is still open at the end of this frame is at the end of its lifetime (R521, R522). -/
def execCfgTimeout (init : Nat) (s : State) : Outcome :=
  live s <| need (init < 16) <| when' (s.configDue init) s (s.lapseAt (.config init))

/-! COMMITs at the edge (R257, R258, R296, R519). -/

/-- The first register written that another COMMIT has written since the BEGIN (R519 test 2). DEDUCED, log entry 28. -/
def State.conflict (s : State) (v : CfgView) : Option Nat :=
  (v.shadow.find? fun e => v.begunSeq < tget 0 s.committed e.1).map Prod.fst

/-- Put the shadowed fields in force (R518, R519). -/
def State.putShadow (s : State) (l : List (Nat × Reg × Reg)) : State :=
  l.foldl (fun s e => s.setReg e.1 ((s.reg e.1 &&& ~~~e.2.1) ||| e.2.2)) s

/-- The held requests of a tenant are recolored, or become green, after the edge's COMMITs (R296, R297). DEDUCED, log entry 34. -/
def State.addRecolor (s : State) (t : Nat) (green : Bool) : State := { s with recolorDue := s.recolorDue ++ [(t, green)] }

/-- What a committed change of a tenant's settings does at the edge in every weir that works, from the settings `b` before (R258, R296,
R565). DEDUCED, log entry 34. -/
def State.tenantChange (s b : State) (t : Nat) : State :=
  let (_, _, cbs, pbs) := s.meter t
  let (_, _, cbs', pbs') := b.meter t
  let cap := 64 * s.fld (oTn t 0x10) 8 4
  let slices := s.weirs
  let s := if s.reg (oTn t 0x10) = b.reg (oTn t 0x10) then s
    else foldSt slices (fun s e => s.setC0Credit e t (min (s.c0Credit e t) cap)) s
  if s.meterEn t && !b.meterEn t then foldSt slices (fun s e => s.setBuckets e t cbs pbs) { s with meterOff := setBits s.meterOff t 1 0 }
  else
    let sized := (cbs, pbs) != (cbs', pbs')
    let s := if sized then foldSt slices (fun s e => s.setBuckets e t (min (s.cBucket e t) cbs) (min (s.pBucket e t) pbs)) s else s
    if !s.meterEn t then (if b.meterEn t then { s with meterOff := setBits s.meterOff t 1 1 }.addRecolor t true else s)
    else if sized then s.addRecolor t false else s

/-- The placement loop of a slice stops and its queue empties (R233). -/
def State.stopPlacement (s : State) (k : Nat) : State := s.updSl k fun sl => { sl with promote := [], move := none }

/-- What a committed change of ENABLE does in a slice; the maintenance engine goes on with what may run (R233, R244, R246). -/
def State.enableChange (s b : State) (k : Nat) : State :=
  let o := oSl k 0x28
  if b.flag o 0 && !s.flag o 0 then ((s.setFlag o 1 true).stopPlacement k).maintNext k
  else if !b.flag o 0 && s.flag o 0 && s.flag o 1 then ((s.setFlag o 2 true).raiseSl k 36 0 0).maintNext k
  else s

/-- The effects of an accepted COMMIT, from the state `b` before it. -/
def State.commitEffects (s b : State) (written : List Nat) : State :=
  let slices := List.range s.nSlices
  let tens := (List.range 64).filter fun t => [0x10, 0x18, 0x20].any fun o => written.contains (oTn t o)
  let s := foldSt tens (fun s t => s.tenantChange b t) s
  let s := foldSt slices (fun s k => s.enableChange b k) s
  let s := if b.flag oFilter 2 && !s.flag oFilter 2 then foldSt slices State.stopPlacement s else s
  if s.fld oEvgan 0 8 = b.fld oEvgan 0 8 then s else foldSt slices State.rebudget s

/-- The shadowed fields of a transaction in force; a window that takes no such write keeps its own (R519, R565). -/
def State.shadowed (s : State) (v : CfgView) : State :=
  s.putShadow (v.shadow.filter fun e => match sliceOff e.1 with | some (k, _) => !s.sliceFailed k && !s.pairLost k | none => true)

/-- A COMMIT is taken at the edge (R519, R522). DEDUCED, log entry 28. -/
def State.commit (s : State) (init : Nat) (v : CfgView) : State :=
  let answer (s : State) (r : Nat) : State := s.setView init { s.view init with result := r }
  if 4096 < v.writes then (answer s 4).cfgRefused init 4 0
  else match s.conflict v with
    | some o => (answer s 5).cfgRefused init 5 o
    | none =>
      let t := s.shadowed v
      if !t.r260 then (answer s 6).cfgRefused init 6 0
      else
        let written := v.shadow.map Prod.fst
        let t := { t with commits := s.commits + 1, committed := written.foldl (fun c o => tput o (s.commits + 1) c) s.committed }
        answer (t.commitEffects s written) 1

/-! Writes at the edge (R562 to R565). -/

/-- The RW fields of a write. -/
def State.putRw (s : State) (w : RegAccess) : State :=
  let m := rwMask w.slot &&& w.mask
  if m = 0 then s else s.setReg w.slot ((s.reg w.slot &&& ~~~m) ||| (w.value &&& m))

/-- The W1C bits of a write: a bit that the block set in this frame stays 1 (R535, R563). -/
def State.putW1c (s : State) (w : RegAccess) : State :=
  let m := w1cMask w.slot &&& w.mask &&& w.value
  foldSt ((List.range 64).filter fun b => m.getLsbD b && tget 0 s.marks (64 * w.slot + b) == 0) (fun s b => s.setFlag w.slot b false) s

/-- A CLEAR field written 1: a count keeps what was counted in this frame, and a noted value stays if it was noted in it (R563).
DEDUCED, log entry 33. -/
def State.putClear (s : State) (w : RegAccess) : State :=
  match clearOf w.slot with
  | none => s
  | some c =>
    if !(w.mask &&& w.value).getLsbD c.bit then s
    else
      let n (lo : Nat) : Nat := tget 0 s.marks (64 * w.slot + lo)
      let s := c.counts.foldl (fun s f => s.setFld w.slot f.1 f.2 (min (n f.1) (2 ^ f.2 - 1))) s
      c.notes.foldl (fun s f => if n f.1 = 0 then s.setFld w.slot f.1 f.2 0 else s) s

/-- The slices that SLICES selects and that work: one of a lost pair has nothing to do, and counts as finished (R243, R384).
DESIGN CHOICE, log entry 44. -/
def State.selected (s : State) (o : Nat) : List Nat := (List.range s.nSlices).filter fun k => s.flag o k && !s.pairLost k

/-- Start an operation of the maintenance engine in the selected slices, or set IGNORED: register, its BUSY, DONE and IGNORED bits,
and the event of its end (R238, R243, R381, R384). -/
def State.startOp (s : State) (o busy done ignored src : Nat) (op : MaintOp) : State :=
  if s.flag o busy then s.setFlag o ignored true
  else
    let l := s.selected o
    let s := foldSt (List.range s.nSlices) (fun s k => s.updSl k fun sl => { sl with summed := sl.summed.erase op }) s
    if l.isEmpty then (s.setFlag o done true).raise src 0 0 else foldSt l (fun s k => s.maintAdd k op) (s.setFlag o busy true)

/-- START in LZ_AGENTWALK_CTL (R446). -/
def State.walkStart (s : State) : State :=
  let a := s.fld oWalk 0 5
  if s.flag oWalk 9 || 24 ≤ a || !s.sluice a then s.setFlag oWalk 11 true else s.startWalk a

/-- START in LZ_MEMINIT_CTL (R531). -/
def State.initStart (s : State) : State :=
  if s.flag oMeminit 1 then s.setFlag oMeminit 3 true
  else foldSt (List.range s.nSlices) (fun s k => s.updSl k fun sl => { sl with initPos := some 0, initFound := [] }) (s.setFlag oMeminit 1 true)

/-- What REBUILD leaves of the maintenance engine: the arrays are empty, so no reread or remap of the scrub in progress is left, and an
operation that the disabled filter holds starts again (R242, R244, R245, R384). DEDUCED, log entry 29. -/
def State.rebuildMaint (s : State) (k : Nat) : Maint :=
  let m := { (s.sl k).maint with shadow := [], rereads := [], rows := [], fixes := [] }
  if (m.running.map (s.maintHeld k)).getD false then { m with pos := 0, found := [], retry := [] } else m

/-- REBUILD in SL_FILTER_CTL: the arrays are written to zeros, and the sweep starts in the frame that begins (R245).
DEDUCED, log entry 29. -/
def State.rebuild (s : State) (k : Nat) : State :=
  if s.flag (oSl k 0x28) 0 || s.flag (oSl k 0x28) 4 then s
  else
    let m := s.rebuildMaint k
    (((s.setFld (oSl k 0x28) 4 1 1).zeroOndie k).zeroStage k).updSl k fun sl =>
      { sl with evgan := [], wbuf := [], presence := [], spillQ := [], orphans := [], orphanRest := [], correct := [], reread := []
                hardRows := [], copies := [], freed := [], maint := m, rebuildOn := true, sweepDue := true
                txns := sl.txns.map fun p => (p.1, { p.2 with loc := none, claim := none }) }

/-- The TARGET fits the bank (R378). -/
def flipFits (bank target : Nat) : Bool :=
  if bank ≤ 11 then target ≤ 1 else if bank = 12 then target ≤ 2 else target = 2

/-- ARM in LZ_FLIP_CTL (R378, R379). -/
def State.armFlip (s : State) (arm : Bool) : State :=
  if !s.flag oFlip 2 then s
  else if arm && !flipFits (s.fld oFlip 8 4) (s.fld oFlip 12 2) then s
  else s.setFld oFlip 0 1 (if arm then 1 else 0)

/-- FORCE in LZ_TAKEOVER_CTL (R429). DEDUCED, log entry 29. -/
def State.force (s : State) : State :=
  let f := s.fld oTakeover 0 4
  if s.flag oTakeover 8 && f < s.nSlices && !s.sliceFailed (buddy f) then s.failSlice f 6 else s

/-- RETURN in LZ_TAKEOVER_CTL (R427, R428). DEDUCED, log entry 29. -/
def State.returnStart (s : State) : State :=
  let f := s.fld oTakeover 0 4
  if s.mayReturn f then (s.setFld oTakeover 6 1 1).updSl f fun sl => { sl with tk := { sl.tk with returning := true } }
  else s.setFlag oTakeover 7 true

/-- The counters latched by a snapshot (R546). -/
def State.latched (s : State) : Tbl Reg :=
  ((List.range (8 * s.nSlices)).map fun n => (n, s.reg (oSl (n / 8) (0x540 + 8 * (n % 8))))) ++ [(128, s.reg oCycles)]

/-- SNAP in LZ_PMC_CTL (R546). DEDUCED, log entry 29. -/
def State.snap (s : State) : State :=
  if s.bus.sampling.isSome then s else { s with pmc := { s.pmc with latch := s.latched }, bus := { s.bus with sampling := some 0 } }

/-- A record or a firmware access falls due (R547, R548); LZ_CISTERN_STAT shows the records. -/
def State.itemDue (s : State) (i : NvmItem) : State :=
  let s := { s with cistern := { s.cistern with due := if i ∈ s.cistern.due then s.cistern.due else s.cistern.due ++ [i] } }
  match i with
  | .checkpoint => s.setFlag oCisternStat 41 true | .fault => s.setFlag oCisternStat 42 true | .lifetime => s.setFlag oCisternStat 43 true
  | .firmware => s.setFlag oNvm 3 true

/-- The bytes that a firmware access touches all lie below the cistern (R554). -/
def State.nvmAllowed (s : State) (op : Nat) : Bool :=
  s.fld oNvm 16 32 + (if op = 3 || op = 4 then 0 else s.fld oNvm 8 8) < 0x800000 || op = 4

/-- OP in LZ_NVM_CTL: the operation keeps the ADDR and LEN that it was written with (R554, R555). DEDUCED, log entry 30. -/
def State.nvmStart (s : State) (op init : Nat) : State :=
  if op = 0 || 4 < op || s.flag oNvm 3 then s
  else if !s.nvmAllowed op then s.setFld oNvm 5 3 1
  else { s with cistern := { s.cistern with fwOp := op, fwInit := init, fwAddr := s.fld oNvm 16 32, fwLen := s.fld oNvm 8 8 } }.itemDue .firmware

/-- RD of LZ_LOG_PTR (R542, R563). -/
def State.putRd (s : State) (w : RegAccess) : State :=
  let r := { s.ring with rd := (s.ring.rd &&& ~~~(bits w.mask 16 13)) ||| (bits (w.value &&& w.mask) 16 13) }
  if r.used ≤ 4096 then { s with ring := r } else s

/-- What a write starts, after its other fields are in force. DEDUCED, log entry 31. -/
def State.putWo (s : State) (w : RegAccess) : State :=
  match sliceOff w.slot with
  | some (k, p) => if p = 0x28 && w.starts 3 then s.rebuild k else s
  | none =>
    let o := w.slot
    if o = oRinv then (if w.starts 16 then s.startOp oRinv 17 18 19 22 .rinv else s)
    else if o = oScrub then (if w.starts 18 then s.startOp oScrub 19 20 21 34 .scrub else s)
    else if o = oWalk then (if w.starts 8 then s.walkStart else s)
    else if o = oMeminit then (if w.starts 0 then s.initStart else s)
    else if o = oFlip then (if w.mask.getLsbD 0 then s.armFlip (w.value.getLsbD 0) else s)
    else if o = oTakeover then
      let s := if w.starts 4 then s.force else s
      if w.starts 5 then s.returnStart else s
    else if o = oDbg then (if w.starts 24 then { s with bus := { s.bus with dbgStart := true } } else s)
    else if o = oPmcCtl then (if w.starts 1 then s.snap else s)
    else if o = oCistern then (if w.starts 8 then s.itemDue .lifetime else s)
    else if o = oCalendar then s.itemDue .lifetime
    else if o = oNvm then (if w.mask.getLsbD 0 then s.nvmStart ((w.mask &&& w.value).toNat % 8) w.init else s)
    else if o = oLogPtr then s.putRd w
    else s

/-- A write of LZ_LIFE_CALENDAR notes what the tick of the same edge needs: the register before the edge's writes, and the bits that they
replace (R563). DEDUCED, log entry 31. -/
def State.seeding (s : State) (w : RegAccess) : State :=
  if w.slot ≠ oCalendar then s
  else
    let (old, m) := match s.cistern.seededAt with
      | some (f, old, m) => if f = s.frame + 1 then (old, m) else (s.reg oCalendar, 0)
      | none => (s.reg oCalendar, 0)
    { s with cistern := { s.cistern with seededAt := some (s.frame + 1, old, m ||| w.mask) } }

/-- A served write takes effect at the edge (R562 to R565). -/
def State.applyWrite (s : State) (w : RegAccess) : State :=
  if s.unnamed w then s
  else
    let s := s.seeding w
    let s := (if s.deadWindow w then s else s.putRw w).putW1c w
    let s := s.putClear w
    if s.deadWindow w then s else s.putWo w

/-- What waits for the edge takes effect. -/
def State.applyOp (s : State) : EdgeOp → State
  | .write w => s.applyWrite w
  | .commit i v => s.commit i v

/-- A write of RD or MODE of the event log, which the block's own changes of the frame precede (R540, R563). -/
def EdgeOp.toLog : EdgeOp → Bool
  | .write w => w.slot = oLogPtr || w.slot = oLogCtl
  | .commit _ _ => false

/-- Step 2 of an edge: the writes and COMMITs served in the frame, in the order in which the port received them (R251, R519), but for those of
the event log. -/
def State.applyEdge (s : State) (q : List EdgeOp) : State := (q.filter fun e => !e.toLog).foldl State.applyOp s

/-- The writes of the event log, after the entries of the frame (R540, R563). -/
def State.applyLog (s : State) (q : List EdgeOp) : State := (q.filter EdgeOp.toLog).foldl State.applyOp s

/-! The register-write rows. -/

/-- RINV_START (R238). -/
def execRinvStart (w : RegAccess) (s : State) : Outcome := writeRow (w.slot = oRinv && w.starts 16) w s
/-- SCRUB_START (R381). -/
def execScrubStart (w : RegAccess) (s : State) : Outcome := writeRow (w.slot = oScrub && w.starts 18) w s
/-- AGENTWALK_START (R446). -/
def execAgentwalkStart (w : RegAccess) (s : State) : Outcome := writeRow (w.slot = oWalk && w.starts 8) w s
/-- MEMINIT_START (R531). -/
def execMeminitStart (w : RegAccess) (s : State) : Outcome := writeRow (w.slot = oMeminit && w.starts 0) w s

/-- The write is one of ENABLE with a value. -/
def enables (w : RegAccess) (v : Bool) : Bool :=
  (match sliceOff w.slot with | some (_, p) => p = 0x28 | none => false) && w.mask.getLsbD 0 && w.value.getLsbD 0 == v

/-- FILTER_DISABLE: a write of ENABLE = 0, in force at its COMMIT (R244). -/
def execFilterDisable (w : RegAccess) (s : State) : Outcome := writeRow (enables w false) w s
/-- FILTER_STALE_ENABLE: a write of ENABLE = 1, in force at its COMMIT (R246). -/
def execFilterStaleEnable (w : RegAccess) (s : State) : Outcome := writeRow (enables w true) w s
/-- FILTER_REBUILD (R245). -/
def execFilterRebuild (w : RegAccess) (s : State) : Outcome :=
  writeRow ((match sliceOff w.slot with | some (_, p) => p = 0x28 | none => false) && w.starts 3) w s
/-- FLIP_ARM (R378). -/
def execFlipArm (w : RegAccess) (s : State) : Outcome := writeRow (w.slot = oFlip && w.starts 0) w s
/-- TAKEOVER_FORCE (R429). -/
def execTakeoverForce (w : RegAccess) (s : State) : Outcome := writeRow (w.slot = oTakeover && w.starts 4) w s
/-- SLICE_RETURN (R427). -/
def execSliceReturn (w : RegAccess) (s : State) : Outcome := writeRow (w.slot = oTakeover && w.starts 5) w s
/-- RWL_WRITE (R518). -/
def execRwlWrite (w : RegAccess) (s : State) : Outcome := writeRow (rwlMask w.slot != 0) w s
/-- DRAIN_MASK_WRITE (R523). -/
def execDrainMaskWrite (w : RegAccess) (s : State) : Outcome := writeRow (w.slot = oDrain) w s
/-- LOG_RD_WRITE (R542). -/
def execLogRdWrite (w : RegAccess) (s : State) : Outcome := writeRow (w.slot = oLogPtr) w s
/-- EVT_PEND_CLEAR (R535). -/
def execEvtPendClear (w : RegAccess) (s : State) : Outcome :=
  writeRow (w.slot = oEvtPend 0 || w.slot = oEvtPend 1 || (match sliceOff w.slot with | some (_, p) => p = 0xA8 || p = 0xB0 | none => false)) w s
/-- PMC_SNAP (R546). -/
def execPmcSnap (w : RegAccess) (s : State) : Outcome := writeRow (w.slot = oPmcCtl && w.starts 1) w s
/-- PMC_FREEZE (R546). -/
def execPmcFreeze (w : RegAccess) (s : State) : Outcome := writeRow (w.slot = oPmcCtl) w s
/-- CISTERN_SAVE (R547). -/
def execCisternSave (w : RegAccess) (s : State) : Outcome := writeRow (w.slot = oCistern && w.starts 8) w s
/-- CALENDAR_WRITE (R553). -/
def execCalendarWrite (w : RegAccess) (s : State) : Outcome := writeRow (w.slot = oCalendar) w s
/-- NVM_READ (R554). -/
def execNvmRead (w : RegAccess) (s : State) : Outcome := writeRow (w.slot = oNvm && (w.mask &&& w.value).toNat % 8 = 1) w s
/-- NVM_PROGRAM (R554). -/
def execNvmProgram (w : RegAccess) (s : State) : Outcome := writeRow (w.slot = oNvm && (w.mask &&& w.value).toNat % 8 = 2) w s
/-- NVM_ERASE (R554). -/
def execNvmErase (w : RegAccess) (s : State) : Outcome := writeRow (w.slot = oNvm && (w.mask &&& w.value).toNat % 8 = 3) w s
/-- NVM_RELOAD (R555). -/
def execNvmReload (w : RegAccess) (s : State) : Outcome := writeRow (w.slot = oNvm && (w.mask &&& w.value).toNat % 8 = 4) w s
/-- REGISTER_WRITE: any access at the register port, a read among them (R20, R22, R490, R559, R561 to R565). DESIGN CHOICE, log entry 27. -/
def execRegisterWrite (w : RegAccess) (s : State) : Outcome := accessRow true w s

end Sys2Proof.Machine
end

