-- ==== Sys2Proof/Machine/Records.lean ====
section
/-! DEFINITION. The items of the flash port and the record of the cistern (R547 to R551). -/

namespace Sys2Proof.Machine

/-- The order in which pending items start (R529, R548). -/
def NvmItem.order : NvmItem → Nat
  | .checkpoint => 0 | .fault => 1 | .lifetime => 2 | .firmware => 3

/-- PENDING bit of a record in LZ_CISTERN_STAT. -/
def NvmItem.bit : NvmItem → Nat
  | .checkpoint => 41 | .fault => 42 | .lifetime => 43 | .firmware => 44

/-- KIND of a record (R549). -/
def NvmItem.kind : NvmItem → Nat
  | .checkpoint => 1 | .fault => 2 | .lifetime => 3 | .firmware => 0

/-! Building a record (R549, R550). -/

/-- The 16 bytes of a fault entry. -/
def faultBytes (e : FaultEntry) : List Byte := leBytes 8 e.frame ++ leBytes 2 e.source ++ leBytes 1 e.code ++ leBytes 5 e.detail.toNat

/-- `n` bytes of a list, filled up with zeros. -/
def padTo (n : Nat) (l : List Byte) : List Byte := (l ++ List.replicate n 0).take n

/-- The 64 CE bytes, and the 96 remap bytes, of each of 16 slices from the transfers gathered. -/
def gatheredCe (l : List (BitVec 128)) : List Byte :=
  padTo 1024 (((List.range 16).map fun k => ((l.drop (10 * k)).take 4).flatMap fun w => leBytes 16 w.toNat).flatten)
@[inherit_doc gatheredCe] def gatheredRemap (l : List (BitVec 128)) : List Byte :=
  padTo 1536 (((List.range 16).map fun k => ((l.drop (10 * k + 4)).take 6).flatMap fun w => leBytes 16 w.toNat).flatten)

/-- Bytes 0x040 to 0xFFB of a record. -/
def State.recordBody (s : State) (faults : List FaultEntry) : List Byte :=
  let r (o n : Nat) := leBytes n (s.reg o).toNat
  r oPowered 8 ++ r oCalendar 8 ++ r oHot 4 ++ List.replicate 44 0 ++ gatheredCe s.cistern.gathered ++ gatheredRemap s.cistern.gathered ++
    padTo 256 (faults.flatMap faultBytes) ++ List.replicate 1148 0xFF

/-- Bytes 0x000 to 0x03B of a record. -/
def State.recordHead (s : State) (i : NvmItem) (faults slotWrites : Nat) (seq : BitVec 32) (body : List Byte) : List Byte :=
  [0x4C, 0x5A, 0x43, 0x31] ++ leBytes 2 1 ++ leBytes 1 i.kind ++ leBytes 1 faults ++ leBytes 4 seq.toNat ++ leBytes 4 slotWrites ++
    leBytes 8 s.frame ++ leBytes 4 (crc32 body).toNat ++ List.replicate 32 0

/-- The slot a record goes to (R550, R551): the one after the newest valid record's, or after a failed one's. No rule gives the slot
of the first record of an empty cistern: a free value, UNVERIFIED (log entry 2). -/
def State.nextSlot (s : State) : Nat × State :=
  match s.cistern.skipTo, s.cistern.newest with
  | some k, _ => (k, s)
  | none, some k => ((k + 1) % 256, s)
  | none, none => let (v, s) := s.fresh; (v.toNat % 256, s)

/-- The record is built once its state is gathered, and the erase of its slot begins (R550). -/
def State.buildRecord (s : State) (i : NvmItem) : State :=
  let (slot, s) := s.nextSlot
  let c := s.cistern
  let faults := if i = .fault then c.faults else []
  let n := tget 0 c.slotWrites slot + 1
  let body := s.recordBody faults
  let head := s.recordHead i faults.length n (c.seq + 1) body
  let c := { c with slot := slot, slotWrites := tput slot n c.slotWrites, busy := some (i, .erase), since := s.frame
                    record := head ++ leBytes 4 (crc32 head).toNat ++ body, gathered := [] }
  let c := if i = .fault then
      { c with faults := c.faults2, faults2 := [], due := if c.faults2.isEmpty then c.due.filter fun d => d != .fault else
                 (if NvmItem.fault ∈ c.due then c.due else c.due ++ [.fault]) }
    else c
  { s with cistern := c }

end Sys2Proof.Machine
end

