-- ==== Sys2Proof/Machine/Bus.lean ====
section
/-! DEFINITION. The maintenance service bus and its masters (R525 to R527), the event collector (R540), the counter wraps and the
counter sampler (R545, R546), and the debug reader (R533). -/

namespace Sys2Proof.Machine

/-- EVT_RATE: 0 and 5 to 7 act as 4 (R525). -/
def State.evtRate (s : State) : Nat := let n := s.fld oBus 8 3; if n = 0 || 4 < n then 4 else n

/-- BUS_WD in frames; 0 acts as 1 (R527). -/
def State.busWd (s : State) : Nat := max 1 (s.fld oBus 0 8)

/-- The entry at the head of a slice's queue can move: it was raised in an earlier frame (R540). -/
def State.collectible (s : State) (k : Nat) : Bool :=
  match (s.sl k).evq with
  | [] => false
  | e :: _ => (bits e 0 48).toNat != s.frame % 2 ^ 48

/-- The slice that the collector serves next (R540). -/
def State.nextCollect (s : State) : Option Nat :=
  ((List.range s.nSlices).map fun i => (s.bus.lastRr + 1 + i) % s.nSlices).find? s.collectible

/-- Rank of a master (R525). -/
def Master.rank : Master → Nat
  | .collector => 0 | .gatherer => 1 | .regPort => 2 | .sampler => 3 | .debug => 4

/-- The masters in rank order. -/
def masters : List Master := [.collector, .gatherer, .regPort, .sampler, .debug]

/-- The slice that a master's next transfer is for, if the master has one to make at a boundary (R525). -/
def State.wants (s : State) (m : Master) (b : Nat) : Option Nat :=
  match m with
  | .collector => if b % 2 = 0 && s.bus.evtSent < s.evtRate then s.nextCollect else none
  | .gatherer => (match s.cistern.busy with
      | some (_, .gather) => if b = 1 && s.cistern.gathered.length < 10 * s.nSlices then some (s.cistern.gathered.length / 10) else none
      | _ => none)
  | .regPort => (match s.bus.port with | [] => none | w :: _ => s.toSlice w)
  | .sampler => (match s.bus.sampling with
      | some n => if n < 4 * s.nSlices then some (n / 4) else none
      | none => none)
  | .debug => (match s.bus.debug with | some d => some d.1 | none => none)

/-- A master has withdrawn after losses (R526). -/
def State.withdrawn (s : State) (m : Master) (at_ : Nat) : Bool :=
  s.fusing == .kr16x8 && tget 0 s.bus.holdOff m.rank != 0 && at_ < tget 0 s.bus.holdOff m.rank

/-- The masters that request at a boundary, in rank order. -/
def State.requesters (s : State) (b : Nat) : List Master :=
  masters.filter fun m => (s.wants m b).isSome && !s.withdrawn m (8 * s.frame + b)

/-- A master loses a boundary: on KR16/8 it withdraws for 2^min(k, 6) boundaries (R526). -/
def State.loses (s : State) (at_ : Nat) (m : Master) : State :=
  if s.fusing = .kr16 then s
  else
    let k := tget 0 s.bus.losses m.rank + 1
    { s with bus := { s.bus with losses := tput m.rank k s.bus.losses, holdOff := tput m.rank (at_ + 2 ^ min k 6 + 1) s.bus.holdOff } }

/-- A master wins (R526). -/
def State.wins (s : State) (m : Master) : State :=
  { s with bus := { s.bus with losses := tdel m.rank s.bus.losses, holdOff := tdel m.rank s.bus.holdOff } }

/-! What a transfer carries. -/

/-- A group of 128 bits of a slice's lifetime state (R549): 16 CE words in 4 transfers, then 48 remap words in 6. -/
def State.lifeWord (s : State) (n : Nat) : BitVec 128 :=
  let k := n / 10
  let i := n % 10
  if i < 4 then
    (List.range 4).foldl (fun w j => w ||| ((bits (s.reg (oLifeCe (16 * k + 4 * i + j))) 0 32).setWidth 128 <<< (32 * j))) 0
  else
    (List.range 8).foldl (fun w j =>
      let r := s.reg (oRemap k (8 * (i - 4) + j))
      let v : Nat := (bits r 4 14).toNat + 2 ^ 14 * (bits r 1 1).toNat + 2 ^ 15 * (bits r 0 1).toNat
      w ||| ((BitVec.ofNat 16 v).setWidth 128 <<< (16 * j))) 0

/-- The gatherer's transfer; after the last one the record is built (R550). -/
def State.gather (s : State) (v : BitVec 128) : State :=
  let s := { s with cistern := { s.cistern with gathered := s.cistern.gathered ++ [v] } }
  match s.cistern.busy with
  | some (i, .gather) => if s.cistern.gathered.length < 10 * s.nSlices then s else s.buildRecord i
  | _ => s

/-- The sampler's transfer: two counters into LZ_PMC_SNAP; after the last, the cycle counter and SNAP_DONE (R546). A transfer that
timed out returns all ones (R527). -/
def State.sample2 (s : State) (n : Nat) (ok : Bool) : State :=
  let put (s : State) (i : Nat) (v : Reg) : State := s.setReg (oPmcSnap i) (v &&& 0x1FFFFFFFFFFFF)
  let word (i : Nat) : Reg := if ok then tget 0 s.pmc.latch i else BitVec.allOnes 64
  let s := put (put s (2 * n) (word (2 * n))) (2 * n + 1) (word (2 * n + 1))
  if n + 1 < 4 * s.nSlices then { s with bus := { s.bus with sampling := some (n + 1) } }
  else
    let s := put s 128 (tget 0 s.pmc.latch 128)
    { s.setFlag oPmcCtl 2 true with bus := { s.bus with sampling := none }, pmc := { s.pmc with latch := [] } }

/-- The debug reader's transfer: words 0 and 1, then the others and DONE (R533). -/
def State.debugMove (s : State) (d : Nat × List Reg × Nat) (ok : Bool) : State :=
  let word (i : Nat) : Reg := if ok then (d.2.1[i]?).getD 0 else BitVec.allOnes 64
  if d.2.2 = 0 then
    { (s.setReg (oDbgData 0) (word 0)).setReg (oDbgData 1) (word 1) with bus := { s.bus with debug := some (d.1, d.2.1, 1) } }
  else
    let s := foldSt [2, 3, 4] (fun s i => s.setReg (oDbgData i) (word i)) s
    { s.setFlag oDbg 25 true with bus := { s.bus with debug := none } }

/-- The access at the head of the port's queue leaves it: served, or after a timeout a read with all ones and a write lost (R527, R562). -/
def State.portNext (s : State) (ok : Bool) : State :=
  match s.bus.port with
  | [] => s
  | w :: rest =>
    let s := if ok then s.serve w else if w.read then s.answerRead w (w.part (BitVec.allOnes 64)) else s
    drainPort s rest

/-- A transfer ends: `ok`, or ended by the watchdog. The collector moves its entry in LOG_COLLECT. -/
def State.transferEnd (s : State) (m : Master) (ok : Bool) : State :=
  match m with
  | .collector => s
  | .gatherer => s.gather (if ok then s.lifeWord s.cistern.gathered.length else BitVec.allOnes 128)
  | .regPort => s.portNext ok
  | .sampler => (match s.bus.sampling with | some n => s.sample2 n ok | none => s)
  | .debug => (match s.bus.debug with | some d => s.debugMove d ok | none => s)

/-! The rows. -/

/-- BUS_TRANSFER_GRANT: at a boundary with the bus free, the requesting master of lowest rank gets its transfer (R525, R526); when the
target completes it, its effect follows, but the collector's entry moves in LOG_COLLECT. DESIGN CHOICE, log entry 32. -/
def execBusTransferGrant (b : Nat) (completes : Bool) (s : State) : Outcome :=
  live s <| need (b < 8) <|
  let now := 8 * s.frame + b
  if s.bus.owner.isSome || now < s.bus.nextAt then .next s
  else
    let s := { s with bus := { s.bus with nextAt := now + 1 } }
    match s.requesters b with
    | [] => .next s
    | m :: rest =>
      let k := (s.wants m b).getD 0
      let s := rest.foldl (fun s r => s.loses now r) (s.wins m)
      let s := if m = .collector then { s with bus := { s.bus with evtSent := s.bus.evtSent + 1, lastRr := k } } else s
      .next (if completes && m != .collector then s.transferEnd m true
        else { s with bus := { s.bus with owner := some (m, k, s.frame) } })

/-- LOG_COLLECT: the collector's transfer completes, and the entry moves from its slice's queue to the ring (R540, R542).
DESIGN CHOICE, log entry 32. -/
def execLogCollect (s : State) : Outcome :=
  live s <|
  match s.bus.owner with
  | some (.collector, k, _) =>
    (match (s.sl k).evq with
     | [] => .next { s with bus := { s.bus with owner := none } }
     | e :: rest =>
       .next (({ s with bus := { s.bus with owner := none } }.updSl k fun sl => { sl with evq := rest }).logDue 128 [e]))
  | _ => .next s

/-- BUS_TIMEOUT: the target has not completed the transfer within BUS_WD frames; the bus ends it (R527). DESIGN CHOICE, log entry 32. -/
def execBusTimeout (s : State) : Outcome :=
  live s <|
  match s.bus.owner with
  | some (m, k, f) =>
    when' (f + s.busWd ≤ s.frame) s <|
      let s := { s with bus := { s.bus with owner := none } }.transferEnd m false
      (s.incFld oBus 16 16 1).raise 38 m.rank (BitVec.ofNat 64 k)
  | none => .next s

/-- The event of a counter's wrap (R545). -/
def State.wrapEvent (s : State) (n : Nat) : State :=
  let s := { s with pmc := { s.pmc with wraps := s.pmc.wraps.erase n } }
  if n = 128 then s.raise 42 0 0 else s.raiseSl (n / 8) 43 (n % 8) 0

/-- PMC_WRAP: a counter that has wrapped, and has set OVF, raises its event (R545). -/
def execPmcWrap (n : Nat) (s : State) : Outcome :=
  live s <| need (n = 128 || n < 8 * s.nSlices) <| when' (s.pmc.wraps.contains n) s (s.wrapEvent n)

end Sys2Proof.Machine
end

