-- ==== Sys2Proof/Machine/Nvm.lean ====
section
/-! DEFINITION. The cistern and the flash port (R547 to R555). -/

namespace Sys2Proof.Machine

/-- Frames in a second (R553). -/
def framesPerSecond : Nat := 1000 * Config.framesPerMs

/-- The item at the flash port ends. -/
def State.itemEnd (s : State) (i : NvmItem) : State :=
  let s := { s with cistern := { s.cistern with busy := none } }
  match i with
  | .firmware => s
  | i => s.setFlag oCisternStat i.bit (s.cistern.due.contains i)

/-- A record is committed: it is the newest valid one (R550). -/
def State.recordEnd (s : State) (i : NvmItem) : State :=
  let c := s.cistern
  let s := { s with cistern := { c with seq := c.seq + 1, newest := some c.slot, skipTo := none } }
  ((s.setFld oCisternStat 0 32 (c.seq + 1).toNat).setFld oCisternStat 32 8 c.slot).itemEnd i

/-- A firmware access completes, with an ERROR (R554, R555). DEDUCED, log entry 30. -/
def State.fwEnd (s : State) (err : Nat) : State :=
  (((s.setFld oNvm 5 3 err).setFlag oNvm 3 false).setFlag oNvm 4 true).itemEnd .firmware |>.raise 43 err 0

/-- READ copies the bytes into the buffer (R554). -/
def State.toBuffer (s : State) (data : List Byte) : State :=
  let n := s.cistern.fwLen + 1
  (List.range n).foldl (fun s j => s.setFld (oNvmBuf (j / 8)) (8 * (j % 8)) 8 ((data[j]?).getD 0).toNat) s

/-- The sections that RELOAD reads match their CRCs (R555). -/
def reloadOk (b : List Byte) : Bool :=
  crcIs (cut b 0x40 (16 * hdrSections b)) (fieldAt b 0x38 4) &&
  (sectionsOf b).all fun e => (e.1 != 4 && e.1 != 5) || crcIs (cut b e.2.1 e.2.2.1) e.2.2.2

/-- The mask of a list of fields. -/
def fieldsMask (fs : List (Nat × Nat)) : Reg :=
  fs.foldl (fun m f => m ||| ((BitVec.allOnes f.2).setWidth 64 <<< f.1)) 0

/-- RELOAD places the register values of TUNING and CONTRACTS in the transaction (R502, R555). -/
def CfgView.reload (v : CfgView) (b : List Byte) : CfgView :=
  let put (v : CfgView) (o w : Nat) (fs : List (Nat × Nat)) : CfgView :=
    { v with writes := min 4097 (v.writes + 1), shadow := shadowPut o (fieldsMask fs) (BitVec.ofNat 64 w) v.shadow }
  let v := match sectionBytes b 4 with
    | some z => (tuningFields.zipIdx).foldl (fun v e => put v e.1.1 (wordAt z 4 e.2) e.1.2) v
    | none => v
  match sectionBytes b 5 with
  | some z => (List.range 24).foldl (fun v a => put v (oAg a 8) (wordAt z 4 a) [(0, 6), (8, 12)]) v
  | none => v

/-- RELOAD has read the copy (R555). DEDUCED, log entry 30. -/
def State.reloadDone (s : State) (b : List Byte) : State :=
  let i := s.cistern.fwInit
  let v := s.view i
  if !v.isOpen then s.fwEnd 3 else if !reloadOk b then s.fwEnd 4 else (s.setView i (v.reload b)).fwEnd 0

/-! The rows. -/

/-- The pending item of highest precedence (R529, R548). -/
def State.nextItem (s : State) : Option NvmItem := minBy NvmItem.order s.cistern.due

/-- The first step of an item (R550, R554). -/
def State.firstStep (s : State) (i : NvmItem) : FlashStep :=
  match i with
  | .firmware => if s.cistern.fwOp = 1 then .fwRead else if s.cistern.fwOp = 2 then .fwProgram else if s.cistern.fwOp = 3 then .fwErase else .reload
  | _ => .gather

/-- NVM_ITEM_START: the free flash port starts the pending item of highest precedence (R495, R548, R550). -/
def execNvmItemStart (s : State) : Outcome :=
  live s <|
  match s.cistern.busy, s.nextItem with
  | none, some i =>
    when' s.ready s { s with cistern := { s.cistern with
      due := s.cistern.due.erase i, busy := some (i, s.firstStep i), gathered := [], since := s.frame } }
  | _, _ => .next s

/-- The step after a finished flash operation of a record (R550): 16 pages, then COMMIT. -/
def State.flashNext (s : State) (i : NvmItem) (st : FlashStep) : State :=
  { s with cistern := { s.cistern with busy := some (i, st), since := s.frame } }

/-- FLASH_OP_COMPLETE: the erase, program or read in progress has finished (R548, R550, R554, R555). DEDUCED, log entry 26. -/
def execFlashOpComplete (data : List Byte) (s : State) : Outcome :=
  live s <|
  match s.cistern.busy with
  | none => .next s
  | some (i, st) =>
    match st with
    | .gather => .next s
    | .erase => .next (s.flashNext i (.program 0))
    | .program p => .next (s.flashNext i (if p < 15 then .program (p + 1) else .commit))
    | .commit => .next (s.recordEnd i)
    | .fwRead => .next ((s.toBuffer data).fwEnd 0)
    | .fwProgram | .fwErase => .next (s.fwEnd 0)
    | .reload => .next (s.reloadDone data)

/-- The operation in progress has not finished within 1 s (R551, R554). -/
def State.flashLate (s : State) : Bool :=
  match s.cistern.busy with
  | none => false
  | some (_, st) => st != .gather && s.cistern.since + framesPerSecond ≤ s.frame

/-- An operation that does not finish ends its item (R551, R554). -/
def State.flashLapse (s : State) : State :=
  match s.cistern.busy with
  | none => s
  | some (.firmware, _) => s.fwEnd 2
  | some (i, _) =>
    let k := s.cistern.slot
    let s := { s with cistern := { s.cistern with skipTo := some ((k + 1) % 256) } }
    ((s.incFld oCisternStat 44 12 1).itemEnd i).raise 40 0 (BitVec.ofNat 64 k)

/-- FLASH_OP_TIMEOUT: an operation has not finished by the end of this frame, 1 s after its start (R14, R551, R554). -/
def execFlashOpTimeout (s : State) : Outcome := live s <| when' s.flashLate s (s.lapseAt .flash)

/-! What the block sends to the flash (R496 to R498, R550, R554, R555). -/

/-- A command of the flash, in SPI mode 0 (R496): its code, its address, the bytes that it programs and how many it reads, its lines for
command, address and data, its dummy clocks, and the divider of SCK (R498, R499). -/
structure FlashCmd where
  code  : Nat
  addr  : Nat := 0
  data  : List Byte := []
  count : Nat := 0
  lines : Nat × Nat × Nat := (1, 1, 1)
  dummy : Nat := 0
  div   : Nat
  deriving DecidableEq, Repr

/-- SCK clocks of a read (R498). -/
def FlashCmd.clocks (c : FlashCmd) : Nat := 8 + 32 / c.lines.2.1 + c.dummy + 8 * c.count / c.lines.2.2

/-- Where a copy of the image begins, and where a slot of the cistern does (R497). -/
def copyBase (copyB : Bool) : Nat := if copyB then 0x400000 else 0
@[inherit_doc copyBase] def slotBase (k : Nat) : Nat := 0x800000 + 4096 * k

/-- The header of a copy, once it is read. -/
def State.header (s : State) (copyB : Bool) : List Byte := (if copyB then s.boot.hdrB else s.boot.hdrA).getD []

/-- SPI_DIV of a copy's header; values below 20 act as 20 (R499). -/
def State.spiDiv (s : State) (copyB : Bool) : Nat := max 20 (fieldAt (s.header copyB) 0x11 1)

/-- The copy whose settings an access uses: the one that the address lies in; of the cistern, and of everything that is written, the copy in
use (R498). DEDUCED, log entry 30. -/
def State.copyAt (s : State) (addr : Nat) : Bool := if addr < 0x400000 then false else if addr < 0x800000 then true else s.flag oBoot 6

/-- The read of some bytes under the SPI_MODE, SPI_DIV and SPI_DUMMY of a copy's header (R496, R498, R499). -/
def State.readCmd (s : State) (addr count : Nat) : FlashCmd :=
  let c := s.copyAt addr
  if fieldAt (s.header c) 0x10 1 = 1 then
    { code := 0xEC, addr := addr, count := count, lines := (1, 4, 4), dummy := fieldAt (s.header c) 0x12 1, div := s.spiDiv c }
  else { code := 0x13, addr := addr, count := count, div := s.spiDiv c }

/-- Write enable, an erase or a program, and the status reads that follow it (R496, R550). -/
def State.writing (s : State) (code addr : Nat) (data : List Byte) : List FlashCmd :=
  let d := s.spiDiv (s.flag oBoot 6)
  [{ code := 0x06, div := d }, { code := code, addr := addr, data := data, div := d }, { code := 0x05, count := 1, div := d }]

/-- The bytes that PROGRAM programs: those of the buffer that lie in the page of its address (R554). DESIGN CHOICE, log entry 30. -/
def State.programBytes (s : State) : List Byte :=
  (List.range (min (s.cistern.fwLen + 1) (256 - s.cistern.fwAddr % 256))).map fun j => BitVec.ofNat 8 (s.fld (oNvmBuf (j / 8)) (8 * (j % 8)) 8)

/-- The commands of a step of an item (R550, R554, R555). One read of the copy stands for those of RELOAD: DESIGN CHOICE, log entry 30. -/
def State.stepCmds (s : State) : FlashStep → List FlashCmd
  | .gather => []
  | .erase => s.writing 0x21 (slotBase s.cistern.slot) []
  | .program p => s.writing 0x12 (slotBase s.cistern.slot + 256 * p) (cut s.cistern.record (256 * p) 256)
  | .commit => s.writing 0x12 (slotBase s.cistern.slot + 0xFFC) [0, 0, 0, 0]
  | .fwErase => s.writing 0x21 s.cistern.fwAddr []
  | .fwProgram => s.writing 0x12 s.cistern.fwAddr s.programBytes
  | .fwRead => [s.readCmd s.cistern.fwAddr (s.cistern.fwLen + 1)]
  | .reload => [s.readCmd (copyBase (s.flag oBoot 6)) (fieldAt (s.header (s.flag oBoot 6)) 0x0C 4)]

/-- The commands of the flash operation in progress; none while the flash is deselected (R485, R496, R498, R505, R514, R552): the reset pair,
the two headers at hclk / 80, the copy under trial, and the headers and COMMIT words of the cistern. DEDUCED, log entry 30. -/
def State.flashCmds (s : State) : List FlashCmd :=
  if s.inReset then []
  else match s.phase with
    | 1 =>
      if s.frame < 64 then [{ code := 0x66, lines := (1, 0, 0), div := 80 }, { code := 0x99, lines := (1, 0, 0), div := 80 }]
      else if !s.boot.waited then []
      else [{ code := 0x13, addr := copyBase s.boot.hdrA.isSome, count := 64, div := 80 }]
    | 2 => (s.boot.toTry.take 1).map fun c => s.readCmd (copyBase c) (fieldAt (s.header c) 0x0C 4)
    | 3 => (List.range 256).flatMap fun k => [s.readCmd (slotBase k) 64, s.readCmd (slotBase k + 0xFFC) 4]
    | 8 => (match s.cistern.busy with | some (_, st) => s.stepCmds st | none => [])
    | _ => []

/-- CHECKPOINT_DUE: CKPT_MIN minutes of powered time have passed since the last checkpoint fell due (R547).
DESIGN CHOICE, log entry 10; DEDUCED, log entry 31. -/
def execCheckpointDue (s : State) : Outcome :=
  live s <|
  let n := s.fld oCistern 0 8
  let p := (s.reg oPowered).toNat
  when' (s.ready && n != 0 && s.cistern.ckptAt + 60 * n ≤ p) s
    (s.edgeDo fun s => { s with cistern := { s.cistern with ckptAt := p } }.itemDue .checkpoint)

/-- A slice's last reading is above 100 °C, or both its sensors failed (R553, R574). -/
def State.hotNow (s : State) : Bool :=
  (List.range s.nSlices).any fun k => let t := bits (s.reg (oSl k 0x48)) 0 8; t == 0x80 || 100 < tempOf t

/-- CALENDAR at a second tick, 1 more while VALID is 1; writes at the same edge replace their fields (R553, R563). -/
def State.calendarTick (s : State) : Reg :=
  let tick (r : Reg) : Reg := if r.getLsbD 63 then setBits r 0 63 (bits r 0 63 + 1) else r
  let now := s.reg oCalendar
  match s.cistern.seededAt with
  | some (f, old, m) => if f = s.frame then (tick old &&& ~~~m) ||| (now &&& m) else tick now
  | none => tick now

/-- What a second tick changes (R553). -/
def State.secondTick (s : State) : State :=
  let s := { s with secondAt := s.frame }
  let s := (s.setReg oPowered (s.reg oPowered + 1)).setReg oCalendar s.calendarTick
  if s.hotNow then s.setFld oHot 0 32 ((s.fld oHot 0 32 + 1) % 2 ^ 32) else s

/-- SECOND_TICK: POWERED, CALENDAR and HOT advance (R553, R563). The command stands right after the edge.
DESIGN CHOICE, log entry 10; DEDUCED, log entry 31. -/
def execSecondTick (s : State) : Outcome :=
  live s <| when' (s.frame % framesPerSecond = 0 && s.secondAt < s.frame) s (s.edgeDo State.secondTick)

end Sys2Proof.Machine
end

