-- ==== Sys2Proof/Machine/Edge.lean ====
section
/-! DEFINITION. The end of a frame and the frame edge: the work that a rule assigned to the frame (R161, R250, R345, R388), the timers
that expire (R14, R161), what every frame counts and checks (R181, R231, R262, R311, R324, R368, R378, R524, R531, R532, R544, R587), the
changes of the edge in the order of R251, and what stands at the start of the next frame (R250, R258, R276, R280, R288, R297, R331, R388,
R455, R537). Also the leak edge (R372). -/

namespace Sys2Proof.Machine

/-! The agenda. -/

/-- Releases come after the other work of the frame (R161), and the decision on sleep after those (R440). -/
def State.todoRank (s : State) (d : Todo) : Nat :=
  match d.act with
  | .release => 1
  | .act => let x := s.txn d.slice d.tag; if x.req.op = .agentSleep && x.granted.isNone then 2 else 0
  | _ => 0

/-- The order of the work of one transaction in a frame: a memory request that frame P's flow takes into account first (R141), and the
answers in place of a failed port last (R345). DEDUCED, log entry 11. -/
def Act.rank : Act → Nat
  | .specRead | .resendMem _ => 0 | .act => 2 | .portDown => 3 | _ => 1

/-- The order of the work of a frame: that of class C0 first, then the others by tag (R388). DEDUCED, log entry 11. -/
def State.todoKey (s : State) (d : Todo) : Nat :=
  s.todoRank d * 2 ^ 32 + ((if s.isC0 d.slice d.tag then 0 else 2 ^ 28) + d.tag) * 4 + d.act.rank

/-- The next work of this frame among that up to a rank. DEDUCED, log entry 11. -/
def State.nextTodo (s : State) (rank : Nat) : Option Todo :=
  minBy s.todoKey (s.agenda.filter fun d => d.frame ≤ s.frame && s.todoRank d ≤ rank)

/-- A resent snoop (R165): it is sent although its answer has come in this frame; the wait takes the contract of this frame
(R252). In place of one to an agent whose sluice has closed by now the home takes an `RspI` (R445). -/
def State.resendSnoop (s : State) (h t : Nat) (k : Snoop) (ag j : Nat) : State :=
  let x := s.txn h t
  if x.st = .free || s.agSt ag == agLost then s
  else if s.agSt ag == agSleeping || s.agSt ag == agRetired then
    let s := s.raisePair 32 0 (BitVec.ofNat 128 ag)
    match x.waitOf .resent ag j with
    | some w => (s.upd h t fun x => x.answered w).goOn h t
    | none => s
  else
    let s := match x.waitOf .resent ag j with
      | some w => s.upd h t fun x => x.reWait w { w with len := s.snoopContract ag }
      | none => s
    s.send s.frame (.agent ag) (.snoop k true ag t h (s.epoch h t) (wireOf (x.lineAt j)) 0 0 0)

/-- A wait that starts in this frame takes the contract of this frame (R252). -/
def State.startWait (s : State) (h t : Nat) (k : WaitKind) (ag j : Nat) : State :=
  match (s.txn h t).waitOf k ag j with
  | none => s
  | some w => s.upd h t fun x => x.reWait w { w with len := s.snoopContract ag }

/-- The slice answers one memory request for a failed port; the flip mask meets the data buffer as for any answer (R345, R378). -/
def State.ownAnswer (s : State) (h t : Nat) (m : MemWait) : State :=
  match m.op with
  | .wr | .wrPoison => s.upd h t fun x => { x with mems := x.mems.erase m }
  | _ =>
    let x := s.txn h t
    let kept := !m.discard && !x.cmpSent
    let s := s.poisonCreated h 4 x.req.src x.line t
    let (f, s) := if kept then s.flipStore h 14 else (0, s)
    s.upd h t fun x =>
      { x with mems := x.mems.erase m, memData := if kept then some (0, true) else x.memData, dflip := if kept then f else x.dflip
               madePoison := true }

/-- The slice answers what a tag has asked of failed ports in earlier frames (R345), the staged write of R303 among it.
DEDUCED, log entry 19. -/
def State.portAnswers (s : State) (h t : Nat) : State :=
  let failed (l : LineAddr) : Bool := s.memFailed.getLsbD (s.memPort (wireOf l))
  let x := s.txn h t
  let due := x.mems.filter fun m => m.sent < s.frame && failed (x.lineAt m.j)
  let staged := (s.sl h).merges.filter fun p => p.2.used && p.2.staged && !p.2.done && p.2.tag == t && failed p.2.line
  let s := due.foldl (fun s m => s.ownAnswer h t m) s
  let s := staged.foldl (fun s p => s.stagedDone h p) s
  if due.isEmpty then s else s.goOn h t

/-- A request transaction goes on: a decision on sleep, a stream write that was released before its replay, a completion without a line, or
its flow (R83, R141, R333, R335, R440). -/
def State.actNow (s : State) (h t : Nat) (levels : BitVec 16) : State :=
  let x := s.txn h t
  if x.st = .free || x.st = .waiting || x.cmpSent then s
  else if x.home.isSome then s.homeFlow h t
  else if x.req.op = .agentSleep then s.sleepDecide h t levels
  else if x.req.op = .wrStream && x.st = .orderwait && x.noticed then (s.released (hubOf x.req.lane) x.req.src x.req.seq s.frame).endWrite h t
  else if x.want = 0 then s.complete h t 0 false
  else if x.probed then s.flow h t
  else s

/-- One piece of work of the frame. A transaction that a takeover has still to replay does nothing (R394, R399, R408).
DEDUCED, log entry 11. -/
def State.runTodo (s : State) (levels : BitVec 16) (d : Todo) : State :=
  let h := d.slice
  let t := d.tag
  let x := s.txn h t
  let open' := match d.act with | .portDown => !s.pairLost h | _ => s.tagOpen h t
  if !open' then s
  else match d.act with
    | .specRead => s.specRead h t
    | .probe => if x.home.isSome then s.homeProbe h t else s.decide h t
    | .act => s.actNow h t levels
    | .release => (s.release h t).orphanNext x
    | .resend k a j => s.resendSnoop h t k a j
    | .openFinal a j => s.startWait h t .final a j
    | .reAck => s.startWait h t .ackGo x.req.src 0
    | .reCross a j => s.startWait h t .wbCross a j
    | .resendMem m => s.resendMem h t m
    | .portDown => s.portAnswers h t

/-- The work of the frame up to a rank, in order; a change whose record does not fit in the 128 of the frame is made in the next (R388).
DEDUCED, log entry 11; DEDUCED, log entry 16. -/
def State.runAgenda (s : State) (levels : BitVec 16) (rank : Nat) : Nat → State
  | 0 => s
  | n + 1 =>
    match s.nextTodo rank with
    | none => s
    | some d =>
      let s := { s with agenda := s.agenda.erase d }
      let r := s.runTodo levels d
      (if s.fits (s.isC0 d.slice d.tag) r then r
       else (s.recordedFor d.slice d.tag r).plan (s.frame + 1) d.slice d.tag d.act).runAgenda levels rank n

/-! The end of the frame. -/

/-- The rises of a frame, then its falls (R311). -/
def Slice.predict (sl : Slice) : Slice :=
  let up := sl.rises.foldl (fun t l => tputD 0 (predIdx l) (if tget 0 t (predIdx l) = 3 then 3 else tget 0 t (predIdx l) + 1) t) sl.predictor
  let dn := sl.falls.foldl (fun t l => tputD 0 (predIdx l) (if tget 0 t (predIdx l) = 0 then 0 else tget 0 t (predIdx l) - 1) t) up
  { sl with predictor := dn, rises := [], falls := [] }

/-- The stored conflict-table words that carry inverted check bits are read: one that cannot be corrected fails the slice, and one whose
decoder inverts a data bit is taken as it reads (R343, R378, R380, R394). DEDUCED, log entry 17. -/
def State.readTable (s : State) (h : Nat) : State :=
  let l := (s.sl h).tflips
  l.foldl (fun s p =>
    let s := s.readFlip h 12 p.1 p.2
    match decodeFlip p.2 with
    | .bad => s.failSlice (s.engine h) 3
    | .wrong => s.misreadTag h p.1 (Config.heavyFlipBit p.2 % 64)
    | _ => s) (s.updSl h fun sl => { sl with tflips := [] })

/-- The buddy reads the records that are the conflict table of a range that it has taken over, each once after it was written (R390, R402).
DEDUCED, log entry 17. -/
def State.readRecords (s : State) (h : Nat) : State :=
  if !s.sliceFailed h then s
  else ((s.sl h).txns.filter fun p => tget 0 (s.sl (buddy h)).jflips p.1 != 0).foldl (fun s p =>
    (s.scanRecord h p.1).updSl (buddy h) fun sl => { sl with jflips := tdel p.1 sl.jflips }) s

/-- The merge entries that carry inverted check bits are read (R343, R378). DEDUCED, log entry 17. -/
def State.readMerges (s : State) (h : Nat) : State :=
  ((s.sl h).merges.filter fun p => p.2.used && p.2.flip != 0).foldl (fun s p => s.readMerge h p.1) s

/-- A near atomic that would have run in this frame waits for a merge entry (R302). -/
def State.aluWaiting (s : State) (h : Nat) (x : Txn) : Bool :=
  x.st == .alu && x.dAt < s.frame && !x.cmpSent && !x.waitStage && !x.waitWbuf && (x.memData.any fun d => !d.2) &&
    !s.stagedLine h x.line && (s.mergeFree h true).isNone

/-- Those that wait at the end of the frame's accesses, before entries free (R302, R303). -/
def State.noteAlu (s : State) (h : Nat) : State :=
  s.updSl h fun sl => { sl with aluWaits := (sl.txns.filter fun p => s.aluWaiting h p.2).map Prod.fst }

/-- A transaction waits for a merge entry in this frame: a `WrPart` (R322), or a near atomic (R302). -/
def State.waitsMerge (s : State) (h : Nat) (p : Nat × Txn) : Bool :=
  let x := p.2
  (x.gathers && x.locked == 1 && x.st != .waiting && x.merge.isNone && !x.cmpSent && !x.memDone) || (s.sl h).aluWaits.contains p.1

/-- Frames that the watchdog does not count (R181, R195, R213, R302, R322, R388), and the counts STAGE_FULL and ENTRY_WAITS. -/
def State.countWaits (s : State) (h : Nat) : State :=
  let txns := (s.sl h).txns
  let stage := txns.any fun p => p.2.waitStage
  let entry := txns.any fun p => s.waitsMerge h p
  let s := if stage then s.incFld (oSl (s.engine h) 0x30) 48 8 1 else s
  let s := if entry then s.incFld (oSl (s.engine h) 0x60) 22 8 1 else s
  s.updSl h fun sl => { sl with txns := sl.txns.map fun p =>
    if p.2.wdStart.isSome && (p.2.st == .waiting || p.2.waitStage || p.2.waitWbuf || s.waitsMerge h p || sl.deferTags.contains p.1) then (p.1, { p.2 with wdSkip := p.2.wdSkip + 1 }) else p }

/-- C0 transactions whose claim found no stage entry free repeat it (R262). -/
def State.repeatClaims (s : State) (h : Nat) : State :=
  ((s.sl h).txns.filter fun p => p.2.claimDue && p.2.probed && !p.2.cmpSent && !p.2.recDone && p.2.st != .waiting &&
    s.tagOpen h p.1).foldl (fun s p => s.claimStage h p.1) s

/-- Staged entries move into the ways that became free in an earlier frame, the oldest first (R587). -/
def State.stagedSweep (s : State) (h : Nat) : State :=
  (s.stagedOrder h).foldl (fun s i =>
    match s.wayForStaged h i with
    | some l => if s.endRoom h (some l) then s.stageMove h i l else s
    | none => s) s

/-- The 16 sectors that memory initialization tests in a frame (R531). DEDUCED, log entry 36. -/
def State.initScan (s : State) (h : Nat) : State :=
  match (s.sl h).initPos with
  | none => s
  | some p =>
    if !s.rangeOpen h then s
    else
      let base := s.fld oMeminitRange 0 32 * 16
      let stop := s.fld oMeminitRange 32 32 * 16 + 16
      let here := (List.range 16).filterMap fun i =>
        let x : SectorAddr := BitVec.ofNat 36 (base + p + i)
        if base + p + i < stop && s.homed (wireOf (lineIn x 0)) && s.hash (wireOf (lineIn x 0)) == h then some x else none
      s.updSl h fun sl => { sl with initFound := sl.initFound ++ here, initPos := if base + p + 16 < stop then some (p + 16) else none }

/-- The merge entries of staged writes whose `MemCmp` came in this frame free (R303). -/
def Slice.endStaged (sl : Slice) : Slice := { sl with merges := sl.merges.filter fun p => !p.2.done }

/-- The end of a frame in a logical slice. -/
def State.sliceEnd (s : State) (h : Nat) : State :=
  let s := if (s.sl h).rises.isEmpty then s else s.incFld (oSl (s.engine h) 0x58) 48 8 (s.sl h).rises.length
  let s := ((s.updSl h Slice.predict).updSl h Slice.endStaged).flushRunnel h
  if !s.rangeOpen h then s
  else
    let s := (((s.stagedSweep h).endMove h).endCopies h).countWaits h
    ((((((s.repeatClaims h).readTable h).readRecords h).readMerges h).initScan h).maintTidy h).maintCheck h

/-- Shared slots that an engine left idle (R544). -/
def State.idleSlots (s : State) (e : Nat) : Nat :=
  ((List.range 15).filter fun k => !(c0Map s.c0Slots).contains k && !(s.sl e).slots.getLsbD k).length

/-- The counted events of a frame in an engine: the frame, and the idle slots (R544). DEDUCED, log entry 33. -/
def State.engineEnd (s : State) (e : Nat) : State :=
  if s.sliceFailed e || s.pairLost e then s
  else foldSt (List.range (s.idleSlots e)) (fun s _ => s.count e 3 none) (s.count e 1 none)

/-- Tenants for which some slice holds a request (R524). -/
def State.tagsHeld (s : State) : List Nat :=
  s.liveSlices.flatMap fun h =>
    let sl := s.sl h
    (sl.unissued.map fun q => q.req.tenant) ++
    sl.txns.flatMap fun p => (if p.2.home.isNone then [p.2.req.tenant] else []) ++ (p.2.absorbed ++ p.2.merged).map fun r => r.tenant

/-- LZ_DRAIN_IDLE at the end of a frame, and the tenant-drained events (R524). DEDUCED, log entry 33. -/
def State.drainEdge (s : State) : State :=
  let held := s.tagsHeld
  let old := s.reg oDrainIdle
  let idle : Reg := held.foldl (fun m t => m &&& ~~~((1 : Reg) <<< t)) (BitVec.allOnes 64)
  let up := (List.range 64).filter fun t => idle.getLsbD t && !old.getLsbD t && (s.reg oDrain).getLsbD t
  foldSt up (fun s t => s.raise 37 0 (BitVec.ofNat 64 t)) (s.setReg oDrainIdle idle)

/-! Refill edges (R276, R280, R297). -/

/-- What follows the steps of R251 in every weir (R297): the refill, if `refill`, the recolorings, and the clamps. DEDUCED, log entry 34;
DEDUCED, log entry 39. -/
def State.weirEdge (s : State) (refill : Bool) : State :=
  let tens := List.range 64
  let s := foldSt s.weirs (fun s e =>
    let s := if refill then foldSt tens (fun s t => s.recolor e t) (foldSt tens (fun s t => s.refill e t) s) else s
    (s.recolorDue.foldl (fun s p => if p.2 then s.greenAll e p.1 else s.recolor e p.1) s).clampEdge e) s
  { s with recolorDue := [], refillAt := if refill then s.frame else s.refillAt }

/-- The refill of a refill edge, then the merges of the frame that it begins (R276, R280, R297, R324). -/
def State.refillNow (s : State) : State := let t := s.edgeDo (State.weirEdge · true); foldSt t.weirs State.mergeAll t

/-- METER_REFILL: the buckets are refilled at a refill edge (R276, R280, R297). The command stands right after the edge.
DESIGN CHOICE, log entry 10. -/
def execMeterRefill (s : State) : Outcome := live s <| when' s.refillDue s s.refillNow

/-- A refill whose command has not come by the end of its frame. DESIGN CHOICE, log entry 10. -/
def State.lateRefill (s : State) : State := if s.refillDue then s.refillNow else s

/-- The end of a frame in service: what is still to be sampled in it (R253), the work of the frame and its messages (R250), the timers, the
releases (R14, R161), and the ends of moves and walks. DEDUCED, log entry 11. -/
def State.serviceEnd (s : State) (levels : BitVec 16) : State :=
  let s := foldSt (List.range s.nSlices) (fun s k => s.sampleRest k s.net.length) s
  let s := foldSt s.liveSlices State.noteAlu s
  let s := foldSt (List.range 4) State.hubEdge s
  let s := s.runAgenda levels 0 (3 * s.agenda.length + 64)
  let s := (s.fabric).expireAll
  let s := s.runAgenda levels 2 (3 * s.agenda.length + 64)
  let s := foldSt s.liveSlices State.sliceEnd s
  (s.initCheck).drainEdge

/-- A timer of a port or of start-up expires, unless an arrival of this frame has ended its wait (R14), and a placement window or a sweep
ends with its frame (R229, R421). DEDUCED, log entry 24. -/
def State.lapse (s : State) : Lapse → State
  | .config i => if s.configDue i then s.configLapse i else s
  | .probe => if s.probeDue then s.startFail 0x11 else s
  | .memWait => if s.memWaitDue then s.startFail 0x14 else s
  | .fill p => if s.fillLate p then s.startFail 0x15 else s
  | .flash => if s.flashLate then s.flashLapse else s
  | .place h => s.placeClose h
  | .sweep h => s.endSweep h

/-- These timers of the frame expire, in order. DESIGN CHOICE, log entry 9. -/
def State.lapseAll (s : State) : State := s.lapsed.foldl State.lapse { s with lapsed := [] }

/-- The end of a frame; the records to be sent again follow the others of the frame (R390). -/
def State.frameEnd (s : State) (levels : BitVec 16) : State :=
  let s := s.lateRefill
  let s := (if s.inService then s.serviceEnd levels else s).lapseAll
  let s := foldSt (List.range s.nSlices) State.engineEnd s
  foldSt s.liveSlices State.sendAgainRecs (foldSt s.pmc.wraps State.wrapEvent s)

/-! The edge (R251). -/

/-- PM_SLEEP_GRANT and HP_PERMIT fall (R443, R450). DEDUCED, log entry 22; DEDUCED, log entry 38. -/
def State.pinEdge (s : State) (levels : BitVec 16) : State :=
  let s := { s with pmGrant := s.pmGrant &&& levels, pmSleepReq := levels, hpPermit := s.hpPermit &&& s.hpRetireReq }
  foldSt (List.range 24) (fun s a =>
    if !(s.ag a).fallDue then s
    else
      let s := s.updAg a fun g => { g with fallDue := false }
      if a < 16 then { s with pmGrant := setBits s.pmGrant a 1 0 } else { s with hpPermit := setBits s.hpPermit (a - 16) 1 0 }) s

/-- LZ_PMC_CYCLES counts the 32 hclk of the frame (R543, R545). -/
def State.cycleEdge (s : State) : State :=
  if s.flag oPmcCtl 0 then s
  else
    let n := s.fld oCycles 0 48 + 32
    let s := s.setFld oCycles 0 48 (n % 2 ^ 48)
    if 2 ^ 48 ≤ n then s.wrapped 128 oCycles else s

/-- A logical slice has a staged write at a memory port, or a transaction has asked it (R345). -/
def State.askedPort (s : State) (h p : Nat) : List Nat :=
  let here (l : LineAddr) : Bool := s.memPort (wireOf l) == p
  (((s.sl h).txns.filter fun e => e.2.mems.any fun m => here (e.2.lineAt m.j)).map Prod.fst) ++
  (((s.sl h).merges.filter fun e => e.2.used && e.2.staged && !e.2.done && here e.2.line).map fun e => e.2.tag)

/-- The memory ports that reported down in the frame fail (R345). -/
def State.portEdge (s : State) : State :=
  s.memDownDue.foldl (fun s p =>
    let d := BitVec.ofNat 64 p
    let s := ({ s with memFailed := setBits s.memFailed p 1 1 }.raise 44 0 d).faultDue (1152 + 44) 0 d
    foldSt s.liveSlices (fun s h => (s.askedPort h p).foldl (fun s t => s.plan (s.frame + 1) h t .portDown) s) s) { s with memDownDue := [] }

/-- The slices that are declared failed at the edge (R394, R396). -/
def State.failEdge (s : State) : State :=
  s.failDue.foldl (fun s p => s.declareFailed p.1 p.2 (s.frame + 1)) { s with failDue := [] }

/-- The takeovers that start in frame 0, just begun (R398). -/
def State.failEvents (s : State) (due : List (Nat × Nat)) : State :=
  due.foldl (fun s p => if (s.sl p.1).tk.active && (s.sl p.1).tk.frame0 == s.frame && !s.pairLost p.1 then s.failedEvent p.1 p.2 else s) s

/-! The frame that begins. -/

/-- RATE and BURST of every tenant (R258). -/
def State.allowances (s : State) : List (Nat × Nat × Nat) :=
  (List.range 64).map fun t => (t, s.fld (oTn t 0x10) 0 8, s.fld (oTn t 0x10) 8 4)

/-- The C0 credits rise (R258). -/
def State.creditEdge (s : State) (al : List (Nat × Nat × Nat)) (e : Nat) : State :=
  s.updSl e fun sl => { sl with c0credit := al.foldl (fun m a =>
    tputD (c0Full a.1) a.1 (min (tget (c0Full a.1) m a.1 + a.2.1) (64 * a.2.2)) m) sl.c0credit }

/-- What a slice counts per frame starts again; the spare rows written in the frame cost their accesses (R368). -/
def Slice.newFrame (frame : Nat) (sl : Slice) : Slice :=
  { sl with slots := 0, evUsed := sl.copyCost frame, evLate := false, recsSent := 0, deferring := false, deferTags := [], applied := false, freed := [] }

/-- The start of a frame in an engine. -/
def State.engineStart (s : State) (al : List (Nat × Nat × Nat)) (e : Nat) : State := ((s.updSl e (Slice.newFrame s.frame)).creditEdge al e)

/-- Waiters whose count has reached a PASS_LIMIT that a write has lowered are promoted, as far as the records of the frame allow (R193,
R387, R388). -/
def State.promoteEdge (s : State) (h : Nat) : State :=
  let limit := max 1 (s.fld oProgress 16 6)
  let up := (s.sl h).txns.filter fun p => p.2.st == .waiting && !p.2.promoted && limit ≤ p.2.passed
  up.foldl (fun s p =>
    s.recordedFor h p.1 ((s.upd h p.1 fun x => { x with promoted := true }).incFld (oSl (s.engine h) 0x10) 22 8 1)) s

/-- A rebuild sweep that found no home tag tries again (R416, R422). -/
def State.sweepEdge (s : State) (h : Nat) : State := if (s.sl h).sweepDue && s.rangeOpen h then s.sweepStart h else s

/-! What is taken in the first hclk of a frame (R249, R250, R388). -/

/-- The place of what is taken in the order of R388: class C0 first, then by tag; the sampling of a `WbDirty` comes last.
DEDUCED, log entry 16. -/
def State.firstKey (s : State) (l : Late) : Nat :=
  let key (h t : Nat) : Nat := (if s.isC0 h t then 0 else 2 ^ 28) + t
  match l with
  | .answer m => key m.slice m.tag
  | .loss h t _ => key h t
  | .sample _ => 2 ^ 29

/-- The answers that reached their slices in an earlier frame (R249). -/
def State.arrived (s : State) : List Inbound := s.inbound.filter fun n => n.reached.any fun f => f < s.frame

/-- Take what an earlier frame put off, or a loss. -/
def State.takeLate (s : State) : Late → State
  | .answer m => s.takeAnswer m
  | .sample n => s.takeSample n
  | .loss h t a => s.taken h t (.loss h t a) (s.loseTag h t a)

/-- Take an answer that has arrived, or what was put off. -/
def State.takeOne (s : State) : Bool × Late → State
  | (true, .answer m) => s.sampleAnswer m
  | (_, l) => s.takeLate l

/-- In the first hclk of a frame every slice takes what was put off, the losses of the edge, and the answers that reached it in an earlier
frame, in the order of R388 (R169, R249, R250). DESIGN CHOICE, log entry 9; DEDUCED, log entry 16. -/
def State.takeFirst (s : State) : State :=
  let all := (s.late.map fun l => (false, l)) ++ s.arrived.map fun n => (true, Late.answer n.msg)
  (all.foldl (fun l p => insertBy (fun a b => s.firstKey a.2 < s.firstKey b.2) p l) []).foldl State.takeOne
    { s with late := [], inbound := s.inbound.filter fun n => !(n.reached.any fun f => f < s.frame) }

/-- The start of frame N + 1: what the edge leaves is what its reads show (R560), and the weirs of a refill edge go on with METER_REFILL
(R297). -/
def State.frameStart (s : State) (lost : Agents) (failed : List (Nat × Nat)) : State :=
  let s := { s with frame := s.frame + 1, marks := [], hpSurprise := 0, bus := { s.bus with evtSent := 0 } }
  let s := foldSt (List.range 24) (fun s a => if (s.ag a).joining then s.updAg a fun g => { g with joining := false } else s) s
  let s := s.loadEdge
  let s := if s.inService && !s.refillDue then s.weirEdge false else s
  let s := foldSt ((List.range 8).map fun i => 16 + i) State.detectEdge s
  let s := (s.showEdge).failEvents failed
  if s.inService then
    let al := s.allowances
    let s := foldSt (List.range s.nSlices) (fun s e => s.engineStart al e) s
    let s := (vecAgents lost).foldl State.lossEffects s
    let s := foldSt s.liveSlices (fun s h => (s.promoteEdge h).sweepEdge h) s
    let s := if s.refillDue then s else foldSt s.weirs State.mergeAll s
    let s := (foldSt (List.range 4) State.hubStart s).takeFirst
    foldSt s.liveSlices State.noteReady s
  else s

/-- The changes of the edge between two frames, in the order of R251, with the writes and COMMITs served in the frame: the agents lost, the
slices to be failed, and the state. -/
def State.edgeChanges (s : State) (levels : BitVec 16) (q : List EdgeOp) : Agents × List (Nat × Nat) × State :=
  let s := foldSt (List.range 24) State.consecEdge s
  let (lost, s) := s.lossEdge
  let s := foldSt ((List.range 8).map fun i => 16 + i) State.retireEdge s
  let s := ((s.pinEdge levels).cycleEdge).applyEdge q
  let s := (s.mapSwitch).portEdge
  (lost, s.failDue, s.failEdge)

/-- The event log at the edge: the entries of the frame, those raised at the edge among them, enter the ring, and then the writes of the log
take effect (R540, R542, R563). Nothing else writes the ring. DEDUCED, log entry 35. -/
def State.edgeLog (s : State) (ring : LogRing) (q : List EdgeOp) : State := ({ s with ring := ring }.logFlush).applyLog q

/-- The end of a frame and the edge after it, in which the log's ring is the one of the frame; the vectors follow the pending bits (R537), and
the next frame begins. -/
def State.edge (s : State) (levels : BitVec 16) (q : List EdgeOp) : State :=
  let (lost, failed, t) := (s.frameEnd levels).edgeChanges levels q
  let t := t.edgeLog s.ring q
  { t.pinsOut.frameStart lost failed with ring := t.ring }

/-- What every edge leaves, whatever the frame held: the next frame number (R13) with none of its slots used (R254), the levels sampled, no
write waiting for an edge, and what no command drives. -/
def State.begun (s t : State) (levels : BitVec 16) : State :=
  { t with frame := s.frame + 1, pmSleepReq := levels, hpSurprise := 0, edgeQ := [], inReset := s.inReset, fusing := s.fusing, pending := s.pending
           slices := t.slices.map fun (p : Nat × Slice) => (p.1, { p.2 with slots := 0 }) }

/-- FRAME_EDGE: a frame ends, the edge's changes apply, and the next frame begins (R250, R251). -/
def execFrameEdge (levels : BitVec 16) (s : State) : Outcome :=
  .next (if s.inReset then s else s.begun (s.edge levels s.edgeQ) levels)

/-! Leak edges. -/

/-- LEAK in force, in units of 65,536 frames. -/
def State.leakPeriod (s : State) : Nat := 65536 * max 1 (s.fld oCe 0 16)

/-- The level of a bank at a leak edge; it arms again at 0 (R372, R373). -/
def State.leak (s : State) (k b : Nat) : State :=
  let o := oSl k (0x200 + 8 * b)
  let n := s.fld o 0 8 - 1
  let s := (s.setFld o 0 8 n).setFld o 40 3 0
  if n = 0 then s.setFld o 8 1 1 else s

/-- What a leak edge changes. -/
def State.leakAll (s : State) : State :=
  foldSt (List.range s.nSlices) (fun s k =>
    (foldSt (List.range 16) (fun s b => s.leak k b) s).updSl k fun sl =>
      { sl with ucSets := [], jrecErrs := [] }) { s with leakAt := s.frame }

/-- LEAK_EDGE: every bank's level leaks, and the errors of a leak period are forgotten (R370, R372, R373, R391). The command stands
right after the edge. DESIGN CHOICE, log entry 10. -/
def execLeakEdge (s : State) : Outcome :=
  live s <| when' (s.frame % s.leakPeriod = 0 && s.leakAt < s.frame) s (s.edgeDo State.leakAll)

end Sys2Proof.Machine
end

