-- ==== Sys2Proof/Machine/Dispatch.lean ====
section
/-! DEFINITION. One arm per command of the table: the effect of a command on everything but the queue. -/

namespace Sys2Proof.Machine

def exec (i : Instr) (s : State) : Host.Outcome State Fault Refusal :=
  match i with
  | .resetAssert => Sys2Proof.Machine.execResetAssert s
  | .resetDeassert => Sys2Proof.Machine.execResetDeassert s
  | .flashResetWaitEnd => Sys2Proof.Machine.execFlashResetWaitEnd s
  | .imageHeaderReadDone copyB hdr => Sys2Proof.Machine.execImageHeaderReadDone copyB hdr s
  | .imageCopyReadDone bytes => Sys2Proof.Machine.execImageCopyReadDone bytes s
  | .evganProbeTimeout slice => Sys2Proof.Machine.execEvganProbeTimeout slice s
  | .cisternReadDone slots => Sys2Proof.Machine.execCisternReadDone slots s
  | .selftestDone fails => Sys2Proof.Machine.execSelftestDone fails s
  | .arrayFillDone => Sys2Proof.Machine.execArrayFillDone s
  | .memoryPortUp port => Sys2Proof.Machine.execMemoryPortUp port s
  | .memWaitExpiry => Sys2Proof.Machine.execMemWaitExpiry s
  | .fillWriteSend port => Sys2Proof.Machine.execFillWriteSend port s
  | .fillWriteTimeout port => Sys2Proof.Machine.execFillWriteTimeout port s
  | .blockReady => Sys2Proof.Machine.execBlockReady s
  | .linkUp agent => Sys2Proof.Machine.execLinkUp agent s
  | .linkDown agent => Sys2Proof.Machine.execLinkDown agent s
  | .linkRetrainPause agent => Sys2Proof.Machine.execLinkRetrainPause agent s
  | .memoryPortDown port => Sys2Proof.Machine.execMemoryPortDown port s
  | .hpSurprise agent => Sys2Proof.Machine.execHpSurprise agent s
  | .hpRetireReq agent => Sys2Proof.Machine.execHpRetireReq agent s
  | .hpRetireCancel agent => Sys2Proof.Machine.execHpRetireCancel agent s
  | .retireRequestsDrained agent => Sys2Proof.Machine.execRetireRequestsDrained agent s
  | .retireSluiceClose agent => Sys2Proof.Machine.execRetireSluiceClose agent s
  | .hpPermitRise agent => Sys2Proof.Machine.execHpPermitRise agent s
  | .pmSleepReqFall agent => Sys2Proof.Machine.execPmSleepReqFall agent s
  | .sleepGrantRise agent => Sys2Proof.Machine.execSleepGrantRise agent s
  | .evclkLoss => Sys2Proof.Machine.execEvclkLoss s
  | .tempReading slice a b => Sys2Proof.Machine.execTempReading slice a b s
  | .frameEdge pmSleepReq => Sys2Proof.Machine.execFrameEdge pmSleepReq s
  | .meterRefill => Sys2Proof.Machine.execMeterRefill s
  | .placementWindowClose slice => Sys2Proof.Machine.execPlacementWindowClose slice s
  | .decayVisit slice => Sys2Proof.Machine.execDecayVisit slice s
  | .leakEdge => Sys2Proof.Machine.execLeakEdge s
  | .secondTick => Sys2Proof.Machine.execSecondTick s
  | .checkpointDue => Sys2Proof.Machine.execCheckpointDue s
  | .streamGapExpiry agent => Sys2Proof.Machine.execStreamGapExpiry agent s
  | .watchEntryExpiry slice pos => Sys2Proof.Machine.execWatchEntryExpiry slice pos s
  | .pmcWrap n => Sys2Proof.Machine.execPmcWrap n s
  | .rdShared a => Sys2Proof.Machine.execRdShared a s
  | .rdOwn a => Sys2Proof.Machine.execRdOwn a s
  | .upgrade a => Sys2Proof.Machine.execUpgrade a s
  | .rdCur a => Sys2Proof.Machine.execRdCur a s
  | .claim a => Sys2Proof.Machine.execClaim a s
  | .atomNear a => Sys2Proof.Machine.execAtomNear a s
  | .atomFar a => Sys2Proof.Machine.execAtomFar a s
  | .evictClean a => Sys2Proof.Machine.execEvictClean a s
  | .wbDirty a => Sys2Proof.Machine.execWbDirty a s
  | .agentSleep a => Sys2Proof.Machine.execAgentSleep a s
  | .wrFull a => Sys2Proof.Machine.execWrFull a s
  | .wrPart a => Sys2Proof.Machine.execWrPart a s
  | .wrStream a => Sys2Proof.Machine.execWrStream a s
  | .fence a => Sys2Proof.Machine.execFence a s
  | .requestSample slice lane => Sys2Proof.Machine.execRequestSample slice lane s
  | .slotIssue pass slot store => Sys2Proof.Machine.execSlotIssue pass slot store s
  | .waiterResume pass slot => Sys2Proof.Machine.execWaiterResume pass slot s
  | .homeWaiterResume pass tag => Sys2Proof.Machine.execHomeWaiterResume pass tag s
  | .replayIssue slice hdrFail => Sys2Proof.Machine.execReplayIssue slice hdrFail s
  | .spillwayIssue pass => Sys2Proof.Machine.execSpillwayIssue pass s
  | .stageEntryObtain slice tag => Sys2Proof.Machine.execStageEntryObtain slice tag s
  | .evganWriteEnter slice tag => Sys2Proof.Machine.execEvganWriteEnter slice tag s
  | .evganWriteDrain slice => Sys2Proof.Machine.execEvganWriteDrain slice s
  | .correctionWriteback slice => Sys2Proof.Machine.execCorrectionWriteback slice s
  | .wordReread slice rowError => Sys2Proof.Machine.execWordReread slice rowError s
  | .rowRemap slice => Sys2Proof.Machine.execRowRemap slice s
  | .placementMoveStart slice => Sys2Proof.Machine.execPlacementMoveStart slice s
  | .placementMoveCommit slice => Sys2Proof.Machine.execPlacementMoveCommit slice s
  | .rspI a => Sys2Proof.Machine.execRspI a s
  | .rspS a => Sys2Proof.Machine.execRspS a s
  | .rspCross a => Sys2Proof.Machine.execRspCross a s
  | .rspIData a => Sys2Proof.Machine.execRspIData a s
  | .rspReport a => Sys2Proof.Machine.execRspReport a s
  | .reportApply slice => Sys2Proof.Machine.execReportApply slice s
  | .reportRepeat slice agent => Sys2Proof.Machine.execReportRepeat slice agent s
  | .ackGo a => Sys2Proof.Machine.execAckGo a s
  | .holdEnd slice tag => Sys2Proof.Machine.execHoldEnd slice tag s
  | .capOffer a => Sys2Proof.Machine.execCapOffer a s
  | .memData m => Sys2Proof.Machine.execMemData m s
  | .memCmp m => Sys2Proof.Machine.execMemCmp m s
  | .snoopContractExpiry slice tag agent line => Sys2Proof.Machine.execSnoopContractExpiry slice tag agent line s
  | .resendExpiry slice tag agent line => Sys2Proof.Machine.execResendExpiry slice tag agent line s
  | .finalWaitExpiry slice tag agent line => Sys2Proof.Machine.execFinalWaitExpiry slice tag agent line s
  | .ackgoWaitExpiry slice tag => Sys2Proof.Machine.execAckgoWaitExpiry slice tag s
  | .wbdirtyWaitExpiry slice tag agent line => Sys2Proof.Machine.execWbdirtyWaitExpiry slice tag agent line s
  | .crossingWaitExpiry slice tag agent line => Sys2Proof.Machine.execCrossingWaitExpiry slice tag agent line s
  | .flushContractExpiry slice agent => Sys2Proof.Machine.execFlushContractExpiry slice agent s
  | .gatherWindowClose slice tag => Sys2Proof.Machine.execGatherWindowClose slice tag s
  | .mergeEntryTake slice tag => Sys2Proof.Machine.execMergeEntryTake slice tag s
  | .aluExecute slice tag => Sys2Proof.Machine.execAluExecute slice tag s
  | .watchdogFire slice tag => Sys2Proof.Machine.execWatchdogFire slice tag s
  | .takeoverMapWrite failed => Sys2Proof.Machine.execTakeoverMapWrite failed s
  | .takeoverScan failed => Sys2Proof.Machine.execTakeoverScan failed s
  | .takeoverOpen failed => Sys2Proof.Machine.execTakeoverOpen failed s
  | .takeoverReplay pass slot => Sys2Proof.Machine.execTakeoverReplay pass slot s
  | .zeroingWalkStep failed => Sys2Proof.Machine.execZeroingWalkStep failed s
  | .sweepEnd slice => Sys2Proof.Machine.execSweepEnd slice s
  | .bypassLaneChange router lane hclk => Sys2Proof.Machine.execBypassLaneChange router lane hclk s
  | .journalRecordReceive slice ecc => Sys2Proof.Machine.execJournalRecordReceive slice ecc s
  | .streamReadyReport slice tag => Sys2Proof.Machine.execStreamReadyReport slice tag s
  | .streamReleaseNotice slice tag => Sys2Proof.Machine.execStreamReleaseNotice slice tag s
  | .fenceNotice slice tag => Sys2Proof.Machine.execFenceNotice slice tag s
  | .laneCreditReturn lane slice c0 => Sys2Proof.Machine.execLaneCreditReturn lane slice c0 s
  | .flitHopRetry src dst again => Sys2Proof.Machine.execFlitHopRetry src dst again s
  | .rinvStart w => Sys2Proof.Machine.execRinvStart w s
  | .rinvSetRead slice => Sys2Proof.Machine.execRinvSetRead slice s
  | .rinvTransaction pass => Sys2Proof.Machine.execRinvTransaction pass s
  | .scrubStart w => Sys2Proof.Machine.execScrubStart w s
  | .scrubSetRead slice => Sys2Proof.Machine.execScrubSetRead slice s
  | .scrubRecovery pass => Sys2Proof.Machine.execScrubRecovery pass s
  | .orphanRecovery pass => Sys2Proof.Machine.execOrphanRecovery pass s
  | .recountSetRead slice => Sys2Proof.Machine.execRecountSetRead slice s
  | .agentwalkStart w => Sys2Proof.Machine.execAgentwalkStart w s
  | .agentwalkSetRead slice => Sys2Proof.Machine.execAgentwalkSetRead slice s
  | .agentwalkTransaction pass => Sys2Proof.Machine.execAgentwalkTransaction pass s
  | .lossSweepSetRead slice => Sys2Proof.Machine.execLossSweepSetRead slice s
  | .lossSweepTransaction pass => Sys2Proof.Machine.execLossSweepTransaction pass s
  | .lossDone agent => Sys2Proof.Machine.execLossDone agent s
  | .meminitStart w => Sys2Proof.Machine.execMeminitStart w s
  | .meminitTransaction pass => Sys2Proof.Machine.execMeminitTransaction pass s
  | .debugRead slice => Sys2Proof.Machine.execDebugRead slice s
  | .filterDisable w => Sys2Proof.Machine.execFilterDisable w s
  | .filterStaleEnable w => Sys2Proof.Machine.execFilterStaleEnable w s
  | .filterRebuild w => Sys2Proof.Machine.execFilterRebuild w s
  | .flipArm w => Sys2Proof.Machine.execFlipArm w s
  | .takeoverForce w => Sys2Proof.Machine.execTakeoverForce w s
  | .sliceReturn w => Sys2Proof.Machine.execSliceReturn w s
  | .returnComplete slice testOk => Sys2Proof.Machine.execReturnComplete slice testOk s
  | .cfgBegin init => Sys2Proof.Machine.execCfgBegin init s
  | .cfgCommit init => Sys2Proof.Machine.execCfgCommit init s
  | .cfgRollback init => Sys2Proof.Machine.execCfgRollback init s
  | .cfgTimeout init => Sys2Proof.Machine.execCfgTimeout init s
  | .rwlWrite w => Sys2Proof.Machine.execRwlWrite w s
  | .drainMaskWrite w => Sys2Proof.Machine.execDrainMaskWrite w s
  | .logRdWrite w => Sys2Proof.Machine.execLogRdWrite w s
  | .evtPendClear w => Sys2Proof.Machine.execEvtPendClear w s
  | .pmcSnap w => Sys2Proof.Machine.execPmcSnap w s
  | .pmcFreeze w => Sys2Proof.Machine.execPmcFreeze w s
  | .cisternSave w => Sys2Proof.Machine.execCisternSave w s
  | .calendarWrite w => Sys2Proof.Machine.execCalendarWrite w s
  | .nvmRead w => Sys2Proof.Machine.execNvmRead w s
  | .nvmProgram w => Sys2Proof.Machine.execNvmProgram w s
  | .nvmErase w => Sys2Proof.Machine.execNvmErase w s
  | .nvmReload w => Sys2Proof.Machine.execNvmReload w s
  | .nvmItemStart => Sys2Proof.Machine.execNvmItemStart s
  | .flashOpComplete data => Sys2Proof.Machine.execFlashOpComplete data s
  | .flashOpTimeout => Sys2Proof.Machine.execFlashOpTimeout s
  | .busTransferGrant boundary completes => Sys2Proof.Machine.execBusTransferGrant boundary completes s
  | .busTimeout => Sys2Proof.Machine.execBusTimeout s
  | .logCollect => Sys2Proof.Machine.execLogCollect s
  | .registerWrite w => Sys2Proof.Machine.execRegisterWrite w s
  | .hpPermitFall agent => Sys2Proof.Machine.execHpPermitFall agent s

end Sys2Proof.Machine
end

