-- ==== Sys2Proof/WellFormed.lean ====
section
/-! DEFINITION. Well-formed commands: every part a command names exists on the larger fusing (R5, R6, R16, R128, R516). -/

namespace Sys2Proof

/-- A slice number. -/
def okSlice (k : Nat) : Bool := k < 16
/-- A tag (R128), an agent (R124), a lane (R290), a memory port (R29), an initiator (R516). -/
def okTag (t : Nat) : Bool := t < 1024
@[inherit_doc okTag] def okAgent (a : Nat) : Bool := a < 24
@[inherit_doc okTag] def okLane (l : Nat) : Bool := l < 24
@[inherit_doc okTag] def okPort (p : Nat) : Bool := p < 12
@[inherit_doc okTag] def okInit (i : Nat) : Bool := i < 16

/-- An I/O agent, with the pins of hot plug (R124, R450). -/
def okIo (a : Nat) : Bool := 16 ≤ a && a < 24
/-- A compute agent, with the pins of sleep (R124, R441). -/
def okCpu (a : Nat) : Bool := a < 16

/-- A message has a header and at most five payload flits, on a lane that exists (R63). -/
def Arrival.wf (a : Arrival) : Bool := okLane a.lane && 1 ≤ a.flits.length && a.flits.length ≤ 6

/-- A memory answer has a header and no or four payload flits (R118). -/
def MemArrival.wf (m : MemArrival) : Bool := okPort m.port && (m.flits.length == 1 || m.flits.length == 5)

/-- A register access comes from an initiator that exists (R516); the register port itself ignores a malformed size or offset
(R559). -/
def RegAccess.wf (w : RegAccess) : Bool := okInit w.init

/-- A part that fails self-test exists (R366, R371, R460). -/
def SelfFail.wf : SelfFail → Bool
  | .row k ev set => okSlice k && set < (if ev then 16384 else 4096)
  | .spare k ev n => okSlice k && n < (if ev then 32 else 16)
  | .decoder k b => okSlice k && b < 12
  | .conflict k | .pipeline k | .journal k => okSlice k
  | .store k b => okSlice k && (b == 14 || b == 15)
  | .router r => r < 24

/-- The command names only parts that exist, and its byte strings have the lengths its rule gives. DESIGN CHOICE, log entry 7. -/
def Instr.wf : Instr → Bool
  | .imageHeaderReadDone _ hdr => hdr.length == 64
  | .imageCopyReadDone b => b.length ≤ 0x400000
  | .cisternReadDone l => l.all fun x => x.slot < 256 && x.bytes.length == 4096
  | .selftestDone l => l.all SelfFail.wf
  | .evganProbeTimeout k | .placementWindowClose k | .decayVisit k | .replayIssue k _ | .spillwayIssue ⟨k, _⟩ | .evganWriteDrain k
  | .correctionWriteback k | .wordReread k _ | .rowRemap k | .placementMoveStart k | .placementMoveCommit k | .reportApply k
  | .takeoverMapWrite k | .takeoverScan k | .takeoverOpen k | .zeroingWalkStep k | .sweepEnd k | .journalRecordReceive k _
  | .rinvSetRead k | .rinvTransaction ⟨k, _⟩ | .scrubSetRead k | .scrubRecovery ⟨k, _⟩ | .orphanRecovery ⟨k, _⟩ | .recountSetRead k
  | .agentwalkSetRead k | .agentwalkTransaction ⟨k, _⟩ | .lossSweepSetRead k | .lossSweepTransaction ⟨k, _⟩ | .meminitTransaction ⟨k, _⟩
  | .debugRead k | .returnComplete k _ | .tempReading k _ _ => okSlice k
  | .memoryPortUp p | .memoryPortDown p | .fillWriteSend p | .fillWriteTimeout p => okPort p
  | .linkUp a | .linkDown a | .linkRetrainPause a | .lossDone a => okAgent a
  | .hpSurprise a | .hpRetireReq a | .hpRetireCancel a | .retireRequestsDrained a | .retireSluiceClose a | .hpPermitRise a
  | .hpPermitFall a | .streamGapExpiry a => okIo a
  | .pmSleepReqFall a | .sleepGrantRise a => okCpu a
  | .watchEntryExpiry k pos => okSlice k && pos < 32
  | .pmcWrap n => n ≤ 128
  | .rdShared a | .rdOwn a | .upgrade a | .rdCur a | .claim a | .atomNear a | .atomFar a | .evictClean a | .wbDirty a
  | .agentSleep a | .wrFull a | .wrPart a | .wrStream a | .fence a | .rspI a | .rspS a | .rspCross a | .rspIData a | .rspReport a
  | .ackGo a | .capOffer a => a.wf
  | .requestSample k l => okSlice k && okLane l
  | .slotIssue ⟨k, _⟩ n _ | .waiterResume ⟨k, _⟩ n | .takeoverReplay ⟨k, _⟩ n => okSlice k && n < 16
  | .homeWaiterResume ⟨k, _⟩ t => okSlice k && okTag t
  | .stageEntryObtain k t | .evganWriteEnter k t | .holdEnd k t | .ackgoWaitExpiry k t
  | .gatherWindowClose k t | .mergeEntryTake k t | .aluExecute k t | .watchdogFire k t | .streamReadyReport k t
  | .streamReleaseNotice k t | .fenceNotice k t => okSlice k && okTag t
  | .reportRepeat k a | .flushContractExpiry k a => okSlice k && okAgent a
  | .memData m | .memCmp m => m.wf
  | .snoopContractExpiry k t a j | .resendExpiry k t a j | .finalWaitExpiry k t a j | .wbdirtyWaitExpiry k t a j
  | .crossingWaitExpiry k t a j => okSlice k && okTag t && okAgent a && j < 4
  | .bypassLaneChange r l h => r < 16 && l < 20 && h < 2 ^ 32
  | .laneCreditReturn l k _ => okLane l && okSlice k
  | .flitHopRetry a b _ => a < 24 && b < 24
  | .busTransferGrant b _ => b < 8
  | .cfgBegin i | .cfgCommit i | .cfgRollback i | .cfgTimeout i => okInit i
  | .rinvStart w | .scrubStart w | .agentwalkStart w | .meminitStart w | .filterDisable w | .filterStaleEnable w
  | .filterRebuild w | .flipArm w | .takeoverForce w | .sliceReturn w | .rwlWrite w | .drainMaskWrite w | .logRdWrite w
  | .evtPendClear w | .pmcSnap w | .pmcFreeze w | .cisternSave w | .calendarWrite w | .nvmRead w | .nvmProgram w | .nvmErase w
  | .nvmReload w | .registerWrite w => w.wf
  | .resetAssert | .resetDeassert | .flashResetWaitEnd | .arrayFillDone | .memWaitExpiry | .blockReady | .evclkLoss
  | .frameEdge _ | .meterRefill | .leakEdge | .secondTick | .checkpointDue | .nvmItemStart | .flashOpComplete _
  | .flashOpTimeout | .busTimeout | .logCollect => true

end Sys2Proof
end

