-- ==== Sys2Proof/Safety.lean ====
section
/-! DEFINITION. What counts as a safe state, in the terms the statements use. -/

namespace Sys2Proof.Machine

/-- While LZ_RST_N is 0 the block drives BLOCK_READY and BLOCK_FAIL to 0, sends nothing on any port, and keeps the flash deselected
(R485). -/
def State.ResetPins (s : State) : Prop :=
  s.inReset = true → s.ready = false ∧ s.failPin = false ∧ s.out = [] ∧ s.cistern.busy = none

/-- The register file is in canonical form: offsets rising, and no register listed with the value it has unlisted. -/
def State.RegsWf (s : State) : Prop :=
  (s.regs.map Prod.fst).Pairwise (· < ·) ∧ ∀ p ∈ s.regs, p.2 ≠ resetWord s.fusing p.1

/-- A line state that R122 allows: a sharer vector with a sharer, an owner that exists. -/
def LineState.Legal : LineState → Prop
  | .untracked => True
  | .shared v => v ≠ 0
  | .owned a => a < 24

/-- A pool of a lane has a credit toward a home, and no request of the pool waits (R292). -/
def State.PoolFree (s : State) (l h : Nat) (c0 : Bool) : Prop :=
  if c0 then 0 < s.laneC0 l h ∧ (s.lane l).waitC0 = [] else 0 < s.laneGen l h ∧ (s.lane l).waitGen = []

/-- The credits of a pool (R291). -/
def State.pool (s : State) (l h : Nat) (c0 : Bool) : Int := if c0 then s.laneC0 l h else s.laneGen l h

/-- A response passes its port toward the slice that it names (R33, R73, R78, R110, R437). -/
structure State.Answers (s : State) (op : RspOp) (a : Arrival) : Prop where
  serves : s.inReset = false ∧ s.ready = true
  lane   : a.lane < 24 ∧ isNcLane a.lane = false
  opcode : hOp (headOf a.flits) = op.code
  passes : s.ingress a = 0
  opened : s.taking (hAgent (headOf a.flits)) = true
  slice  : rHslice (headOf a.flits) < s.nSlices

/-- A response that its slice samples meets the wait that it answers (R76, R77, R142). -/
structure State.Meets (s : State) (op : RspOp) (a : Arrival) (h t : Nat) (w : Wait) : Prop where
  opened : s.sluice (hAgent (headOf a.flits)) = true
  home   : rHslice (headOf a.flits) = h ∧ rHtid (headOf a.flits) = t
  epoch  : s.matches h t (rEpoch (headOf a.flits)) = true
  line   : (s.txn h t).hasLine (rAddr (headOf a.flits)) = true
  wait   : (s.txn h t).snoopWait op (hAgent (headOf a.flits)) ((s.txn h t).lineNo (rAddr (headOf a.flits))) = some w

/-- A home-account transaction started in the selvedge slot of its engine, in frame N of the state before (R128, R182, R530). -/
structure State.Started (s u : State) (h t : Nat) (k : HomeKind) (l : LineAddr) : Prop where
  kind  : (u.txn h t).home = some k
  line  : (u.txn h t).line = l
  frame : (u.txn h t).issue = s.frame

/-- The command of a request's row (R69). -/
def ReqOp.row : ReqOp → Arrival → Instr
  | .rdShared, a => .rdShared a | .rdOwn, a => .rdOwn a | .upgrade, a => .upgrade a | .rdCur, a => .rdCur a | .claim, a => .claim a
  | .atomNear, a => .atomNear a | .atomFar, a => .atomFar a | .evictClean, a => .evictClean a | .agentSleep, a => .agentSleep a
  | .wrFull, a => .wrFull a | .wrPart, a => .wrPart a | .wrStream, a => .wrStream a | .fence, a => .fence a | .wbDirty, a => .wbDirty a

/-- The command of a response's row (R73). -/
def RspOp.row : RspOp → Arrival → Instr
  | .rspI, a => .rspI a | .rspS, a => .rspS a | .rspCross, a => .rspCross a | .rspIData, a => .rspIData a | .rspReport, a => .rspReport a
  | .ackGo, a => .ackGo a

/-- A request passes its port: its opcode, the checks of R33, an open sluice (R110, R444) of an agent that joined in an earlier frame (R437),
and a lane that takes messages (R87, R292, R326). -/
structure State.Enters (s : State) (op : ReqOp) (a : Arrival) : Prop where
  serves : s.inReset = false ∧ s.ready = true
  lane   : a.lane < 24
  opcode : hOp (headOf a.flits) = op.code
  passes : s.ingress a = 0
  opened : isNcLane a.lane = true ∨ s.taking (parseReq op a s.frame).src = true
  taken  : s.laneStopped a.lane = false

/-- The rows of writes at the register port outside the slice windows, each with the writes it names (R238, R378, R381, R427, R429,
R446, R523, R531, R535, R542, R546, R547, R553 to R555). -/
def writeRows : List ((RegAccess → Instr) × (RegAccess → Bool)) :=
  [(.rinvStart, fun w => w.slot = oRinv && w.starts 16), (.scrubStart, fun w => w.slot = oScrub && w.starts 18),
   (.agentwalkStart, fun w => w.slot = oWalk && w.starts 8), (.meminitStart, fun w => w.slot = oMeminit && w.starts 0),
   (.flipArm, fun w => w.slot = oFlip && w.starts 0), (.takeoverForce, fun w => w.slot = oTakeover && w.starts 4),
   (.sliceReturn, fun w => w.slot = oTakeover && w.starts 5), (.drainMaskWrite, fun w => w.slot = oDrain && w.mask != 0),
   (.logRdWrite, fun w => w.slot = oLogPtr && (0x1FFF0000 &&& w.mask) != 0), (.evtPendClear, fun w => w.slot = oEvtPend 0 || w.slot = oEvtPend 1),
   (.pmcSnap, fun w => w.slot = oPmcCtl && w.starts 1), (.pmcFreeze, fun w => w.slot = oPmcCtl && w.mask.getLsbD 0),
   (.cisternSave, fun w => w.slot = oCistern && w.starts 8), (.calendarWrite, fun w => w.slot = oCalendar),
   (.nvmRead, fun w => w.slot = oNvm && (w.mask &&& w.value).toNat % 8 = 1),
   (.nvmProgram, fun w => w.slot = oNvm && (w.mask &&& w.value).toNat % 8 = 2),
   (.nvmErase, fun w => w.slot = oNvm && (w.mask &&& w.value).toNat % 8 = 3),
   (.nvmReload, fun w => w.slot = oNvm && (w.mask &&& w.value).toNat % 8 = 4),
   (.registerWrite, fun w => rwlMask w.slot = 0 && w.slot != oCfg && ((rwMask w.slot ||| w1cMask w.slot ||| woMask w.slot) &&& w.mask) != 0)]

/-- The register port serves a write at once: one that R559 accepts, none before it, no transfer needed (R490, R562). -/
def State.Serves (s : State) (w : RegAccess) : Prop :=
  s.inReset = false ∧ s.ready = true ∧ w.init < 16 ∧ w.accepted = true ∧ w.read = false ∧ s.bus.port = [] ∧ s.toSlice w = none ∧
    s.unnamed w = false

end Sys2Proof.Machine
end

