-- ==== Sys2Proof/Certificates/Slice0/Obligations.lean ====
section
/-! DEFINITION. The statements about the block: the queue and the reset, the codes and choices the rules define, the shared operations,
and for every command the state it leaves. -/

section
open Sys2Proof Sys2Proof.Machine

/-! The queue, the reset, and what no command does. -/

/-- A step runs the command at the front of the queue on the state with the queue's rest; an empty queue idles (log entry 6). -/
def Obligations.StepRunsTheFrontCommand : Prop :=
  (∀ (s : State) (c : Instr) (l : List Instr), step { s with pending := c :: l } = exec c { s with pending := l }) ∧
  (∀ s : State, s.pending = [] → step s = .next s)

/-- Every well-formed command completes in every state of the larger part; on the smaller one a command may instead name a slice that
the part does not have (R5), and then it stops. No command is refused. A command whose event is not due changes nothing, the model's
choice (log entry 7). -/
def Obligations.EveryWellFormedCommandCompletes : Prop :=
  (∀ (i : Instr) (s : State), i.wf = true →
      (s.fusing = .kr16 → ∃ t, exec i s = .next t) ∧ (s.fusing = .kr16x8 → (∃ t, exec i s = .next t) ∨ exec i s = .fault .noSuchPart)) ∧
  (∀ (i : Instr) (s : State) (r : Refusal), exec i s ≠ .refused r)

/-- While LZ_RST_N is 0 no command but the two of the reset pin changes anything. -/
def Obligations.ResetHoldsTheBlock : Prop :=
  ∀ (i : Instr) (s : State), s.inReset = true → i ≠ .resetAssert → i ≠ .resetDeassert → exec i s = .next s

/-- No command changes the fuses or the queue, and only the two of the reset pin change LZ_RST_N. Of the others only FRAME_EDGE changes
LZ_FRAME_COUNT (R13), and only FRAME_EDGE and TEMP_READING, which stands at an edge by the model's choice (log entry 10), write the ring of the
event log, whose entries enter it at the edge (R540, log entry 35). -/
def Obligations.CommandsKeepFusesQueueAndResetPin : Prop :=
  ∀ (i : Instr) (s t : State), exec i s = .next t →
    t.fusing = s.fusing ∧ t.pending = s.pending ∧ (i ≠ .resetAssert → i ≠ .resetDeassert → t.inReset = s.inReset ∧
      ((∀ l, i ≠ .frameEdge l) → t.frame = s.frame ∧ ((∀ k a b, i ≠ .tempReading k a b) → t.ring = s.ring)))

/-- What R485 says of the outputs in reset holds after every step from a state in which it holds. -/
def Obligations.EveryStepKeepsTheResetPins : Prop :=
  ∀ s t : State, s.ResetPins → step s = .next t → t.ResetPins

/-- The state right after reset: every register reads its value of R566, no message is on its way, every agent is DOWN, start-up has not
begun, the outputs are as R485 says, and the register table is canonical. The fusing, the arrays and the input pins are the model's choice
(log entries 1, 3, 5). -/
def Obligations.ResetState : Prop :=
  State.reset.ResetPins ∧ State.reset.RegsWf ∧ State.reset.inReset = true ∧ State.reset.frame = 0 ∧ State.reset.pending = [] ∧
  (∀ o, State.reset.reg o = resetWord .kr16 o) ∧ (∀ a, a < 24 → State.reset.agSt a = agDown) ∧ (∀ k, State.reset.sl k = {}) ∧
  State.reset.phase = 1 ∧ State.reset.net = [] ∧ State.reset.inbound = [] ∧ State.reset.ring = {} ∧ State.reset.logUsed ≤ 4096

/-! The register file. -/

/-- What is stored in a register or in a field of one reads back, everything else in the register file stays, and the table keeps its
canonical form. -/
def Obligations.StoredRegistersAndFieldsReadBack : Prop :=
  (∀ (s : State) (o : Nat) (v : Reg), (s.setReg o v).reg o = v ∧ (∀ p, p ≠ o → (s.setReg o v).reg p = s.reg p) ∧
      (s.RegsWf → (s.setReg o v).RegsWf)) ∧
  (∀ (s : State) (o lo w v : Nat), lo + w ≤ 64 →
      (s.setFld o lo w v).fld o lo w = v % 2 ^ w ∧
      (∀ b, b < lo ∨ lo + w ≤ b → (s.setFld o lo w v).flag o b = s.flag o b) ∧ (∀ p, p ≠ o → (s.setFld o lo w v).reg p = s.reg p))

/-! Filter entries (R200 to R207) and set indices (R201). -/

/-- A line's record reads back as it was written, and the records of the other lines and the tag are unchanged. -/
def Obligations.RecordReadsBack : Prop :=
  ∀ (e : Entry) (j : Nat) (st : LineState), j < 4 → st.Legal →
    decodeRec (setRec e j st) j = .good (.found st) ∧ (∀ i, i < 4 → i ≠ j → decodeRec (setRec e j st) i = decodeRec e i) ∧
    eTag (setRec e j st) = eTag e ∧ tagOk (setRec e j st) = tagOk e

/-- Every single error in the 33 stored bits of a record is corrected. -/
def Obligations.RecordCorrectsOneError : Prop :=
  ∀ (e : Entry) (j : Nat) (st : LineState) (b : Nat), j < 4 → st.Legal → 32 + 33 * j ≤ b → b < 65 + 33 * j →
    decodeRec (setRec e j st ^^^ (1 <<< b)) j = .fixed (.found st)

/-- Every double error in the 33 stored bits of a record is detected. -/
def Obligations.RecordDetectsTwoErrors : Prop :=
  ∀ (e : Entry) (j : Nat) (st : LineState) (b c : Nat), j < 4 → st.Legal → 32 + 33 * j ≤ b → b < c → c < 65 + 33 * j →
    decodeRec (setRec e j st ^^^ (1 <<< b) ^^^ (1 <<< c)) j = .bad

/-- The set indices of R201: each is in its tier, its low six bits are PA[13:8], and with the tag it rebuilds the sector address. -/
def Obligations.SectorIsRebuiltFromItsSet : Prop :=
  ∀ x : SectorAddr,
    setD x < 4096 ∧ setE x < 16384 ∧ setD x % 64 = x.toNat % 64 ∧ setE x % 64 = x.toNat % 64 ∧
    sectorFrom (tagOf x) (setD x) = x ∧ sectorFrom (tagOf x) (setE x) = x

/-- The tree pseudo-LRU chooses a candidate, not the way just touched (R222); the word of exact LRU holds any order of the ways (R223). -/
def Obligations.ReplacementVictims : Prop :=
  ((∀ (x : BitVec 64) (c : List Nat), c ≠ [] → (∀ w ∈ c, w < 16) → plruVictim x c 4 0 0 ∈ c) ∧
    (∀ (x : BitVec 64) (w : Nat), w < 16 → plruVictim (plruTouch x w true) (List.range 16) 4 0 0 ≠ w)) ∧
  ((∀ l : List Nat, l.Perm (List.range 16) → lruOrder (lruWord l) = l) ∧ lruOrder 0 = List.range 16)

/-! Wire formats (R64, R74, R117, R72). -/

/-- PAR[q] makes the XOR of flit bits [32q+31:32q] and PAR[q] equal 0, so one wrong bit of a flit is seen; every flit that the block sends
carries it, and a message with a flit that does not fails check 1. -/
def Obligations.FlitParity : Prop :=
  (∀ (f : Flit) (q : Nat), q < 4 → xor (xorBits (bits f (32 * q) 32) 32) ((parOf f).getLsbD q) = false) ∧
  (∀ (f : Flit) (b : Nat), b < 128 → parOf (f ^^^ (1 <<< b)) ≠ parOf f) ∧
  (∀ (m : Msg) (p : Flit × Par), p ∈ m.encode → p.2 = parOf p.1) ∧
  (∀ (s : State) (a : Arrival) (p : Flit × Par), p ∈ a.flits → p.2 ≠ parOf p.1 → s.ingress a = 1)

/-- The fields of a completion, a line snoop and a memory request read back from the header that carries them. -/
def Obligations.SentHeadersCarryTheirFields : Prop :=
  (∀ c : Cmp, c.dest < 1024 → c.htid < 1024 → c.hslice < 16 → c.delay < 16 →
    let h := (Msg.cmp c).header
    hOp h = c.op.code ∧ h.getLsbD 6 = c.poison ∧ h.getLsbD 7 = c.ack ∧ (bits h 8 10).toNat = c.dest ∧ bits h 18 10 = c.rtid ∧
      mHtid h = c.htid ∧ mHslice h = c.hslice ∧ mEpoch h = c.tepoch ∧ bits h 44 2 = c.gstate ∧ bits h 46 3 = c.status ∧
      (bits h 49 4).toNat = c.delay) ∧
  (∀ (k : Snoop) (re : Bool) (a t h : Nat) (ep : BitVec 2) (l : WireAddr), k = .inv ∨ k = .down ∨ k = .back → a < 32 → t < 1024 → h < 16 →
    let m := (Msg.snoop k re a t h ep l 0 0 0).header
    hOp m = k.code ∧ m.getLsbD 7 = re ∧ hAgent m = a ∧ rHtid m = t ∧ rHslice m = h ∧ rEpoch m = ep ∧ rAddr m = l) ∧
  (∀ (op : MemOp) (c t h : Nat) (ep : BitVec 2) (l : WireAddr) (p : Bool) (d : Line), c < 4 → t < 1024 → h < 16 →
    let m := (Msg.mem op c t h ep l p d).header
    hOp m = op.code ∧ m.getLsbD 6 = p ∧ (bits m 34 2).toNat = c ∧ bits m 36 46 = l ∧ (bits m 88 10).toNat = t ∧
      (bits m 98 4).toNat = h ∧ bits m 102 2 = ep)

/-! Values that rules compute. -/

/-- The Evgan budget for a reading, as the table of R235 gives it. -/
def Obligations.BudgetTable : Prop :=
  (∀ t : Int, -64 ≤ t → t ≤ 95 → budgetFor (BitVec.ofInt 8 t) = 128) ∧
  (∀ t : Int, 95 ≤ t → t ≤ 106 → (budgetFor (BitVec.ofInt 8 t) : Int) = 32 + 96 * (106 - t) / 11) ∧
  (∀ t : Int, 106 ≤ t → t ≤ 127 → budgetFor (BitVec.ofInt 8 t) = 32)

/-- The revision and the capabilities that the block chooses for an offer. -/
def Obligations.RevisionChoice : Prop :=
  ∀ h : Header,
    let lo := (bits h 16 4).toNat
    let hi := (bits h 20 4).toNat
    (lo ≤ 3 ∧ 3 ≤ hi → chooseRev h = 3 ∧ grantCaps h = bits h 24 3) ∧
    (¬ (lo ≤ 3 ∧ 3 ≤ hi) → lo ≤ 2 ∧ 2 ≤ hi → chooseRev h = 2 ∧ grantCaps h = 0) ∧
    (¬ (lo ≤ 3 ∧ 3 ≤ hi) → ¬ (lo ≤ 2 ∧ 2 ≤ hi) → chooseRev h = 0 ∧ grantCaps h = 0)

/-- Values are compared modulo 2^32: one is before another by 1 to 2^31 - 1, never both ways, and never before itself. -/
def Obligations.FinishTimesAreOrdered : Prop :=
  (∀ a d : Nat, a < 2 ^ 32 → d < 2 ^ 32 → (before32 a ((a + d) % 2 ^ 32) = true ↔ 1 ≤ d ∧ d ≤ 2 ^ 31 - 1)) ∧
  (∀ a b : Nat, a < 2 ^ 32 → b < 2 ^ 32 → ¬ (before32 a b = true ∧ before32 b a = true)) ∧ (∀ a : Nat, before32 a a = false)

/-- The new value of an atomic on a field of 32 or 64 bits, for every ATOP. -/
def Obligations.AtomicResults : Prop :=
  ∀ (w : Nat) (v o x : BitVec 64), w = 32 ∨ w = 64 →
    let m := v.setWidth w
    let p := o.setWidth w
    (aluOp 0 w v o x).toNat = (m.toNat + p.toNat) % 2 ^ w ∧
    aluOp 1 w v o x = (m &&& p).setWidth 64 ∧ aluOp 2 w v o x = (m ||| p).setWidth 64 ∧ aluOp 3 w v o x = (m ^^^ p).setWidth 64 ∧
    aluOp 4 w v o x = p.setWidth 64 ∧
    aluOp 5 w v o x = (if m = p then x.setWidth w else m).setWidth 64 ∧
    ((aluOp 6 w v o x).setWidth w).toInt = min m.toInt p.toInt ∧ ((aluOp 7 w v o x).setWidth w).toInt = max m.toInt p.toInt ∧
    (aluOp 8 w v o x).toNat = min m.toNat p.toNat ∧ (aluOp 9 w v o x).toNat = max m.toNat p.toNat

/-- The meter's color and charge: buckets untouched without METER_EN or when red, P alone when yellow, both when green; no bucket goes
below -2^23. -/
def Obligations.MeterColorsAndCharges : Prop :=
  (∀ (s : State) (e t k : Nat),
    (s.meterEn t = false → s.colorReq e t k = (.green, s)) ∧
    (s.meterEn t = true → s.pBucket e t ≤ 0 → s.colorReq e t k = (.red, s)) ∧
    (s.meterEn t = true → 0 < s.pBucket e t → s.cBucket e t ≤ 0 →
      (s.colorReq e t k).1 = .yellow ∧ (s.colorReq e t k).2.cBucket e t = s.cBucket e t ∧
      (s.colorReq e t k).2.pBucket e t = max (s.pBucket e t - k) (-(2 ^ 23))) ∧
    (s.meterEn t = true → 0 < s.pBucket e t → 0 < s.cBucket e t →
      (s.colorReq e t k).1 = .green ∧ (s.colorReq e t k).2.cBucket e t = max (s.cBucket e t - k) (-(2 ^ 23)) ∧
      (s.colorReq e t k).2.pBucket e t = max (s.pBucket e t - k) (-(2 ^ 23)))) ∧
  (∀ (s : State) (e t u k : Nat), u ≠ t → (s.colorReq e t k).2.cBucket e u = s.cBucket e u ∧ (s.colorReq e t k).2.pBucket e u = s.pBucket e u)

/-- The C0 allowance of a request of class 0b00. -/
def Obligations.AllowanceOfAC0Request : Prop :=
  ∀ (s : State) (e t : Nat),
    (s.c0Slots = 0 → (s.allowance e t 0 false).1 = 1 ∧ (s.allowance e t 0 false).2.c0Credit e t = s.c0Credit e t ∧
      (s.allowance e t 0 false).2.fld (oSl e 0x18) 0 24 = min (s.fld (oSl e 0x18) 0 24 + 1) (2 ^ 24 - 1)) ∧
    (s.c0Slots ≠ 0 → 64 ≤ s.c0Credit e t → (s.allowance e t 0 false).1 = 0 ∧
      (s.allowance e t 0 false).2.c0Credit e t = s.c0Credit e t - 64 ∧ (s.allowance e t 0 false).2.regs = s.regs) ∧
    (s.c0Slots ≠ 0 → s.c0Credit e t < 64 → (s.allowance e t 0 false).1 = 1 ∧
      (s.allowance e t 0 false).2.c0Credit e t = s.c0Credit e t ∧
      (s.allowance e t 0 false).2.fld (oSl e 0x18) 0 24 = min (s.fld (oSl e 0x18) 0 24 + 1) (2 ^ 24 - 1))

/-! Events, the log and configuration. -/

/-- Raising a source sets its pending bit, whatever its routing. -/
def Obligations.RaisingSetsThePendingBit : Prop :=
  (∀ (s : State) (j code : Nat) (d : BitVec 64), j < 128 → (s.raise j code d).flag (oEvtPend (j / 64)) (j % 64) = true) ∧
  (∀ (s : State) (k i code : Nat) (d : BitVec 64), i < 72 →
    (s.raiseSl k i code d).flag (oSl k (if i < 64 then 0xA8 else 0xB0)) (i % 64) = true)

/-- The ring of the event log never holds more than 4,096 unread entries: every step keeps that, the entries that an edge writes and the
writes of RD among what it does, and so does bringing one entry or a pair to the ring in either MODE. -/
def Obligations.LogRingNeverOverflows : Prop :=
  (∀ s t : State, s.logUsed ≤ 4096 → step s = .next t → t.logUsed ≤ 4096) ∧
  (∀ (s : State) (es : List (BitVec 128)), es.length = 1 ∨ es.length = 2 → s.logUsed ≤ 4096 → (s.logPut es).logUsed ≤ 4096)

/-- At the edge a W1C bit written 1 clears unless the block set it in the frame that ends, and the RW fields that a write covers hold
its value; every other bit and register stays. -/
def Obligations.EdgeWritesClearAndReplace : Prop :=
  (∀ (s : State) (w : RegAccess) (b : Nat), b < 64 →
      (s.putW1c w).flag w.slot b =
        (s.flag w.slot b && !((w1cMask w.slot).getLsbD b && w.starts b && tget 0 s.marks (64 * w.slot + b) == 0)) ∧
      (∀ o, o ≠ w.slot → (s.putW1c w).reg o = s.reg o)) ∧
  (∀ (s : State) (w : RegAccess) (b : Nat), b < 64 →
      (s.putRw w).flag w.slot b = (if (rwMask w.slot).getLsbD b && w.mask.getLsbD b then w.value.getLsbD b else s.flag w.slot b) ∧
      (∀ o, o ≠ w.slot → (s.putRw w).reg o = s.reg o))

/-- A COMMIT is refused for more than 4,096 writes, for a conflict, or by the checks of R260, in this order (log entry 28); a refused COMMIT
changes no register that configuration may write and no slice. An accepted one sets RESULT to 1, counts as one more applied (the model's own
counter), and puts every shadowed RWL field in force but those in the window of a failed slice or a lost pair (R565); every other RWL field
keeps its value. -/
def Obligations.CommitIsRefusedWholeOrApplied : Prop :=
  ∀ (s : State) (i : Nat) (v : CfgView),
    let r := if 4096 < v.writes then 4 else if (s.conflict v).isSome then 5 else if (s.shadowed v).r260 then 1 else 6
    ((s.commit i v).view i).result = r ∧
    (r ≠ 1 → (∀ o, rwlMask o ≠ 0 → (s.commit i v).reg o = s.reg o) ∧ (s.commit i v).slices = s.slices ∧
      (s.commit i v).commits = s.commits ∧ (s.commit i v).committed = s.committed) ∧
    (r = 1 → (s.commit i v).commits = s.commits + 1 ∧
      (∀ e ∈ v.shadow, (v.shadow.map Prod.fst).Nodup → (∀ k p, sliceOff e.1 = some (k, p) → s.sliceFailed k = false ∧ s.pairLost k = false) →
        ∀ b, e.2.1.getLsbD b = true → (rwlMask e.1).getLsbD b = true → (s.commit i v).flag e.1 b = e.2.2.getLsbD b) ∧
      (∀ o b, (rwlMask o).getLsbD b = true → (∀ e ∈ v.shadow, e.1 = o → e.2.1.getLsbD b = false ∧ e.2.2.getLsbD b = false) →
        (s.commit i v).flag o b = s.flag o b))

/-! Reset and start-up. -/

/-- The two commands of the reset pin (R13, R485, R487): the fuses, the queue, the count of free values and the levels on the input pins
stay (the model's choice, log entry 12), everything else returns to reset, and with the release frame 0 begins. -/
def Obligations.ResetPinCommands : Prop :=
  (∀ s : State, exec .resetAssert s = .next { State.reset with
    fusing := s.fusing, pending := s.pending, freeCount := s.freeCount, hpRetireReq := s.hpRetireReq, pmSleepReq := s.pmSleepReq }) ∧
  (∀ s : State, s.inReset = true → exec .resetDeassert s = .next { s with inReset := false, frame := 0 }) ∧
  (∀ s : State, s.inReset = false → exec .resetDeassert s = .next s)

/-- What the reads of start-up leave: the wait of R498, the two headers (R503, R504), the copy (R505, R506) and the cistern (R552); and the load
edge (R492), at which the flags, the masks, the routes, TUNING and CONTRACTS of the accepted copy are in force (R502), a section that the
copy lacks leaves its registers alone, and no other register changes. -/
def Obligations.StartUpReads : Prop :=
  (∀ s : State, s.inReset = false → s.phase = 1 → 4160 ≤ s.frame →
    exec .flashResetWaitEnd s = .next { s with boot := { s.boot with waited := true } }) ∧
  (∀ (s : State) (h : List Byte), s.inReset = false → s.phase = 1 → s.boot.waited = true → s.boot.hdrA = none →
    exec (.imageHeaderReadDone false h) s =
      .next ({ s with boot := { s.boot with hdrA := some h } }.setFld oBoot 8 4 (headerReject s.fusing h))) ∧
  (∀ (s : State) (a h : List Byte), s.inReset = false → s.phase = 1 → s.boot.waited = true → s.boot.hdrA = some a →
    ∃ t, exec (.imageHeaderReadDone true h) s = .next t ∧ t.boot.hdrB = some h ∧ t.boot.toTry = tryOrder s.fusing a h ∧
      t.fld oBoot 12 4 = headerReject s.fusing h % 16 ∧
      (tryOrder s.fusing a h ≠ [] → t.phase = 2) ∧
      (tryOrder s.fusing a h = [] → t.phase = 15 ∧ t.flag oBoot 5 = true ∧ t.fld oBoot 16 5 = 0x10)) ∧
  (∀ (s : State) (b : List Byte) (c : Bool) (rest : List Bool), s.inReset = false → s.phase = 2 → s.boot.toTry = c :: rest →
    let f := ((if c then s.boot.hdrB else s.boot.hdrA).getD []) ++ b.drop 64
    ∃ t, exec (.imageCopyReadDone b) s = .next t ∧
      (copyReject s.fusing f = 0 → t.boot.accepted = some f ∧ t.boot.toTry = [] ∧ t.phase = 2 ∧ t.flag oBoot 6 = c) ∧
      (copyReject s.fusing f ≠ 0 → t.boot.toTry = rest ∧ t.boot.tried = s.boot.tried + 1 ∧ t.boot.accepted = s.boot.accepted ∧
        (rest ≠ [] → t.phase = 2) ∧ (rest = [] → t.phase = 15 ∧ t.flag oBoot 5 = true ∧ t.fld oBoot 16 5 = 0x10))) ∧
  (∀ (s : State) (l : List SlotImage), s.inReset = false → s.phase = 3 →
    ∃ t, exec (.cisternReadDone l) s = .next t ∧ t.phase = 4 ∧
      (restorable l.length (l.filter fun x => slotCandidate x.bytes) = none → t = s.setPhase 4) ∧
      (∀ x, restorable l.length (l.filter fun x => slotCandidate x.bytes) = some x →
        t.cistern.newest = some x.slot ∧ t.cistern.seq = BitVec.ofNat 32 (fieldAt x.bytes 8 4))) ∧
  (∀ (s : State) (b : List Byte), s.boot.accepted = some b → s.phase = 2 →
    let t := s.loadEdge
    let sec (k : Nat) : List Byte := (sectionBytes b k).getD []
    let flags := fieldAt (sec 1) 0 1
    let tuning : List (Nat × Nat × Nat × Nat) :=
      [(0, oHome, 0, 6), (0, oHome, 8, 8), (1, oProgress, 0, 12), (1, oProgress, 16, 6), (2, oSlot, 0, 4), (3, oWeir, 0, 8), (3, oWeir, 8, 8),
       (3, oWeir, 16, 8), (3, oWeir, 24, 4), (4, oWaylock, 0, 16), (4, oWaylock, 16, 16), (5, oEvgan, 0, 8), (6, oIowr, 0, 4), (7, oAgentCtl, 0, 4)]
    t.phase = 3 ∧ t.boot.accepted = none ∧ t.boot.loadAt = some s.frame ∧ t.boot.memWait = max 1 (fieldAt (sec 1) 2 2) ∧
    t.boot.fills = fillEntries b ∧
    t.flag oFilter 0 = flags.testBit 0 ∧ t.flag oFilter 1 = flags.testBit 1 ∧ t.flag oFlip 2 = flags.testBit 2 ∧
    t.flag oTakeover 8 = flags.testBit 3 ∧
    (∀ i, i < 4 → t.fld (oMask i) 0 40 = wordAt (sec 2) 8 i % 2 ^ 40) ∧
    (∀ i, i < 16 → t.reg (oRoute i) = BitVec.ofNat 64 (wordAt (sec 3) 8 i)) ∧
    (∀ p ∈ tuning, t.fld p.2.1 p.2.2.1 p.2.2.2 = match sectionBytes b 4 with
      | some z => wordAt z 4 p.1 / 2 ^ p.2.2.1 % 2 ^ p.2.2.2
      | none => s.fld p.2.1 p.2.2.1 p.2.2.2) ∧
    (∀ a, a < 24 → ∀ f ∈ [(0, 6), (8, 12)], t.fld (oAg a 8) f.1 f.2 = match sectionBytes b 5 with
      | some z => wordAt z 4 a / 2 ^ f.1 % 2 ^ f.2
      | none => s.fld (oAg a 8) f.1 f.2) ∧
    (∀ k, k < s.nSlices → t.fld (oSl k 0x48) 0 8 = s.fld (oSl k 0x48) 0 8 ∧ t.fld (oSl k 0x48) 8 8 =
      let cap := min 128 (max 32 (t.fld oEvgan 0 8))
      if t.evganPresent then min (budgetFor (bits (s.reg (oSl k 0x48)) 0 8)) cap else cap) ∧
    (∀ o, o ∉ [oBoot, oFilter, oFlip, oTakeover] → (∀ i, i < 4 → o ≠ oMask i) → (∀ i, i < 16 → o ≠ oRoute i) → (∀ p ∈ tuning, o ≠ p.2.1) →
      (∀ a, a < 24 → o ≠ oAg a 8) → (∀ k, k < s.nSlices → o ≠ oSl k 0x48) → t.reg o = s.reg o))

/-- Start-up stops with the code of what failed (R514): PHASE becomes 0xF and FAIL is set; BLOCK_FAIL follows FAIL at the edge. The probe of the
Evgan tier (R507), MEM_WAIT (R493) and a fill write (R512) fail it at the end of the frame in which their timer expires, after what arrives in
that frame (R14); the loss of EVCLK (R569) and a reading (R494) at once. That a reading of 110 °C or more changes no other block register then, so
that it raises no event 35 (R575), and in which frame each of these fails start-up, is the model's reading (log entry 24). -/
def Obligations.StartUpFailures : Prop :=
  ∀ s : State, s.inReset = false → s.phase ≠ 8 → s.phase ≠ 15 →
    let failed (t : State) (code : Nat) : Prop :=
      t.phase = 15 ∧ t.flag oBoot 5 = true ∧ t.fld oBoot 16 5 = code ∧ (∀ p, p ≠ oBoot → p < 0x100000 → t.reg p = s.reg p)
    let expires (i : Instr) (x : Lapse) (code : Nat) : Prop := exec i s = .next (s.lapseAt x) ∧ failed (s.lapse x) code
    (∀ k f, k < s.nSlices → s.boot.loadAt = some f → s.evganPresent = true → f + 64 ≤ s.frame → expires (.evganProbeTimeout k) .probe 0x11) ∧
    (∀ f, s.boot.loadAt = some f → 3 ≤ s.phase → s.phase ≤ 6 → f + 1024 * s.boot.memWait ≤ s.frame → s.portsUp = false →
      expires .memWaitExpiry .memWait 0x14) ∧
    (∀ p, p < 12 → s.phase = 7 → ((s.fillEngine p).waiting.any fun w => w.2.2 + 65536 ≤ s.frame) = true →
      expires (.fillWriteTimeout p) (.fill p) 0x15) ∧
    (∀ x, s.lapsed = [x] → s.lapseAll = State.lapse { s with lapsed := [] } x) ∧
    (s.evganPresent = true → s.ready = false → ∃ t, exec .evclkLoss s = .next t ∧ failed t 0x11) ∧
    (∀ k f a b t, k < s.nSlices → s.ready = false → s.boot.loadAt = some f → (s.frame - f) % 1024 = 0 → readingOf a b = some t → 110 ≤ t →
      ∃ u, exec (.tempReading k a b) s = .next u ∧ failed u 0x16)

/-- The ends of the phases (R491, R493, R508, R510, R513): a lost pair fails start-up with code 0x12 before a router does with 0x13 (the model's
reading, log entry 25), and BLOCK_READY rises with a command that stands right after its edge (the model's choice, log entry 10). And what a
fill engine sends, at most 24 times in a frame: a failed write again, or the next line with a free tag (R511, R512). -/
def Obligations.PhasesEndAndFillsAreSent : Prop :=
  ((∀ (s : State) (l : List SelfFail), s.inReset = false → s.phase = 4 →
      (l.all fun f => match selfSlice f with | some h => h < s.nSlices | none => true) = true →
      ∃ t, exec (.selftestDone l) s = .next t ∧
        (t.fld oTakeover 16 8 ≠ 0 → t.phase = 15 ∧ t.fld oBoot 16 5 = 0x12) ∧
        (t.fld oTakeover 16 8 = 0 → (∃ r, SelfFail.router r ∈ l) → t.phase = 15 ∧ t.fld oBoot 16 5 = 0x13) ∧
        (t.fld oTakeover 16 8 = 0 → (¬ ∃ r, SelfFail.router r ∈ l) → t.phase = 5)) ∧
    (∀ s : State, s.inReset = false → s.phase = 5 →
      ∃ t, exec .arrayFillDone s = .next t ∧ t.phase = (if s.portsUp then 7 else 6) ∧
        ∀ k, k < s.nSlices → (t.sl k).ondie = [] ∧ (t.sl k).evgan = [] ∧ (t.sl k).stage = [] ∧ (t.sl k).replOn = [] ∧ (t.sl k).journal = []) ∧
    (∀ (s : State) (p : Nat), s.inReset = false → p < 12 →
      ∃ t, exec (.memoryPortUp p) s = .next t ∧ t.flag oFill (40 + p) = true ∧
        t.phase = (if s.phase = 6 ∧ (s.setFlag oFill (40 + p) true).portsUp = true then 7 else s.phase)) ∧
    (∀ s : State, s.inReset = false → s.phase = 7 → s.boot.zeroAt < s.frame → s.usedPorts.all s.fillDone = true →
      ∃ t, exec .blockReady s = .next t ∧ t.ready = true ∧ t.phase = 8 ∧ t.flag oBoot 4 = true)) ∧
  (∀ (s : State) (p : Nat), s.inReset = false → p < 12 → s.phase = 7 →
      let e := s.fillEngine p
      let n := if e.offered.1 = s.frame then e.offered.2 else 0
      let again := e.resend.find? fun w => w.2.2 < s.frame
      let tag := (List.range 256).find? fun t => !(e.waiting.any fun w => w.1 == t)
      (24 ≤ n → exec (.fillWriteSend p) s = .next s) ∧
      (n < 24 → ∀ w, again = some w →
        ∃ t, exec (.fillWriteSend p) s = .next t ∧ t.out = s.out ++ [⟨s.frame, .mem p, fillMsg w.1 w.2.1⟩] ∧ t.regs = s.regs ∧
          (t.fillEngine p).resend = e.resend.erase w ∧ (t.fillEngine p).offered = (s.frame, n + 1)) ∧
      (n < 24 → again = none → ∀ r l i, s.fillNext p = some (r, l) → tag = some i →
        ∃ t, exec (.fillWriteSend p) s = .next t ∧ t.out = s.out ++ [⟨s.frame, .mem p, fillMsg i l⟩] ∧ t.regs = s.regs ∧
          (t.fillEngine p).waiting = e.waiting ++ [(i, l, s.frame)] ∧ (t.fillEngine p).pos = l + 1 ∧
          (t.fillEngine p).offered = (s.frame, n + 1)) ∧
      (n < 24 → again = none → s.fillNext p = none ∨ tag = none → exec (.fillWriteSend p) s = .next s))

/-! Links, pins and agents. -/

/-- Link reports of an agent (R87, R430 to R433): no message leaves, and no register but AG_CAPS and AG_STATE of the agent changes; that of an
I/O agent brings its hub's link up (the model's reading, log entry 20). A retrain pauses the port's link for the frame, of an I/O agent's hub on
both lanes, and does nothing else (R172, R473; the model's choice, log entry 37). -/
def Obligations.LinkReports : Prop :=
  ∀ (s : State) (a : Nat), s.inReset = false → a < 24 →
    (∃ t, exec (.linkUp a) s = .next t ∧ t.flag (oAg a 0) 0 = true ∧ t.agSt a = (if s.agSt a = agDown then agAwait else s.agSt a) ∧
      (16 ≤ a → t.hubUp.getLsbD (hubOf a) = true) ∧
      t.out = s.out ∧ t.slices = s.slices ∧ (∀ o, o ≠ oAg a 0 → o ≠ oAg a 0x18 → t.reg o = s.reg o)) ∧
    (∃ t, exec (.linkDown a) s = .next t ∧ t.flag (oAg a 0) 0 = false ∧ t.agSt a = (if s.agSt a = agAwait then agDown else s.agSt a) ∧
      (s.sluice a = true → 3 ∈ (t.ag a).lossDue) ∧ t.out = s.out ∧ t.slices = s.slices ∧
      (∀ o, o ≠ oAg a 0 → o ≠ oAg a 0x18 → t.reg o = s.reg o)) ∧
    (∃ t, exec (.linkRetrainPause a) s = .next t ∧ 8 * (Port.agent a).place.1 + (Port.agent a).place.2 ∈ t.routers.paused ∧
      (16 ≤ a → 8 * (Port.nc (hubOf a)).place.1 + (Port.nc (hubOf a)).place.2 ∈ t.routers.paused) ∧
      t = { s with routers := { s.routers with paused := t.routers.paused } })

/-- The pins that the block samples and what each notes for the edge (R345, R431, R443, R450), the grants that it drives once the port's
egress and bridge have sent every message for the agent (R441, R450), and what the edge makes of a retirement (R450). That a pin's row notes
what the edge tests, RETIRE_SLUICE_CLOSE with none of R450's conditions among them, is the model's reading (log entries 22, 35). -/
def Obligations.PinsAreSampledAndDriven : Prop :=
  ((∀ (s : State) (p : Nat), s.inReset = false → p < 12 →
      ∃ t, exec (.memoryPortDown p) s = .next t ∧ t.flag oFill (40 + p) = false ∧ (∀ o, o ≠ oFill → t.reg o = s.reg o) ∧ t.slices = s.slices ∧
        (s.ready = true → s.memFailed.getLsbD p = false → p ∈ t.memDownDue) ∧ t.memFailed = s.memFailed) ∧
    (∀ (s : State) (a : Nat), s.inReset = false → 16 ≤ a → a < 24 →
      (∃ t, exec (.hpSurprise a) s = .next t ∧ t.hpSurprise.getLsbD (a - 16) = true ∧ (s.sluice a = true → 4 ∈ (t.ag a).lossDue) ∧ t.regs = s.regs) ∧
      (∃ t, exec (.hpRetireReq a) s = .next t ∧ t.hpRetireReq.getLsbD (a - 16) = true ∧
        (s.ready = true → s.agSt a = agService → t.agSt a = agRetiring) ∧ (∀ o, o ≠ oAg a 0x18 → t.reg o = s.reg o)) ∧
      exec (.hpRetireCancel a) s =
        .next ({ s with hpRetireReq := setBits s.hpRetireReq (a - 16) 1 0 }.updAg a fun g => { g with permitDue := false }) ∧
      exec (.hpPermitFall a) s = .next ({ s with hpRetireReq := setBits s.hpRetireReq (a - 16) 1 0 }.updAg a fun g =>
        { g with fallDue := true, permitDue := false })) ∧
    (∀ (s : State) (a : Nat), s.inReset = false → a < 16 →
      exec (.pmSleepReqFall a) s =
        .next ({ s with pmSleepReq := setBits s.pmSleepReq a 1 0 }.updAg a fun g => { g with fallDue := true }))) ∧
  ((∀ (s : State) (a f : Nat), s.inReset = false → a < 16 → (s.ag a).sleepGo = some f → f < s.frame → s.agSt a = agSleeping →
      s.egress a = false → s.pmSleepReq.getLsbD a = true →
      exec (.sleepGrantRise a) s = .next ({ s with pmGrant := setBits s.pmGrant a 1 1 }.updAg a fun g => { g with sleepGo := none })) ∧
    (∀ (s : State) (a : Nat), s.inReset = false → 16 ≤ a → a < 24 → s.agSt a = agRetired → (s.ag a).retire = .closed →
      s.hpRetireReq.getLsbD (a - 16) = true → s.egress a = false →
      exec (.hpPermitRise a) s =
        .next ({ s with hpPermit := setBits s.hpPermit (a - 16) 1 1 }.updAg a fun g => { g with retire := .none, permitDue := false })) ∧
    (∀ (s : State) (a : Nat), s.inReset = false → 16 ≤ a → a < 24 → s.agSt a = agRetiring → (s.ag a).retire = .drain →
      (s.ag a).intakeClosed = true → s.holdsReq a (fun r => !r.evict) = false →
      exec (.retireRequestsDrained a) s = .next (s.held ((s.updAg a fun g => { g with retire := .walk }).startWalk a))) ∧
    (∀ (s : State) (a : Nat), s.inReset = false → 16 ≤ a → a < 24 → s.agSt a = agRetiring → (s.ag a).retire = .walk ∨ (s.ag a).retire = .evictions →
      exec (.retireSluiceClose a) s = .next (s.updAg a fun g => { g with retire := .closed })) ∧
    (∀ (s : State) (a : Nat), s.inService = true → 16 ≤ a → a < 24 →
      (s.agSt a = agService → s.hpRetireReq.getLsbD (a - 16) = true → (s.retireEdge a).agSt a = agRetiring ∧ ((s.retireEdge a).ag a).retire = .drain) ∧
      (s.agSt a = agRetiring → s.hpRetireReq.getLsbD (a - 16) = false → (s.retireEdge a).agSt a = agService ∧
        ((s.retireEdge a).ag a).intakeClosed = false) ∧
      (s.agSt a = agRetiring → s.hpRetireReq.getLsbD (a - 16) = true → (s.ag a).retire = .drain → ((s.retireEdge a).ag a).intakeClosed = true) ∧
      (s.agSt a = agRetiring → s.hpRetireReq.getLsbD (a - 16) = true → (s.ag a).retire = .closed →
        (s.retireEdge a).agSt a = (if s.mayRetire a then agRetired else agRetiring))))

/-- Offers, sleep and loss. An offer of an agent in AWAIT is answered (R112 to R116), in the same step by the model's choice (log entry 13).
The decision on an `AgentSleep` at the end of frame D (R440): granted, the agent enters SLEEPING and its `CmpGo` goes on in frame D + 3 (R441);
refused, its `Retry` leaves in frame D + 1 (R442). The declaration of a loss (R453, R454); in the frame after it the agent's requests that have
not issued go, but for evictions (R455), what runs goes on without its requester (R456), and an `AckGo` that it owes is synthesized (R171).
Loss handling completes with its event, and the agent enters AWAIT or DOWN by its link (R459). -/
def Obligations.OffersSleepAndLosses : Prop :=
  (∀ (s : State) (m : Arrival),
      let h := headOf m.flits
      let a := hAgent h
      s.inReset = false → s.ready = true → m.lane < 24 → hOp h = 0x2F → s.ingress m = 0 → a < 24 → s.agSt a = agAwait →
      ∃ t, exec (.capOffer m) s = .next t ∧
        t.out = s.out ++ [⟨s.frame, .agent a, .capAccept a (chooseRev h) (grantCaps h) s.offerMasks s.nBits⟩] ∧ t.slices = s.slices ∧
        (chooseRev h ≠ 0 → t.agSt a = agService ∧ t.flag (oAg a 0) 1 = true ∧ t.fld (oAg a 0) 4 4 = chooseRev h ∧
          t.fld (oAg a 0) 8 3 = (grantCaps h).toNat) ∧
        (chooseRev h = 0 → t.agSt a = agAwait ∧ t.flag (oEvtPend 0) 21 = true)) ∧
  (∀ (s : State) (h t : Nat) (levels : BitVec 16),
      let x := s.txn h t
      let a := x.req.src
      let u := s.sleepDecide h t levels
      x.cmpSent = false → s.tagOpen h t = true → a < 24 → x.reqLost = false → s.agSt a ≠ agLost →
      (x.granted = none → s.maySleep h t a levels = true → u.agSt a = agSleeping ∧ (u.txn h t).granted = some true ∧
        u.fld (oAg a 0x20) 0 16 = min (s.fld (oAg a 0x20) 0 16 + 1) (2 ^ 16 - 1) ∧ ⟨s.frame + 3, h, t, .act⟩ ∈ u.agenda ∧ u.out = s.out) ∧
      (x.granted = none → s.maySleep h t a levels = false → u.agSt a = s.agSt a ∧ (u.txn h t).granted = some false ∧
        ⟨s.frame + 1, h, t, .act⟩ ∈ u.agenda ∧ u.out = s.out) ∧
      (x.granted = some false → u.agSt a = s.agSt a ∧ (u.txn h t).cmpSent = true ∧ ⟨s.frame, h, t, .release⟩ ∈ u.agenda ∧
        u.fld (oAg a 0x20) 16 15 = min (s.fld (oAg a 0x20) 16 15 + 1) (2 ^ 15 - 1) ∧
        u.out = s.out ++ [⟨s.frame, .agent a, retryMsg x.req h (s.epoch h t) 3 (s.fld oAgentCtl 0 4)⟩]) ∧
      (x.granted = some true → u = (s.updAg a fun g => { g with sleepGo := some s.frame }).complete h t 0 false)) ∧
  (∀ (s : State) (a c : Nat), a < 24 → c < 8 →
      let t := s.declareLost a c
      t.agSt a = agLost ∧ t.sluice a = false ∧ t.fld (oAg a 0x18) 4 3 = c ∧ t.flag (oAg a 0) 1 = false ∧ t.out = s.out ∧ t.slices = s.slices ∧
      (c ≠ 6 → t.flag (oEvtPend 0) 30 = true ∧ t.fld (oAg a 0x18) 8 8 = min (s.fld (oAg a 0x18) 8 8 + 1) (2 ^ 8 - 1)) ∧
      (c = 6 → t.flag (oEvtPend 0) 30 = s.flag (oEvtPend 0) 30 ∧ t.fld (oAg a 0x18) 8 8 = s.fld (oAg a 0x18) 8 8) ∧
      (t.ag a).sweepIn = (if s.absent a then [] else s.liveSlices)) ∧
  ((∀ (s : State) (h a : Nat) (q : QReq), q ∈ ((s.dropUnissued h a).sl h).unissued ↔
      q ∈ (s.sl h).unissued ∧ (q.req.ofAgent a = true → q.req.evict = true)) ∧
    (∀ (s : State) (h a t : Nat),
      let x := s.txn h t
      x.home = none → x.req.ofAgent a = true → x.req.evict = false → x.st ≠ .free → x.st ≠ .waiting → x.cmpSent = false →
      let y := (s.ownLost h a t).txn h t
      y.reqLost = true ∧ y.memData = none ∧ y.dirties = x.dirties ∧ (x.st = .alu ∨ x.st = .gather → y.st = .memory) ∧
      ∀ m ∈ y.mems, m.op = .rd → m.discard = true) ∧
    (∀ (s : State) (h t : Nat) (w : Wait), w.kind = .ackGo →
      let u := s.synthesize h t w
      (u.txn h t).st = .holding ∧ (u.txn h t).waits = (s.txn h t).waits.erase w ∧ ⟨s.frame, h, t, .release⟩ ∈ u.agenda)) ∧
  (∀ (s : State) (a : Nat), s.inReset = false → a < 24 → s.lossOver a = true → (s.ag a).offer = none →
      ∃ t, exec (.lossDone a) s = .next t ∧ t.flag (oEvtPend 0) 31 = true ∧ t.agSt a = (if s.flag (oAg a 0) 0 then agAwait else agDown) ∧
        t.out = s.out ∧ t.slices = s.slices ∧ (t.ag a).retire = .none)

/-! Time. -/

/-- A reading of a slice sets TEMP and the budget (R8, R234, R235, R574), and the loss of EVCLK in service fails every slice with CAUSE 0x5
at the next edge (R569). The command stands right after its edge, the model's choice (log entry 10). -/
def Obligations.TemperatureAndEvclk : Prop :=
  (∀ (s : State) (k f : Nat) (a b : Option Int), s.inReset = false → k < s.nSlices → s.boot.loadAt = some f → (s.frame - f) % 1024 = 0 →
      let o := oSl k 0x48
      let cap := min 128 (max 32 (s.fld oEvgan 0 8))
      (readingOf a b = none → ∃ t, exec (.tempReading k a b) s = .next t ∧ t.fld o 0 8 = 0x80 ∧
        t.fld o 8 8 = (if s.evganPresent then 32 else cap) ∧ (∀ p, p ≠ o → t.reg p = s.reg p) ∧ t.out = s.out) ∧
      (∀ c, readingOf a b = some c → c < 110 → ∃ t, exec (.tempReading k a b) s = .next t ∧ t.fld o 0 8 = (BitVec.ofInt 8 c).toNat ∧
        t.fld o 8 8 = (if s.evganPresent then min (budgetFor (BitVec.ofInt 8 c)) cap else cap) ∧
        (∀ p, p ≠ o → t.reg p = s.reg p) ∧ t.out = s.out) ∧
      (∀ c, readingOf a b = some c → 110 ≤ c → s.ready = true → ∃ t, exec (.tempReading k a b) s = .next t ∧ k ∈ t.hotSlices)) ∧
  (∀ s : State, s.inReset = false → s.ready = true → s.evganPresent = true →
      ∃ t, exec .evclkLoss s = .next t ∧ t.regs = s.regs ∧ t.slices = s.slices ∧
        (∀ k, k < s.nSlices → (k, 5) ∈ t.failDue) ∧ (∀ k c, (k, c) ∈ t.failDue → c = 5))

/-- FRAME_EDGE completes, and what it does. It ends the frame: in service what is still to be sampled, the network's frame, the frame's work up to
the decision on sleep, the timers after it, the releases, the ends of walks and moves (R14, R161, R250, R440), then the timers of the ports and
of start-up (R14); the order within is log entries 9, 11. The edge follows in the order of R251: expiries counted and losses declared,
retirements and pins, the served writes and COMMITs in their order, the map epoch, failed ports and slices; the entries of the log enter the
ring before a write of RD or MODE (R540, R563; log entry 35); the vectors and BLOCK_FAIL follow the registers (R489, R537). The next frame
begins: the counter advances by 1 (R13), no slot is used (R254), no served write waits; that HP_SURPRISE has to be reported again in it is the
model's reading (log entry 22). -/
def Obligations.FrameEdgeBeginsTheNextFrame : Prop :=
  (∀ (s : State) (l : BitVec 16), s.inReset = false →
    let c := (s.frameEnd l).edgeChanges l s.edgeQ
    let u := c.2.2.edgeLog s.ring s.edgeQ
    exec (.frameEdge l) s = .next (s.begun { u.pinsOut.frameStart c.1 c.2.1 with ring := u.ring } l) ∧
    ∃ t, exec (.frameEdge l) s = .next t ∧ t.frame = s.frame + 1 ∧ t.edgeQ = [] ∧ t.pmSleepReq = l ∧ t.hpSurprise = 0 ∧ t.inReset = false ∧
      t.fusing = s.fusing ∧ t.ring = u.ring ∧ (∀ e, (t.sl e).slots = 0)) ∧
  ((∀ (s : State) (l : BitVec 16),
      let u := s.lateRefill
      let v := (if u.inService then u.serviceEnd l else u).lapseAll
      let w := foldSt (List.range v.nSlices) State.engineEnd v
      s.frameEnd l = foldSt w.liveSlices State.sendAgainRecs (foldSt w.pmc.wraps State.wrapEvent w)) ∧
    (∀ (s : State) (l : BitVec 16),
      let a := foldSt (List.range s.nSlices) (fun s k => s.sampleRest k s.net.length) s
      let b := foldSt (List.range 4) State.hubEdge (foldSt a.liveSlices State.noteAlu a)
      let c := (b.runAgenda l 0 (3 * b.agenda.length + 64)).fabric.expireAll
      let d := c.runAgenda l 2 (3 * c.agenda.length + 64)
      s.serviceEnd l = (foldSt d.liveSlices State.sliceEnd d).initCheck.drainEdge) ∧
    (∀ (s : State) (x : Lapse) (rest : List Lapse), s.lapsed = x :: rest →
      s.lapseAll = rest.foldl State.lapse (State.lapse { s with lapsed := [] } x))) ∧
  ((∀ (s : State) (l : BitVec 16) (q : List EdgeOp),
      let a := foldSt (List.range 24) State.consecEdge s
      let b := foldSt ((List.range 8).map fun i => 16 + i) State.retireEdge a.lossEdge.2
      let c := ((((b.pinEdge l).cycleEdge).applyEdge q).mapSwitch).portEdge
      s.edgeChanges l q = (a.lossEdge.1, c.failDue, c.failEdge)) ∧
    (∀ (s : State) (q : List EdgeOp) (x : EdgeOp),
      let after (u : State) : State := match x with | .write w => u.applyWrite w | .commit i v => u.commit i v
      s.applyEdge (q ++ [x]) = (if x.toLog then s.applyEdge q else after (s.applyEdge q)) ∧
      s.applyLog (q ++ [x]) = (if x.toLog then after (s.applyLog q) else s.applyLog q) ∧
      (∀ w, x = .write w → (x.toLog = true ↔ w.slot = oLogPtr ∨ w.slot = oLogCtl)) ∧ (∀ i v, x = .commit i v → x.toLog = false)) ∧
    (∀ (s : State) (r : LogRing) (q : List EdgeOp), s.edgeLog r q = (State.logFlush { s with ring := r }).applyLog q) ∧
    (∀ (s : State) (w : RegAccess), s.unnamed w = false →
      (s.seeding w).regs = s.regs ∧ (s.seeding w).slices = s.slices ∧
      (s.deadWindow w = false → s.applyWrite w = ((((s.seeding w).putRw w).putW1c w).putClear w).putWo w) ∧
      (s.deadWindow w = true → s.applyWrite w = ((s.seeding w).putW1c w).putClear w)) ∧
    (∀ (s : State) (f k : Nat), s.routers.mapDue = [(f, k)] → f ≠ k → f < 16 → k < 16 →
      s.mapSwitch.phys f = k ∧ (∀ g, g < 16 → g ≠ f → s.mapSwitch.phys g = s.phys g) ∧ s.mapSwitch.routers.mapDue = [] ∧
      s.mapSwitch.fld oNetStatus 32 8 = (s.fld oNetStatus 32 8 + 1) % 256 ∧ s.mapSwitch.flag oNetStatus f = true) ∧
    (∀ (s : State) (f c : Nat), s.failDue = [(f, c)] → f < 16 → c < 16 → s.sliceFailed f = false → s.pairLost f = false →
      s.failEdge.sliceFailed f = true ∧ s.failEdge.fld (oSl f 0x90) 2 4 = c ∧ s.failEdge.failDue = [] ∧
      (s.sliceFailed (buddy f) = false → s.journalUnfit f = false →
        s.failEdge.role (buddy f) = 2 ∧ (s.failEdge.sl f).tk.active = true ∧ (s.failEdge.sl f).tk.frame0 = s.frame + 1 ∧
        s.failEdge.pairLost f = false) ∧
      (s.sliceFailed (buddy f) = true ∨ s.journalUnfit f = true → s.failEdge.pairLost f = true ∧ s.failEdge.flag (oEvtPend 0) 29 = true)) ∧
    (∀ s : State, s.pinsOut.failPin = s.flag oBoot 5 ∧ s.pinsOut.regs = s.regs ∧
      ∀ v, v < 8 → s.pinsOut.vectors.getLsbD v = s.pendingBytes.any fun b => (bits b 2 3).toNat == v))

/-- The clocks that stand at an edge: the refill of the meters (R276, R280), of every tenant whose METER_EN no COMMIT cleared (the model's
reading, log entry 34), and the merges of the frame after it; the leak (R372); the second (R553, R563), whose calendar a write of the same edge
replaces; the checkpoint (R547), on powered time (the model's reading, log entry 31). Each command stands right after its edge, and reads see it
as they would at the edge: the model's choice (log entry 10). -/
def Obligations.TimersAtAnEdge : Prop :=
  (∀ s : State, s.inReset = false → s.frame % 64 = 0 → s.refillAt < s.frame →
    exec .meterRefill s = .next (s.held (foldSt (s.edgeDo (State.weirEdge · true)).weirs State.mergeAll (s.edgeDo (State.weirEdge · true)))) ∧
    (s.weirEdge true).refillAt = s.frame ∧ (s.weirEdge true).recolorDue = []) ∧
  (∀ (s : State) (e t : Nat), s.meterOff.getLsbD t = false →
    (s.refill e t).cBucket e t = min (s.cBucket e t + (s.meter t).1) (s.meter t).2.2.1 ∧
    (s.refill e t).pBucket e t = min (s.pBucket e t + (s.meter t).2.1) (s.meter t).2.2.2 ∧
    (∀ u, u ≠ t → (s.refill e t).cBucket e u = s.cBucket e u ∧ (s.refill e t).pBucket e u = s.pBucket e u)) ∧
  (∀ s : State, s.inReset = false → s.frame % s.leakPeriod = 0 → s.leakAt < s.frame →
    ∃ t, exec .leakEdge s = .next t ∧ t.leakAt = s.frame ∧ (∀ k, k < s.nSlices → (t.sl k).ucSets = [] ∧ (t.sl k).jrecErrs = []) ∧
      (∀ k b, k < s.nSlices → b < 16 → t.fld (oSl k (0x200 + 8 * b)) 0 8 = s.fld (oSl k (0x200 + 8 * b)) 0 8 - 1)) ∧
  (∀ s : State, s.inReset = false → s.frame % framesPerSecond = 0 → s.secondAt < s.frame →
    let tick (r : Reg) : Reg := if r.getLsbD 63 then setBits r 0 63 (bits r 0 63 + 1) else r
    ∃ t, exec .secondTick s = .next t ∧ t.reg oPowered = s.reg oPowered + 1 ∧ t.secondAt = s.frame ∧
      t.fld oHot 0 32 = (if s.hotNow then (s.fld oHot 0 32 + 1) % 2 ^ 32 else s.fld oHot 0 32) ∧
      (∀ old m, s.cistern.seededAt = some (s.frame, old, m) → t.reg oCalendar = (tick old &&& ~~~m) ||| (s.reg oCalendar &&& m)) ∧
      ((∀ old m, s.cistern.seededAt ≠ some (s.frame, old, m)) → t.reg oCalendar = tick (s.reg oCalendar)) ∧
      (∀ o, o ≠ oPowered → o ≠ oCalendar → o ≠ oHot → t.reg o = s.reg o)) ∧
  (∀ s : State, s.inReset = false → s.ready = true → s.fld oCistern 0 8 ≠ 0 → s.cistern.ckptAt + 60 * s.fld oCistern 0 8 ≤ (s.reg oPowered).toNat →
    ∃ t, exec .checkpointDue s = .next t ∧ NvmItem.checkpoint ∈ t.cistern.due ∧ t.flag oCisternStat 41 = true ∧
      t.cistern.ckptAt = (s.reg oPowered).toNat)

/-- The placement loop (R228 to R232): the window, which closes at the end of its frame and publishes what it counted, the walker, the start of a
move, and its end after the record writes of the frame. That the next visit of the walker is due DECAY frames after the one made is the model's
choice (log entry 44). -/
def Obligations.PlacementLoop : Prop :=
  ∀ (s : State) (h : Nat), s.inReset = false → s.ready = true → h < s.nSlices → s.rangeOpen h = true →
    (s.placing h = true → s.frame % 4096 = 4095 → (s.sl h).windows ≤ s.frame / 4096 →
      let t := s.lapse (.place h)
      exec (.placementWindowClose h) s = .next (s.lapseAt (.place h)) ∧
        (t.sl h).theta = thetaNext (min 100 (s.fld oFilter 8 7)) (s.sl h).hOn (s.sl h).hEv (s.sl h).theta ∧
        (t.sl h).hOn = 0 ∧ (t.sl h).hEv = 0 ∧ (∀ o, o ≠ oSl h 0x38 → t.reg o = s.reg o) ∧
        (s.sliceFailed h = false → t.fld (oSl h 0x38) 0 3 = (t.sl h).theta % 8 ∧ t.fld (oSl h 0x38) 8 17 = (s.sl h).hOn % 2 ^ 17 ∧
          t.fld (oSl h 0x38) 32 17 = (s.sl h).hEv % 2 ^ 17)) ∧
    (s.placing h = true → (s.sl h).decayDue ≤ s.frame → s.placeRoom h 1 = true →
      ∃ t, exec (.decayVisit h) s = .next t ∧ (t.sl h).decaySet = ((s.sl h).decaySet + 1) % 16384 ∧
        (∀ w, w < 16 → (t.sl h).heatAt (16 * s.row h true (s.sl h).decaySet + w) =
          (s.sl h).heatAt (16 * s.row h true (s.sl h).decaySet + w) - 1)) ∧
    (∀ x l, (s.sl h).promote = x :: l → (s.sl h).move = none → s.placing h = true → s.placeRoom h 4 = true →
      exec (.placementMoveStart h) s = .next (s.held (((s.useLate h 4).readRepl h false (s.planMove h x).onSet).updSl h fun sl =>
        { sl with move := some (s.planMove h x) }))) ∧
    (∀ m, (s.sl h).move = some m → m.start + 2 ≤ s.frame → exec (.placementMoveCommit h) s =
      .next (s.updSl h fun sl => { sl with move := some { m with ending := true } })) ∧
    (∀ m, (s.sl h).move = some m → m.ending = true → s.endMove h = s.finishMove h m)

/-- What ends by itself: a streaming run (R319), a watch entry (R310), and a counter (R545): the wrap of LZ_PMC_CYCLES sets OVF at its edge, and
PMC_WRAP raises the event of a wrap. -/
def Obligations.ExpiriesOfTables : Prop :=
  (∀ (s : State) (a : Nat), s.inReset = false → 16 ≤ a → a < 24 → s.streamGap ≤ (s.ag a).idle →
    exec (.streamGapExpiry a) s = .next (s.setFld (oAg a 0x28) 0 8 0)) ∧
  (∀ (s : State) (h p : Nat) (e : Nat × Watch), s.inReset = false → h < s.nSlices → p < 32 →
    ((s.sl h).watch.find? fun e => e.1 == p) = some e → e.2.expiry < s.frame →
    exec (.watchEntryExpiry h p) s = .next (s.updSl h fun sl => { sl with watch := tdel p sl.watch })) ∧
  (∀ (s : State) (n : Nat), s.inReset = false → n < 8 * s.nSlices → n ∈ s.pmc.wraps →
    ∃ t, exec (.pmcWrap n) s = .next t ∧ t.pmc.wraps = s.pmc.wraps.erase n ∧ t.flag (oSl (n / 8) 0xA8) 43 = true) ∧
  (∀ s : State, s.inReset = false → 128 ∈ s.pmc.wraps →
    ∃ t, exec (.pmcWrap 128) s = .next t ∧ t.pmc.wraps = s.pmc.wraps.erase 128 ∧ t.flag (oEvtPend 0) 42 = true) ∧
  (∀ s : State, s.flag oPmcCtl 0 = false →
    let n := s.fld oCycles 0 48 + 32
    let t := s.cycleEdge
    t.fld oCycles 0 48 = n % 2 ^ 48 ∧ (n < 2 ^ 48 → t.flag oCycles 48 = s.flag oCycles 48 ∧ t.pmc.wraps = s.pmc.wraps) ∧
      (2 ^ 48 ≤ n → t.flag oCycles 48 = true ∧ t.pmc.wraps = s.pmc.wraps ++ [128]))

/-! Requests. -/

/-- A request of the eleven rows that no tracker and no writeback store takes is injected toward the slice of its line when its pool has
a credit (R249, R292), from which frame on its residency counts (R294), or, for an address that is not homed, completed by its port (R46 to R48). -/
def Obligations.RequestsEnterTheBlock : Prop :=
  (∀ (s : State) (op : ReqOp) (a : Arrival), op ≠ .wrStream → op ≠ .fence → op ≠ .wbDirty → s.Enters op a →
      let r := parseReq op a s.frame
      let h := s.homeOf r
      let c0 := decide (r.cls = 0)
      s.unhomed r = false → s.PoolFree a.lane h c0 →
      ∃ t, exec (op.row a) s = .next t ∧ t.packets = s.packets + 1 ∧
        t.net = s.net ++ [{ dest := s.phys h, home := h, req := { r with marked := (s.detect r).1, arrival := s.frame }, id := s.packets }] ∧
        t.pool a.lane h c0 = s.pool a.lane h c0 - 1 ∧ t.out = s.out ∧ t.slices = s.slices ∧
        (∀ o, o ≠ oAg r.src 0x28 → t.reg o = s.reg o)) ∧
  (∀ (s : State) (op : ReqOp) (a : Arrival), op ≠ .wrStream → op ≠ .fence → op ≠ .wbDirty → s.Enters op a →
      let r := parseReq op a s.frame
      s.unhomed r = true →
      ∃ t, exec (op.row a) s = .next t ∧ t.out = s.out ++ [⟨s.frame + 1, portOf r.nc r.src, .cmp (unhomedCmp r)⟩] ∧ t.net = s.net ∧
        t.slices = s.slices ∧ t.flag (oEvtPend 0) 20 = true) ∧
  (∀ (s : State) (l : Nat) (c0 : Bool) (n : NetReq) (rest kept : List NetReq),
      (if c0 then 0 < s.laneC0 l n.home else 0 < s.laneGen l n.home) → (kept.any fun m => m.home == n.home) = false →
      let u := (s.addCredit l n.home c0 (-1)).injectReq n
      injectFrom s l c0 (n :: rest) kept = injectFrom u l c0 rest kept ∧
        u.net = s.net ++ [{ n with dest := s.phys n.home, id := s.packets, req := { n.req with arrival := s.frame } }])

/-- A message that fails an ingress check is discarded whole and raises the event of its port (R33, R34). -/
def Obligations.FailedCheckDiscardsTheMessage : Prop :=
  (∀ (s : State) (op : ReqOp) (a : Arrival), s.inReset = false → s.ready = true → a.lane < 24 → hOp (headOf a.flits) = op.code →
    s.laneStopped a.lane = false → s.ingress a ≠ 0 →
    exec (op.row a) s = .next (s.held (s.raisePair (malformedSrc a.lane) (s.ingress a) (headOf a.flits)))) ∧
  (∀ (s : State) (op : RspOp) (a : Arrival), s.inReset = false → s.ready = true → a.lane < 24 → hOp (headOf a.flits) = op.code →
    s.ingress a ≠ 0 → exec (op.row a) s = .next (s.held (s.raisePair (malformedSrc a.lane) (s.ingress a) (headOf a.flits)))) ∧
  (∀ (s : State) (j code : Nat) (f : Flit), j < 128 → (s.raisePair j code f).flag (oEvtPend (j / 64)) (j % 64) = true ∧
    (s.raisePair j code f).slices = s.slices ∧ (s.raisePair j code f).out = s.out ∧ (s.raisePair j code f).net = s.net)

/-- The stream tracker (R327, R332): a `WrStream` that continues its stream is accepted, and a `Fence` of a requester without a stream
is marked clear; each is injected. Posted writes in stream order (R329 to R333): STREAM_READY_REPORT reaches the tracker,
STREAM_RELEASE_NOTICE releases the write and completes it unless a watchdog has aborted it (R335), and FENCE_NOTICE completes a `Fence`,
where their records fit in the frame (R388). -/
def Obligations.StreamsAndFences : Prop :=
  (∀ (s : State) (a : Arrival) (x : Stream), s.Enters .wrStream a →
    let r := parseReq .wrStream a s.frame
    let h := s.homeOf r
    let c0 := decide (r.cls = 0)
    (s.hub (hubOf a.lane)).stream r.src = some x → r.seq = x.next → x.inflight.length < 1024 → s.unhomed r = false → s.PoolFree a.lane h c0 →
    ∃ t, exec (.wrStream a) s = .next t ∧ t.net = s.net ++ [{ dest := s.phys h, home := h, req := { r with arrival := s.frame }, id := s.packets }] ∧
      (t.hub (hubOf a.lane)).stream r.src = some (x.accept r.seq) ∧ t.out = s.out ∧ t.regs = s.regs ∧ t.slices = s.slices) ∧
  (∀ (s : State) (a : Arrival), s.Enters .fence a →
    let r := parseReq .fence a s.frame
    let h := s.homeOf r
    let c0 := decide (r.cls = 0)
    (s.hub (hubOf a.lane)).stream r.src = none → s.PoolFree a.lane h c0 →
    ∃ t, exec (.fence a) s = .next t ∧
      t.net = s.net ++ [{ dest := s.phys h, home := h, req := { r with clear := true, arrival := s.frame }, id := s.packets }] ∧
      t.hubs = s.hubs ∧ t.out = s.out ∧ t.regs = s.regs ∧ t.slices = s.slices) ∧
  (∀ (s : State) (k t : Nat), s.inReset = false → k < s.nSlices → t < 1024 → (s.txn k t).home = none → (s.txn k t).dAt < s.frame →
    ((s.txn k t).st = .orderwait → (s.txn k t).req.op = .wrStream → (s.txn k t).noticed = false →
      exec (.streamReadyReport k t) s = .next (s.held (s.takeReady (hubOf (s.txn k t).req.lane) (s.txn k t).req.src (s.txn k t).req.seq))) ∧
    ((s.txn k t).req.op = .wrStream → (s.txn k t).noticed = true → (s.txn k t).cmpSent = false → s.tagOpen k t = true →
      let v := s.released (hubOf (s.txn k t).req.lane) (s.txn k t).req.src (s.txn k t).req.seq s.frame
      exec (.streamReleaseNotice k t) s = .next (s.held (s.recordedFor k t (v.endWrite k t))) ∧
      (s.fits (s.isC0 k t) (v.endWrite k t) = true → exec (.streamReleaseNotice k t) s = .next (s.held (v.endWrite k t))) ∧
      (∀ u, (s.txn k t).st = .orderwait → (s.txn k t).waitStage = false → (s.txn k t).waitWbuf = false → v.recordDone k t = (true, u) →
        v.endWrite k t = u.complete k t 0 false)) ∧
    ((s.txn k t).st = .orderwait → (s.txn k t).req.op = .fence → (s.txn k t).noticed = true → (s.txn k t).cmpSent = false → s.tagOpen k t = true →
      exec (.fenceNotice k t) s = .next (s.held (s.recordedFor k t (s.complete k t 0 false)))))

/-- A `WbDirty` for a homed line leaves its port toward its slice (R154, R187, R249). The requests that reached a slice in an earlier frame
are sampled in the order of R269, before the frame's slots (R270): the next one is sampled (R268), an absorption only where its records fit in the
frame (R388), or discarded if its agent's sluice has closed, the model's reading (log entry 20), or if it is a `WbDirty` whose agent has
all its entries taken (R190), which the slice tests as it samples, the model's reading (log entry 21); a credit on its way back reaches its lane
(R293). -/
def Obligations.RequestsAreSampled : Prop :=
  (∀ (s : State) (a : Arrival), s.Enters .wbDirty a →
    let r := parseReq .wbDirty a s.frame
    let h := s.homeOf r
    isNcLane a.lane = false → s.unhomed r = false →
    exec (.wbDirty a) s = .next { s with
      net := s.net ++ [{ dest := s.phys h, home := h, req := { r with arrival := s.frame }, id := s.packets }], packets := s.packets + 1 }) ∧
  (∀ (s : State) (k : Nat) (n : NetReq), s.inReset = false → s.ready = true → k < s.nSlices → n.req.lane < 24 →
    s.nextSample k = some n → s.refillDue = false →
    let r : Req := { n.req with flits := [] }
    let u : State := { s with net := s.net.erase n }
    let v := u.sample (s.weirOf n) n.home r
    (n ∈ s.net ∧ s.weirOf n = k ∧ (∃ f, n.reached = some f ∧ f < s.frame) ∧
      ∀ m ∈ s.net, s.weirOf m = k → s.pairLost m.home = false → (∃ f, m.reached = some f ∧ f < s.frame) → n.rank ≤ m.rank) ∧
    (r.nc = true ∨ s.sluice r.src = true →
      (r.op ≠ .wbDirty ∨ u.wbFull n.home r.src = false → u.fits false v = true → exec (.requestSample k r.lane) s = .next (s.held v)) ∧
      (r.op = .wbDirty → u.wbFull n.home r.src = true → exec (.requestSample k r.lane) s = .next (s.held (u.malformed r.lane 7 r.hdr)))) ∧
    (r.nc = false → s.sluice r.src = false → exec (.requestSample k r.lane) s = .next (s.held (u.lateRequest n.home r)))) ∧
  (∀ (s : State) (l k : Nat) (c0 : Bool), s.inReset = false → l < 24 → k < s.nSlices → (l, c0) ∈ (s.sl k).returning →
    (if c0 then (s.lane l).waitC0 else (s.lane l).waitGen) = [] → (s.lane l).blocked = none →
    ∃ t, exec (.laneCreditReturn l k c0) s = .next t ∧ t.pool l k c0 = s.pool l k c0 + 1 ∧ t.net = s.net ∧ t.regs = s.regs ∧
      (t.sl k).returning = (s.sl k).returning.erase (l, c0))

/-! Transactions. -/

/-- What the weir picks for a slot, after the absorptions and merges due (R250, R289, R324), issues in it: SLOT_ISSUE gives a request its tag,
WAITER_RESUME its line to a waiter (R135, R137, R286); REPLAY_ISSUE, HOME_WAITER_RESUME and TAKEOVER_REPLAY serve replays and home waiters (R197,
R408, R411, R588). Each completes, whether or not a later stage finds the header's parity wrong (R342); where the records fit in the frame (R388),
the slot is used and the transaction runs. A request neither of whose stored headers can be read does not issue, and its slice fails (R343): that
such an entry stays for the takeover, and that REPLAYED counts as each replay issues, is the model's reading (log entry 15). -/
def Obligations.SlotsServeTransactions : Prop :=
  (∀ (s : State) (e n : Nat) (b : Bool), s.inReset = false → e < s.nSlices → n < 15 → s.slotFree e n = true →
      let m := s.beforeSlot e
      let v := m.useSlot e n
      (∀ q t w k, m.pick e n = .head q t ∨ m.pick e n = .c0 q t →
        (∀ r p, v.readStore q w = (k, some (r, p)) →
          let u := (k.issueReq e n t q r p).passHeader b q.home t
          exec (.slotIssue ⟨e, b⟩ n w) s = .next (s.held (v.recorded (q.cls == 0) u)) ∧
          (v.fits (q.cls == 0) u = true → ∃ x, exec (.slotIssue ⟨e, b⟩ n w) s = .next x ∧ (x.txn q.home t).issue = s.frame ∧
            (x.txn q.home t).slot = n ∧ (x.txn q.home t).ten = q.ten ∧ (x.txn q.home t).cls = q.cls ∧
            (x.sl e).slots = (s.sl e).slots ||| (1 <<< n))) ∧
        (v.readStore q w = (k, none) → exec (.slotIssue ⟨e, b⟩ n w) s = .next (s.held (k.headerGone e q)) ∧
          (s.sliceFailed q.home = true → k.headerGone e q = k.lostRequest e q) ∧
          (s.sliceFailed q.home = false → ∃ c, (q.home, c) ∈ (k.headerGone e q).failDue))) ∧
      (∀ h t, m.pick e n = .resume h t →
        let x := m.txn h t
        let u := ((((v.count e 2 (some (x.ten, x.cls))).leaveChain h t x.line).upd h t fun x =>
          { x with locked := 1, resumeAt := none }).beginRun h t).passHeader b h t
        exec (.waiterResume ⟨e, b⟩ n) s = .next (s.held (v.recorded (x.cls == 0) u)) ∧
        (v.fits (x.cls == 0) u = true → ∃ y, exec (.waiterResume ⟨e, b⟩ n) s = .next y ∧ (y.txn h t).locked = 1 ∧ (y.txn h t).resumeAt = none ∧
          (y.sl e).slots = (s.sl e).slots ||| (1 <<< n)))) ∧
  ((∀ (s : State) (h t : Nat) (l : List Nat) (b : Bool), s.inReset = false → s.ready = true → h < s.nSlices → (s.sl h).replayQ = t :: l →
      s.rangeOpen h = true → s.selvTurn h (.replay t) = true →
      let v := s.useSelvedge (s.engine h)
      let u := ((v.updSl h fun sl => { sl with replayQ := l }).replay h t).passHeader b h t
      exec (.replayIssue h b) s = .next (s.held (v.recordedFor h t u)) ∧
      (b = false → v.fits (v.isC0 h t) u = true → ∃ y, exec (.replayIssue h b) s = .next y ∧ (y.sl h).replayQ = l)) ∧
    (∀ (s : State) (h t : Nat) (k : HomeKind) (b : Bool), s.inReset = false → h < s.nSlices → t < 1024 → (s.txn h t).home = some k →
      (s.txn h t).homeReady s.frame = true → s.rangeOpen h = true → s.selvTurn h (.waiter t k.rank) = true →
      let v := s.useSelvedge (s.engine h)
      let u := ((((v.leaveChain h t ((s.txn h t).lineAt (s.txn h t).locked)).upd h t
        fun x => { x with st := .home, locked := x.locked + 1, resumeAt := none }).takeLines h t 5).passHeader b h t)
      exec (.homeWaiterResume ⟨h, b⟩ t) s = .next (s.held (v.recorded false u)) ∧
      (v.fits false u = true → ∃ y, exec (.homeWaiterResume ⟨h, b⟩ t) s = .next y ∧ (s.txn h t).locked < (y.txn h t).locked)) ∧
    (∀ (s r : State) (f t n : Nat) (b : Bool), s.inReset = false → s.ready = true → f < s.nSlices →
      let e := s.engine f
      let m := if n = 15 then s else s.beforeSlot e
      (n = 15 ∧ m.oldestReplay e = some (f, t) ∧ s.selvTurn f .takeover = true) ∨
        (n < 15 ∧ m.pick e n = .replay f t ∧ s.slotFree e n = true) →
      ((((if n = 15 then m.useSelvedge e else m.useSlot e n).incFld (oSl e 0x90) 18 11 1).updSl f fun sl =>
        { sl with tk := { sl.tk with replays := sl.tk.replays.filter fun u => u != t } }).replayFrom f t = some r) →
      exec (.takeoverReplay ⟨f, b⟩ n) s = .next (s.held (r.passHeader b f t))))

/-- The selvedge slot starts a transaction on the home's own account over the sector that its engine named (R182, R239, R361, R382,
R447, R458, R531): SPILLWAY_ISSUE, ORPHAN_RECOVERY, MEMINIT_TRANSACTION, SCRUB_RECOVERY, RINV_TRANSACTION, AGENTWALK_TRANSACTION and
LOSS_SWEEP_TRANSACTION complete, whether or not a later stage finds the header's parity wrong (R342), and where the records fit in the frame
(R388) the home tag holds the transaction. That a candidate for which no home tag is free waits for one, and what the event of an orphaned entry
tells of it, is the model's reading (log entry 17). -/
def Obligations.HomeTransactionsStart : Prop :=
  (∀ (s : State) (h t : Nat) (b : Bool), s.inReset = false → s.ready = true → h < s.nSlices → s.rangeOpen h = true → s.homeTag h = some t →
      let v := s.useSelvedge (s.engine h)
      (∀ i l, s.spillNext h = some (i, l) → s.filtered h = true → s.selvTurn h (.spill i) = true →
        let x := lineIn (v.sectorAt h l) 0
        let u := (v.updSl h fun sl => { sl with spillQ := sl.spillQ.filter fun j => j != i }).homeIssue b h (.spill i) x 4 (some l)
        exec (.spillwayIssue ⟨h, b⟩) s = .next (s.held (v.recorded false u)) ∧
        (v.fits false u = true → ∃ y, exec (.spillwayIssue ⟨h, b⟩) s = .next y ∧ s.Started y h t (.spill i) x)) ∧
      (∀ x rest, (s.sl h).initFound = x :: rest → s.selvTurn h (.init x) = true →
        let u := (v.updSl h fun sl => { sl with initFound := rest }).homeIssue b h .meminit (lineIn x 0) 4 none
        exec (.meminitTransaction ⟨h, b⟩) s = .next (s.held (v.recorded false u)) ∧
        (v.fits false u = true → ∃ y, exec (.meminitTransaction ⟨h, b⟩) s = .next y ∧ s.Started y h t .meminit (lineIn x 0)))) ∧
  (∀ (s : State) (h t : Nat) (b : Bool) (l : LineAddr) (rest : List LineAddr), s.inReset = false → s.ready = true → h < s.nSlices →
      let u := s.skipLocked h
      u.rangeOpen h = true → u.homeTag h = some t → (u.sl h).maint.lostAt = l :: rest → u.selvTurn h (.lost l) = true →
      let v := u.useSelvedge (u.engine h)
      let d := v.updSl h fun sl => { sl with maint := { sl.maint with lostAt := rest } }
      let r := (if (u.sl h).maint.running = some .scrub then d.incFld (oSl (u.engine h) 0x80) 32 8 1 else d).homeIssue
        b h (.scrub (lineIdx l)) l 1 none
      exec (.scrubRecovery ⟨h, b⟩) s = .next (s.held (v.recorded false r)) ∧
      (v.fits false r = true →
        ∃ y, exec (.scrubRecovery ⟨h, b⟩) s = .next y ∧ s.Started y h t (.scrub (lineIdx l)) l ∧ (y.sl h).maint.lostAt = rest)) ∧
  (∀ (s : State) (h : Nat) (b start : Bool) (l : Loc) (cs : List SectorAddr), s.inReset = false → s.ready = true → h < s.nSlices →
      s.rangeOpen h = true → s.orphanReady h = true → s.nextOrphan h = some (l, cs, start) → s.selvTurn h (.orphan l) = true →
      let v := s.useSelvedge (s.engine h)
      let u := if start then v.orphanStart h l cs else v.updSl h fun sl => { sl with orphanRest := sl.orphanRest.tail }
      (cs = [] → exec (.orphanRecovery ⟨h, b⟩) s = .next (s.held (u.orphanEnd h l))) ∧
      (∀ c rest, cs = c :: rest → exec (.orphanRecovery ⟨h, b⟩) s =
        .next (s.held (v.recorded false (u.homeIssue b (u.hash (wireOf (lineIn c 0))) (.orphan h rest) (lineIn c 0) 4 (some l)))))) ∧
  (∀ (s : State) (h t : Nat) (b : Bool) (op : MaintOp) (x : SectorAddr), s.inReset = false → h < s.nSlices →
      let u := s.maintTidy h
      u.homeTag h = some t →
      let v := u.useSelvedge (u.engine h)
      let r := (v.updSl h fun sl => { sl with maint := { sl.maint with found := sl.maint.found.erase x } }).homeIssue b h op.kind (lineIn x 0) 4 none
      let starts (i : Instr) : Prop := exec i s = .next (s.held (u.startMaint b h op x)) ∧
        (v.fits false r = true → ∃ y, exec i s = .next y ∧ s.Started y h t op.kind (lineIn x 0))
      (u.startable h MaintOp.isRinv = some (op, x) → starts (.rinvTransaction ⟨h, b⟩)) ∧
      (u.startable h MaintOp.isWalk = some (op, x) → starts (.agentwalkTransaction ⟨h, b⟩)) ∧
      (u.startable h MaintOp.isLoss = some (op, x) → starts (.lossSweepTransaction ⟨h, b⟩)))

/-- A walk reads one set in the selvedge slot: RINV_SET_READ, AGENTWALK_SET_READ, LOSS_SWEEP_SET_READ, SCRUB_SET_READ and RECOUNT_SET_READ
complete (R239, R364, R382, R446, R458), and while sets are left the walk stands behind the one read; DEBUG_READ reads one word (R533). That an
INDEX beyond the array counts modulo its size is the model's choice (log entry 44). -/
def Obligations.SetsAndWordsAreRead : Prop :=
  (∀ (s : State) (h : Nat) (op : MaintOp), s.inReset = false → h < s.nSlices →
      let u := s.maintTidy h
      (u.sl h).maint.running = some op →
      let q := u.nextPos op (u.sl h).maint.pos
      let reads (i : Instr) (f : State → List Loc → State) : Prop := exec i s = .next (s.held (u.readSet h op f)) ∧
        (q < stagePos → ∃ t, exec i s = .next t ∧ (t.sl h).maint.pos = q + 1 ∧ (t.sl h).maint.running = some op)
      (u.readReady h MaintOp.isRinv = true → reads (.rinvSetRead h) (State.findSectors h op)) ∧
      (u.readReady h MaintOp.isWalk = true → reads (.agentwalkSetRead h) (State.findSectors h op)) ∧
      (u.readReady h MaintOp.isLoss = true → reads (.lossSweepSetRead h) (State.findSectors h op)) ∧
      (u.readReady h MaintOp.isScrub = true → reads (.scrubSetRead h) (State.scrubSet h)) ∧
      (u.readReady h MaintOp.isRecount = true → reads (.recountSetRead h) (State.recountSet h))) ∧
  (∀ (s : State) (h : Nat), s.inReset = false → s.ready = true → h < s.nSlices → s.bus.dbgStart = true → s.fld oDbg 0 4 = h →
      s.selvedge (s.engine h) 6 = true → s.evRoom h (if s.fld oDbg 4 2 = 1 then 1 else 0) = true →
      ∃ t w c, exec (.debugRead h) s = .next t ∧ t.bus.dbgStart = false ∧ t.bus.debug = some (h, dbgWords w c, 0) ∧
        (s.fld oDbg 4 2 = 0 → w = (s.wayAt h false (s.fld oDbg 6 14 % 4096) (s.fld oDbg 20 4)).setWidth 256 ∧ c = 0) ∧
        (s.fld oDbg 4 2 = 1 → w = (s.wayAt h true (s.fld oDbg 6 14 % 16384) (s.fld oDbg 20 4)).setWidth 256 ∧ c = 0) ∧
        (s.fld oDbg 4 2 = 2 → w = (s.stageAt h (s.fld oDbg 6 14 % 8)).word.setWidth 256 ∧ c = 0) ∧
        (s.fld oDbg 4 2 = 3 → w = tget 0 (s.sl h).journal (s.fld oDbg 6 14 % 1024)))

/-- The waits at the end of a flow: STAGE_ENTRY_OBTAIN, EVGAN_WRITE_ENTER, EVGAN_WRITE_DRAIN, MERGE_ENTRY_TAKE and GATHER_WINDOW_CLOSE complete,
the first two in a frame after the wait began (R181, R213, R322, R323), the last at the end of the frame (R161); and ALU_EXECUTE executes a
near atomic, or answers a poisoned one (R302 to R304); that a poisoned operand counts as a poisoned line does is the model's reading (log
entry 38). -/
def Obligations.FlowsEnd : Prop :=
  (∀ (s : State) (h t : Nat), s.inReset = false → h < s.nSlices → t < 1024 → s.tagOpen h t = true →
      ((s.txn h t).waitStage = true → (s.txn h t).waitAt < s.frame →
        exec (.stageEntryObtain h t) s = .next (s.held (s.recordedFor h t (s.obtained h t)))) ∧
      ((s.txn h t).waitWbuf = true → (s.txn h t).waitAt < s.frame → (s.txn h t).home = none → s.wbufRoom h (s.txn h t).cls = true →
        exec (.evganWriteEnter h t) s = .next (s.held (s.recordedFor h t (s.obtained h t)))) ∧
      ((s.txn h t).waitWbuf = true → (s.txn h t).waitAt < s.frame → (s.txn h t).home.isSome = true →
        s.wbufRoom (s.homePlace h (s.txn h t)).1 3 = true →
        exec (.evganWriteEnter h t) s = .next (s.held (s.recordedFor h t ((s.homeRecord h t).plan (s.frame + 1) h t .act)))) ∧
      (∀ k e f rest, (s.sl h).wbuf = (k, e, f) :: rest → s.ready = true → f < s.frame → s.drainRoom h = true → s.flag oFlip 0 = false →
        exec (.evganWriteDrain h) s = .next ((s.useLate h 1).updSl h fun sl =>
          { sl with wbuf := rest, evgan := tputD 0 k e sl.evgan })) ∧
      ((s.txn h t).gathers = true → (s.txn h t).locked = 1 → (s.txn h t).st ≠ .free → (s.txn h t).st ≠ .waiting → (s.txn h t).merge = none →
        (s.txn h t).cmpSent = false → (s.txn h t).memDone = false → (s.mergeFree h false).isSome = true →
        let u := (s.takeMerge h t).upd h t fun x => { x with st := if x.probed then x.stNow else .probing }
        let v := if (s.txn h t).probed || u.agenda.any (fun d => d.slice == h && d.tag == t && d.act == .probe) then u
          else u.plan (s.frame + 1) h t .probe
        exec (.mergeEntryTake h t) s = .next (s.held (s.recordedFor h t v)) ∧
        (s.fits (s.isC0 h t) v = true → ∃ y, exec (.mergeEntryTake h t) s = .next y ∧ (y.txn h t).merge = s.mergeFree h false)) ∧
      (∀ f, (s.txn h t).window = some f → f ≤ s.frame → (s.txn h t).winClosed = false → (s.txn h t).st ≠ .free →
        exec (.gatherWindowClose h t) s = .next (s.held (s.expireAt (.window h t))) ∧
        s.expire (.window h t) = (s.upd h t fun x => { x with winClosed := true }).settle h t)) ∧
  (∀ (s u : State) (h t : Nat) (d : Line) (p : Bool), s.inReset = false → h < s.nSlices → t < 1024 → s.aluReady h t = true →
      let v := s.readBuffers h t
      (v.txn h t).memData = some (d, p) → p = true ∨ (v.txn h t).req.poison = true ∨ (v.mergeFree h true).isSome = true →
      v.recordDone h t = (true, u) →
      exec (.aluExecute h t) s = .next (s.held (v.recordedFor h t (if p || (v.txn h t).req.poison
        then ((u.fallDue h (v.txn h t)).incFld (oSl (u.engine h) 0x58) 0 24 1).complete h t 0 true else u.aluRun h t d))))

/-- The work on words of the filter. CORRECTION_WRITEBACK writes back the first corrected word with room (R205), or, with none, one that a scrub has
corrected (R382), and it is to be reread (R367); WORD_REREAD rereads the oldest word, and marks its row if it still errs (R367), which also an
error that the read alone shows does, the model's reading (log entry 17); ROW_REMAP begins the remap of the oldest failed row (R368), or with
no remap word free fails its bank (R370). The spare row is written, corrected, at the end of the frame in which the remap began, or of the
second frame after it in the Evgan tier, and the remap word is then in force: the model's reading (log entry 18). -/
def Obligations.WordsAreCorrectedRereadRemapped : Prop :=
  (∀ (s : State) (h : Nat), s.inReset = false → s.ready = true → h < s.nSlices →
    (∀ f l, ((s.sl h).correct.find? fun c => c.1 < s.frame && s.backRoom h c.2) = some (f, l) →
      exec (.correctionWriteback h) s = .next (s.held (s.writeBack h l))) ∧
    (∀ l, ((s.sl h).correct.find? fun c => c.1 < s.frame && s.backRoom h c.2) = none →
      let u := s.skipLocked h
      ((u.sl h).maint.fixes.find? fun l => !u.placeLocked h l && u.backRoom h l) = some l → u.rangeOpen h = true → u.selvTurn h (.fix l) = true →
      let v := u.useSelvedge (u.engine h)
      exec (.correctionWriteback h) s = .next (s.held (((v.writeBack h l).incFld (oSl (v.engine h) 0x80) 16 16
        (fixedCount (u.entry h l))).maintCheck h))) ∧
    (∀ l rest b, (s.sl h).reread = l :: rest → s.rangeOpen h = true → s.selvTurn h (.reread l) = true →
      s.evRoom h (if l.inEvgan then 1 else 0) = true →
      let w := s.entry h l
      let errs := b = true ∨ anyFixed w = true ∨ anyBad w = true ∨ (isFree w = false ∧ tagOk w = false)
      ∃ t, exec (.wordReread h b) s = .next t ∧ (t.sl h).reread = rest ∧
        (errs → ∀ r, rowOf l = some r → r ∈ (t.sl h).hardRows ∨ ∃ c ∈ (s.sl h).copies, (c.ev, c.set) = r) ∧
        (¬ errs → (t.sl h).hardRows = (s.sl h).hardRows ∧ (t.sl h).correct = (s.sl h).correct ∧ t.failDue = s.failDue ∧
          ∀ k, k < 16 → t.reg (oSl h (0x200 + 8 * k)) = s.reg (oSl h (0x200 + 8 * k)))) ∧
    (∀ ev set rest, (s.sl h).hardRows = (ev, set) :: rest → s.rangeOpen h = true → s.selvTurn h (.remap ev set) = true →
      s.evRoom h (if ev then 1 else 0) = true →
      (∀ k, s.freeRemap h ev = some k →
        ∃ t c, exec (.rowRemap h) s = .next t ∧ (t.sl h).hardRows = rest ∧ (t.sl h).copies = (s.sl h).copies ++ [c] ∧
          c.ev = ev ∧ c.set = set ∧ c.k = k ∧ c.source = 2 ∧ c.start = s.frame) ∧
      (s.freeRemap h ev = none → ∃ t c, exec (.rowRemap h) s = .next t ∧ (t.sl h).hardRows = rest ∧ (h, c) ∈ t.failDue ∧
        (t.sl h).copies = (s.sl h).copies ∧ ((∀ p ∈ s.failDue, p.1 ≠ h) → c = 5)))) ∧
  (∀ (s : State) (h : Nat) (l : Loc), s.flag oFlip 0 = false → (s.writeBack h l).entry h l = fixEntry (s.entry h l) ∧
    ((∃ f, (f, l) ∈ (s.sl h).correct) ∨ l ∈ (s.sl h).maint.fixes → l ∈ ((s.writeBack h l).sl h).reread)) ∧
  (∀ (s : State) (h : Nat) (c : RowCopy), (s.sl h).copies = [c] →
    (s.frame < c.start + (if c.ev then 2 else 0) → s.endCopies h = s) ∧
    (c.start + (if c.ev then 2 else 0) ≤ s.frame → h < 16 → c.k < (if c.ev then 32 else 16) → s.flag oFlip 0 = false →
      let t := s.endCopies h
      let total := if c.ev then 16384 else 4096
      let word (u : State) (i : Nat) : Entry := tget 0 (if c.ev then (u.sl h).evgan else (u.sl h).ondie) i
      (t.sl h).copies = [] ∧
        t.reg (oSl h ((if c.ev then 0x400 else 0x300) + 8 * c.k)) = BitVec.ofNat 64 (c.set * 16 + c.source * 4) ||| 1 ∧
        (∀ w, w < 16 → word t (16 * (total + c.k) + w) = fixEntry (word s (16 * s.row h c.ev c.set + w))) ∧
        t.flag (oSl h 0xA8) 40 = true))

/-! Answers. -/

/-- The six responses, RSP_I, RSP_S, RSP_CROSS, RSP_I_DATA, RSP_REPORT and ACK_GO: one that passes its port is injected toward the slice that
it names (R78, R466), and sampled in the first hclk of a frame after the one in which it has reached it (R249). Sampled, an answer that meets its
wait is taken (R142 to R148): a `RspI` that is not a duplicate, a `RspS`, a `RspCross`, and a `RspIData` with its line; where the records do not fit
in the frame, in the next (R388). One that no live transaction awaits is discarded and counted in STALE of the slice that serves it, and nothing else
happens (R76); one whose sluice has closed meanwhile is discarded at the slice, the model's reading (log entry 20). -/
def Obligations.AnswersMeetTheirWaits : Prop :=
  (∀ (s : State) (op : RspOp) (a : Arrival), s.Answers op a →
    let f := headOf a.flits
    exec (op.row a) s = .next { s with
      inbound := s.inbound ++ [{ dest := s.phys (rHslice f), place := lanePlace a.lane, msg := .response op a, id := s.packets }]
      packets := s.packets + 1 }) ∧
  (∀ (s : State) (n : Inbound), s.late = [] → s.inbound = [n] →
    (∀ f, n.reached = some f → f < s.frame → s.takeFirst = State.sampleAnswer { s with inbound := [] } n.msg) ∧
    ((∀ f, n.reached = some f → s.frame ≤ f) → s.takeFirst = s)) ∧
  (∀ (s : State) (a : Arrival) (h t : Nat) (w : Wait),
    let takes (op : RspOp) (r : State) : Prop := s.sampleAnswer (.response op a) = s.taken h t (.answer (.response op a)) r ∧
      (s.fits (s.isC0 h t) r = true → s.sampleAnswer (.response op a) = r)
    (s.Meets .rspI a h t w → (headOf a.flits).getLsbD 7 = false → takes .rspI (s.answerI h t w)) ∧
    (s.Meets .rspS a h t w → takes .rspS (s.answerS h t w)) ∧
    (s.Meets .rspCross a h t w → takes .rspCross (s.answerCross h t w)) ∧
    (s.Meets .rspIData a h t w → takes .rspIData (s.answerData h t w (lineAt a.flits 0) ((headOf a.flits).getLsbD 6)))) ∧
  (∀ (s : State) (op : RspOp) (a : Arrival),
    let f := headOf a.flits
    (s.sluice (hAgent f) = true → rHslice f < s.nSlices → s.pairLost (rHslice f) = false → s.matches (rHslice f) (rHtid f) (rEpoch f) = false →
      s.sampleAnswer (.response op a) = s.incFld (oSl (s.engine (rHslice f)) 0xB8) 0 24 1) ∧
    (s.sluice (hAgent f) = false → s.sampleAnswer (.response op a) = s.closedLate (rHslice f) (hAgent f) a.lane f))

/-- The `AckGo` of a completion starts the minimum hold (R157) when its slice samples it: HOLDING to the end of frame K + MIN_HOLD, where its
record fits in the frame (R388); at that end the line and the tag are released (R161). -/
def Obligations.AckGoHoldsThenReleases : Prop :=
  (∀ (s : State) (a : Arrival),
    let f := headOf a.flits
    let h := rHslice f
    let t := rHtid f
    s.sluice (hAgent f) = true → s.matches h t (rEpoch f) = true → (s.txn h t).hasLine (rAddr f) = true → (s.txn h t).st = .ackwait →
    s.fits (s.isC0 h t) (s.respond .ackGo a) = true → (s.txn h t).req.src = hAgent f → ((s.txn h t).waits.any fun w => w.kind == .ackGo) = true →
    let u := s.sampleAnswer (.response .ackGo a)
    (u.txn h t).st = .holding ∧ (u.txn h t).waits = [] ∧ (u.txn h t).holdEnd = some (s.frame + s.fld oHome 0 6) ∧
      (u.ag (hAgent f)).took = true ∧ u.out = s.out) ∧
  (∀ (s : State) (h t f : Nat), s.inReset = false → h < s.nSlices → t < 1024 → (s.txn h t).holdEnd = some f → (s.txn h t).st = .holding →
    f ≤ s.frame → s.tagOpen h t = true →
    exec (.holdEnd h t) s = .next (s.plan s.frame h t .release) ∧ ((s.release h t).txn h t).st = .free ∧ (s.release h t).out = s.out)

/-- Answers of memory. At its port one whose header's parity holds is injected toward the slice that it names (R78, R466), another is discarded and
counted (R344). Sampled, one that meets a live transaction is taken (R120, R144, R303): data reaches it, a write is done, and a staged write frees
its merge entry at the end of the frame; data with a bad payload is asked for again, and the second time taken with poison (R344); where the
records do not fit in the frame, in the next (R388). One that nothing awaits, or of a port that has failed (R345), is stale. Which of a tag's
requests an answer meets, and the slice that counts a discarded one, is the model's reading (log entry 19). -/
def Obligations.MemoryAnswers : Prop :=
  ∀ (s : State) (m : MemArrival),
    let f := headOf m.flits
    let h := mHslice f
    let t := mHtid f
    let injected (w : Answer) : State := { s with
      inbound := s.inbound ++ [{ dest := s.phys h, place := (Port.mem m.port).place, msg := w, id := s.packets }], packets := s.packets + 1 }
    let takes (w : Answer) (r : State) : Prop := s.sampleAnswer w = s.taken h t (.answer w) r ∧
      (s.fits (s.isC0 h t) r = true → s.sampleAnswer w = r)
    (s.inReset = false → s.ready = true → m.port < 12 →
      (flitsOk (m.flits.take 1) = true → h < s.nSlices →
        (hOp f = 0x30 → exec (.memData m) s = .next (injected (.memData m))) ∧
        (hOp f = 0x20 → exec (.memCmp m) s = .next (injected (.memCmp m)))) ∧
      (flitsOk (m.flits.take 1) = false → h < s.nSlices → s.pairLost h = false →
        (∀ i, i = .memData m ∨ i = .memCmp m → exec i s = .next (s.incFld (oSl (s.engine h) 0x68) 8 8 1)))) ∧
    (s.memFailed.getLsbD m.port = false →
      (∀ w, s.matches h t (mEpoch f) = true → (s.txn h t).dataWait = some w →
        (flitsOk m.flits = true → takes (.memData m) (s.takeData h t w (lineAt m.flits 0) (f.getLsbD 6) false)) ∧
        (flitsOk m.flits = false → w.again = false → takes (.memData m) ((s.memParity h).againMem h t w)) ∧
        (flitsOk m.flits = false → w.again = true → takes (.memData m) (s.takeData h t w (lineAt m.flits 0) true true))) ∧
      (∀ w, s.matches h t (mEpoch f) = true → ((s.txn h t).mems.find? fun w => w.op == .wr || w.op == .wrPoison) = some w →
        takes (.memCmp m) ((s.upd h t fun x => { x with mems := x.mems.erase w }).goOn h t)) ∧
      (∀ p, h < s.nSlices → s.pairLost h = false → s.matches h t (mEpoch f) = false →
        ((s.sl h).merges.find? fun p => p.2.used && p.2.staged && !p.2.done && p.2.tag == t && p.2.ep == mEpoch f) = some p →
        takes (.memCmp m) (s.stagedDone h p))) ∧
    (h < s.nSlices → s.pairLost h = false →
      let stale : State := s.incFld (oSl (s.engine h) 0xB8) 0 24 1
      (s.matches h t (mEpoch f) = false → s.sampleAnswer (.memData m) = stale) ∧
      (s.memFailed.getLsbD m.port = true → s.sampleAnswer (.memData m) = stale ∧ s.sampleAnswer (.memCmp m) = stale))

/-- The expiries of the waits of R165. Each of the seven rows completes: the timer expires at the end of the frame (R14, R161), unless the answer
that ends the wait has come in time and waits for room for its record (R14, R388), with the wait's next kind, what is planned for the next frame,
and the count toward loss (R107, R166, R167). -/
def Obligations.ExpiriesOfWaits : Prop :=
  (∀ (s : State) (h t a j : Nat) (w : Wait), s.inReset = false → h < s.nSlices → t < 1024 → a < 24 → j < 4 → s.tagOpen h t = true →
      w.due s.frame = true → w.count < 3 →
      let x := s.txn h t
      let again (n : Nat) : Wait := { w with start := s.frame + 1, len := s.snoopContract a, count := n }
      let row (i : Instr) (k : WaitKind) (r : State) : Prop :=
        ((∀ l ∈ s.late, l.ends x h t a j k = false) →
          exec i s = .next (s.held (s.expireAt (.wait h t a j k))) ∧ s.expire (.wait h t a j k) = r) ∧
        ((∃ l ∈ s.late, l.ends x h t a j k = true) → exec i s = .next s ∧ s.expire (.wait h t a j k) = s)
      (x.waitOf .first a j = some w → row (.snoopContractExpiry h t a j) .first
        (((s.upd h t fun x => x.reWait w { again 1 with kind := .resent }).countExpiry a false).plan (s.frame + 1) h t (.resend w.snp a j))) ∧
      (x.waitOf .resent a j = some w → row (.resendExpiry h t a j) .resent
        (((s.upd h t fun x => x.reWait w { again 2 with kind := .final }).countExpiry a false).plan (s.frame + 1) h t (.openFinal a j))) ∧
      (x.waitOf .final a j = some w → row (.finalWaitExpiry h t a j) .final
        ((s.upd h t fun x => x.reWait w { w with count := 3 }).countExpiry a true)) ∧
      (x.req.src = a → j = 0 → x.waitOf .ackGo a 0 = some w → w.count < 2 → row (.ackgoWaitExpiry h t) .ackGo
        (((s.upd h t fun x => x.reWait w (again (w.count + 1))).countExpiry a false).plan (s.frame + 1) h t .reAck)) ∧
      (x.waitOf .wbCross a j = some w → w.count < 2 → row (.wbdirtyWaitExpiry h t a j) .wbCross
        (((s.upd h t fun x => x.reWait w (again (w.count + 1))).countExpiry a false).plan (s.frame + 1) h t (.reCross a j))) ∧
      (x.waitOf .wbRspI a j = some w → row (.crossingWaitExpiry h t a j) .wbRspI
        ((s.upd h t fun x => { x with waits := x.waits.erase w, gone := x.gone ++ [(a, j)] }).goOn h t))) ∧
  ((∀ (s : State) (a : Nat) (b : Bool), (s.countExpiry a b).fld (oAg a 0x10) 8 16 = min (s.fld (oAg a 0x10) 8 16 + 1) (2 ^ 16 - 1) ∧
      ((s.countExpiry a b).ag a).expired = true ∧ (b = true → 7 ∈ ((s.countExpiry a b).ag a).lossDue) ∧
      (s.countExpiry a b).slices = s.slices ∧ (s.countExpiry a b).out = s.out) ∧
    (∀ (s : State) (h a : Nat) (sw : Sweep) (w : Wait), s.inReset = false → h < s.nSlices → a < 24 → (s.sl h).sweep = some sw →
      (s.txn h sw.tag).waitOf .range a 0 = some w → w.due s.frame = true → w.count < 3 → s.tagOpen h sw.tag = true →
      (∀ l ∈ s.late, l.ends (s.txn h sw.tag) h sw.tag a 0 .range = false) → (s.ag a).lossDue.contains 2 = false →
      exec (.flushContractExpiry h a) s = .next (s.held (s.expireAt (.wait h sw.tag a 0 .range))) ∧
      s.expire (.wait h sw.tag a 0 .range) = s.updAg a fun g => { g with lossDue := g.lossDue ++ [2] }) ∧
    (∀ (s : State) (x : Expiry), s.expired = [x] →
      let u : State := { s with expired := [] }
      let fits := u.fits (s.isC0 x.owner.1 x.owner.2) (u.expire x)
      (fits = true → s.expireAll = u.expire x) ∧ (fits = false → x ∈ s.expireAll.expired)))

/-- WATCHDOG_FIRE completes for a watchdog at its limit (R195, R197, R199); it fires at the end of the frame (R161): the first time the
transaction aborts for replay, the second time its slice fails, and a transaction that has completed releases. -/
def Obligations.WatchdogFires : Prop :=
  ∀ (s : State) (h t n : Nat), s.inReset = false → h < s.nSlices → t < 1024 → s.wdCount (s.txn h t) = some n → s.wdLimit ≤ n →
    (s.txn h t).st ≠ .free → (s.txn h t).st ≠ .waiting → (s.txn h t).home ≠ some .sweep → s.tagOpen h t = true →
    let x := s.txn h t
    let o := oSl (s.engine h) 0x10
    let u := (((s.incFld o 0 8 1).noteFld o 8 10 t).noteFld o 18 4 x.st.code).raiseSl (s.engine h) 34 0 (lineDetail x.line x.req.src t)
    (∃ y, exec (.watchdogFire h t) s = .next y ∧ Expiry.watchdog h t ∈ y.expired ∧ y.slices = s.slices ∧ y.regs = s.regs ∧ y.out = s.out) ∧
    s.expire (.watchdog h t) =
      (if x.cmpSent then (u.upd h t fun x => { x with wdStart := none }).plan u.frame h t .release
       else if x.wdFired then u.failSlice (s.engine h) 1 else (u.upd h t fun x => { x with wdFired := true }).abort h t)

/-! Takeover, return and the rebuild sweep. -/

/-- The sequence of a takeover to the opening of its range (R398, R404, R408), with the walker that zeroes the sets of both tiers, and the return
(R428): the tests in a selvedge slot, the map write once every tag of the range is FREE, and the map switch, with which the slice takes its range
and its requests back. That the rebuild sweep of the opened range shows in SWEEP of the buddy's register is the model's reading (log entry 39). -/
def Obligations.TakeoverAndReturn : Prop :=
  (∀ (s : State) (f : Nat), s.inReset = false → f < s.nSlices → s.pairLost f = false →
      let tk := (s.sl f).tk
      (tk.active = true → tk.mapped = false → tk.frame0 + 1 ≤ s.frame →
        exec (.takeoverMapWrite f) s = .next ({ s with routers := { s.routers with mapDue := s.routers.mapDue ++ [(f, buddy f)] } }.updSl f fun sl =>
          { sl with tk := { sl.tk with mapped := true } })) ∧
      (tk.active = true → tk.mapped = true → tk.scanPos < 1024 → tk.frame0 + 2 + tk.scanPos / 4 ≤ s.frame →
        ∃ t, exec (.takeoverScan f) s = .next t ∧ (t.sl f).tk.scanPos = tk.scanPos + 4 ∧
          (tk.scanPos = 0 → (t.sl f).presence = [] ∧ t.flag (oSl f 0x78) 24 = false ∧ ∀ ev set, (t.sl f).unzeroed ev set = true)) ∧
      (tk.zeroPos < 20480 → (4096 ≤ tk.zeroPos → s.evRoom f 1 = true) →
        let ev := decide (4096 ≤ tk.zeroPos)
        let set := if ev then tk.zeroPos - 4096 else tk.zeroPos
        ∃ t, exec (.zeroingWalkStep f) s = .next t ∧ (t.sl f).unzeroed ev set = false ∧
          (t.sl f).tk.zeroPos = (if tk.zeroPos = 4095 ∧ s.evganPresent = false then 20480 else tk.zeroPos + 1) ∧
          (s.flag oFlip 0 = false → (s.sl f).unzeroed ev set = true → ∀ w, w < 16 → t.wayAt f ev set w = 0))) ∧
  (∀ (s : State) (f : Nat), s.inReset = false → f < s.nSlices → (s.sl f).tk.active = true → (s.sl f).tk.opened = false →
      1024 ≤ (s.sl f).tk.scanPos → (s.sl f).tk.frame0 + 258 ≤ s.frame → s.pairLost f = false →
      s.sliceFailed f = true →
      ∃ t, exec (.takeoverOpen f) s = .next t ∧ t.flag (oSl (buddy f) 0x90) 6 = true ∧ t.flag (oEvtPend 0) 26 = true ∧
        (t.sl f).tk.opened = true) ∧
  (∀ (s : State) (f : Nat), s.inReset = false → s.ready = true → f < s.nSlices → (s.sl f).tk.returning = true → s.sliceFailed f = true →
      s.pairLost f = false →
      ((s.sl f).tk.tested = false → s.selvTurn f .selftest = true →
        (∃ t, exec (.returnComplete f true) s = .next t ∧ (t.sl f).tk.tested = true ∧ (t.sl f).tk.returning = true) ∧
        (∃ t, exec (.returnComplete f false) s = .next t ∧ (t.sl f).tk.returning = false ∧ t.flag oTakeover 7 = true ∧
          ((∀ k, k < s.nSlices → k ≠ f → (s.sl k).tk.returning = false) → t.flag oTakeover 6 = false))) ∧
      ((s.sl f).tk.tested = true → (s.sl f).txns = [] → s.routers.mapDue.contains (f, f) = false →
        ∀ b, exec (.returnComplete f b) s = .next { s with routers := { s.routers with mapDue := s.routers.mapDue ++ [(f, f)] } })) ∧
  (∀ (s : State) (f : Nat), s.routers.mapDue = [(f, f)] → f < 16 →
      let t := s.mapSwitch
      t.routers.mapDue = [] ∧ t.phys f = f ∧ t.flag oNetStatus f = false ∧ t.role f = 0 ∧ t.role (buddy f) = 0 ∧ t.flag (oEvtPend 0) 28 = true ∧
        (t.sl f).tk.active = false ∧ (t.sl f).tk.returning = false ∧ (t.sl f).c0q = ((s.sl (buddy f)).c0q.filter fun q => q.home == f) ∧
        (∀ q ∈ (t.sl (buddy f)).c0q ++ (t.sl (buddy f)).queued ++ (t.sl (buddy f)).redHold, q.home ≠ f))

/-- A rebuild sweep: its start (R416), a report, which its slice samples as any answer (R106, R417, R388), its records applied, an agent asked
again (R420), and the end of the sweep with its frame (R421), of a rebuild (R245) or of a takeover. A COUNT above 10 taken as 10 is the model's
choice (log entry 40), and a report put off where its record does not fit in the frame its reading (log entry 16). -/
def Obligations.RebuildSweepTakesReports : Prop :=
  (∀ (s : State) (h t : Nat), s.homeTag h = some t →
      let u := s.sweepStart h
      (u.sl h).sweep = some { tag := t } ∧ (u.sl h).reports = [] ∧ u.flag (oSl (s.engine h) 0x90) 6 = true ∧ (u.txn h t).home = some .sweep ∧
        (∀ a, a < 24 → s.flag (oAg a 0) 1 = true → s.sluice a = true →
          ∃ w ∈ (u.txn h t).waits, w.agent = a ∧ w.kind = .range ∧ w.snp = (if s.snpReport a then .report else .flush) ∧ w.start = s.frame ∧
            w.len = s.flushContract a)) ∧
  (∀ (s : State) (h : Nat) (sw : Sweep), s.inReset = false → h < s.nSlices → s.rangeOpen h = true → (s.sl h).sweep = some sw →
      ((s.sl h).reports ≠ [] → (s.sl h).applied = false →
        exec (.reportApply h) s =
          .next (s.held ((applyReports s h (s.sl h).reports 64).updSl h fun sl => { sl with applied := true }))) ∧
      (∀ a, a < 24 → sw.lastSeen.getLsbD a = true → (s.sl h).reports.length ≤ 128 → s.sluice a = true →
        exec (.reportRepeat h a) s = .next (s.held (((s.updSl h fun sl =>
          { sl with sweep := some { sw with cut := vecClear sw.cut a, lastSeen := vecClear sw.lastSeen a } }).incFld (oSl (s.engine h) 0x98) 48 8 1).rangeSnoop
            h sw.tag a))) ∧
      (s.sweepDone h sw = true →
        exec (.sweepEnd h) s = .next (s.lapseAt (.sweep h)) ∧
        let t := s.lapse (.sweep h)
        (t.sl h).sweep = none ∧ (t.sl h).rebuildOn = false ∧ t.flag (oEvtPend 0) 27 = true ∧
          ((s.sl h).rebuildOn = true → t.flag (oSl h 0x28) 0 = true ∧ t.flag (oSl h 0x28) 1 = false ∧ t.flag (oSl h 0x28) 4 = false) ∧
          ((s.sl h).rebuildOn = false → t.reg (oSl h 0x28) = s.reg (oSl h 0x28)) ∧
          (¬ (s.engine (buddy h) = s.engine h ∧ s.sweeping (buddy h) = true) → t.flag (oSl (s.engine h) 0x90) 6 = false))) ∧
  (∀ (s : State) (a : Arrival) (w : Wait) (sw : Sweep),
      let f := headOf a.flits
      let h := rHslice f
      let t := rHtid f
      s.sluice (hAgent f) = true → s.matches h t (rEpoch f) = true →
      ((s.txn h t).waits.find? fun w => w.agent == hAgent f && w.kind == .range && w.snp == .report) = some w → (s.sl h).sweep = some sw →
      (s.sl h).reports.length < 256 → s.fits (s.isC0 h t) (s.takeReport a) = true →
      let u := s.sampleAnswer (.response .rspReport a)
      u = s.takeReport a ∧ u.out = s.out ∧
        (u.sl h).reports = (s.sl h).reports ++ [(hAgent f, ((List.range (min 10 (bits f 82 4).toNat)).map fun i => reportRecord a.flits i).filter
          fun r => s.inSweep h r)] ∧
        (f.getLsbD 86 = true → (u.txn h t).waits = (s.txn h t).waits.erase w) ∧ (f.getLsbD 86 = false → (u.txn h t).waits = (s.txn h t).waits))

/-! The network, the runnel and the streams. -/

/-- A router's lane changes mode once its buffer is empty (R483); a flit is refused on a link, counted, and sent again 4 hclk later (R339, R340),
which holds back the next flit to cross it, the model's choice (log entry 37); and a record on the runnel is decoded and stored (R385, R390). -/
def Obligations.NetworkAndRunnel : Prop :=
  ((∀ (s : State) (r l n : Nat), s.inReset = false → r < s.nSlices → l < 20 → (tget [] s.routers.changing r).contains l = true →
      s.routers.laneEmpty r l = true →
      (((tget [] s.routers.changing r).filter fun m => m != l) = [] →
        ∃ t, exec (.bypassLaneChange r l n) s = .next t ∧ t.flag oNetStatus (16 + r) = false ∧ t.fld oNetStatus 40 8 = min n 255) ∧
      (((tget [] s.routers.changing r).filter fun m => m != l) ≠ [] →
        ∃ t, exec (.bypassLaneChange r l n) s = .next t ∧ t.regs = s.regs ∧
          tget [] t.routers.changing r = (tget [] s.routers.changing r).filter fun m => m != l)) ∧
    (∀ (s : State) (a b : Nat) (g : Bool), s.inReset = false → a < 24 → b < 24 → linked a b = true →
      ∃ t, exec (.flitHopRetry a b g) s = .next t ∧ t.fld oNetInteg 0 32 = min (s.fld oNetInteg 0 32 + 1) (2 ^ 32 - 1) ∧
        t.routers.refuse = s.routers.refuse ++ [(a, b)] ∧
        (g = true ∧ tget 0 s.routers.refused (32 * a + b) = 7 → t.flag oNetInteg 42 = true ∧ t.fld oNetInteg 32 5 = a ∧
          t.fld oNetInteg 37 5 = b ∧ t.flag (oEvtPend 0) 24 = true ∧ NvmItem.fault ∈ t.cistern.due) ∧
        (¬ (g = true ∧ tget 0 s.routers.refused (32 * a + b) = 7) →
          tget 0 t.routers.refused (32 * a + b) = (if g then tget 0 s.routers.refused (32 * a + b) + 1 else 1) ∧
          (∀ o, o ≠ oNetInteg → t.reg o = s.reg o))) ∧
    (∀ (x : NetStep) (c k o : Nat) (f : NetFlit) (rest : List NetFlit), o < 32 → tget [] x.net.bufs k = f :: rest →
      f.ok = false ∨ x.net.refuse.contains (kRouter k, o) = true →
      ∃ g, tget [] (x.move c (k, o, f)).net.bufs k = g :: rest ∧ g.since = c + 3 ∧ g.flit = f.flit ∧ g.side = f.side ∧
        (∀ j, j ≠ k → tget [] (x.move c (k, o, f)).net.bufs j = tget [] x.net.bufs j) ∧ (x.move c (k, o, f)).net.egress = x.net.egress)) ∧
  (∀ (s : State) (k : Nat) (e : Nat × Nat × Record) (rest : List (Nat × Nat × Record)) (c : Ecc), s.inReset = false → k < s.nSlices →
      (s.sl (buddy k)).runnel = e :: rest → e.1 ≤ s.frame →
      exec (.journalRecordReceive k c) s = .next (s.held ((s.updSl (buddy k) fun sl => { sl with runnel := rest }).takeRecord k e c)) ∧
      (c = .clean → s.flag (oSl k 0x88) 1 = false → s.flag oFlip 0 = false →
        ∃ t, exec (.journalRecordReceive k c) s = .next t ∧ tget 0 (t.sl k).journal e.2.1 = e.2.2))

/-- A change of a line's record moves the presence counts of the agents that it adds and takes away (R127), while the filter is enabled (R244);
and a change of a transaction sends its journal record (R387, R389), one per tag and frame, over the runnel, or into the buddy's store in a range
that is taken over (R402), or nowhere while the store is retired (R391). -/
def Obligations.PresenceCountsAndJournalRecords : Prop :=
  ((∀ (s : State) (k : Nat) (l : Loc) (old new : Agents) (a : Nat), a < 24 → s.flag (oSl k 0x28) 0 = true →
      (s.presenceChange k l old new).presence k a =
        if old.getLsbD a && !new.getLsbD a then s.presence k a - 1 else if new.getLsbD a && !old.getLsbD a then s.presence k a + 1
        else s.presence k a) ∧
    (∀ (s : State) (k j : Nat) (l : Loc) (old st : LineState) (a : Nat), a < 24 → s.flag (oSl k 0x28) 0 = true →
      decodeRec (s.entry k l) j = .good (.found old) →
      (s.writeAt k l j st false).presence k a = (s.presenceChange k l (stVec old) (stVec st)).presence k a) ∧
    (∀ (s : State) (k : Nat) (l : Loc) (old new : Agents) (a : Nat), s.flag (oSl k 0x28) 0 = false → s.flag (oSl k 0x28) 4 = false →
      (s.sl k).sweep = none → (s.presenceChange k l old new).presence k a = s.presence k a)) ∧
  (∀ (s : State) (h t : Nat), s.flag oFlip 0 = false →
    let u := s.jr h t
    let e := (s.frame, t, s.record h t)
    (s.flag (oSl (buddy h) 0x88) 1 = true → u = s) ∧
    (s.flag (oSl (buddy h) 0x88) 1 = false →
      (s.sliceFailed h = false → e ∈ (u.sl h).runnel ∧ (∀ p ∈ (u.sl h).runnel, p.1 = s.frame → p.2.1 = t → p = e) ∧
        (∀ p, ¬ (p.1 = s.frame ∧ p.2.1 = t) → (p ∈ (u.sl h).runnel ↔ p ∈ (s.sl h).runnel)) ∧ (u.sl h).journal = (s.sl h).journal) ∧
      (s.sliceFailed h = true → tget 0 (u.sl (buddy h)).journal t = s.record h t ∧ (u.sl h).runnel = (s.sl h).runnel))) ∧
  (∀ (s : State) (h t : Nat),
    let x := s.txn h t
    let r := s.record h t
    (x.st = .free → rget r 0 1 = 0 ∧ bits r 5 2 = s.epoch h t) ∧
    (x.st ≠ .free → rget r 0 1 = 1 ∧ rget r 1 4 = x.st.code ∧ bits r 5 2 = s.epoch h t ∧ rget r 7 1 = (if x.locked = 0 then 0 else 1) ∧
      rget r 8 1 = (if (s.nextWaiter h t x).isSome then 1 else 0) ∧ rget r 9 10 = (s.nextWaiter h t x).getD 0 % 1024 ∧
      rget r 27 10 = x.req.src % 1024 ∧ bits r 37 10 = x.req.rtid ∧ rget r 47 6 = x.req.tenant % 64 ∧ bits r 53 38 = x.line ∧
      bits r 91 24 = x.pendingVec ∧ bits r 115 24 = x.taken ∧ rget r 139 1 = (if x.absorbed = [] then 0 else 1) ∧
      rget r 140 1 = (if x.dirties = [] then 0 else 1) ∧ rget r 141 2 = x.memCode ∧ rget r 143 1 = (if x.cmpSent then 1 else 0) ∧
      rget r 144 1 = (if x.far then 1 else 0) ∧ rget r 145 1 = (if x.promoted then 1 else 0) ∧ rget r 146 6 = x.passed % 64 ∧
      bits r 152 2 = x.resSt ∧ bits r 154 24 = x.resVec ∧ bits r 178 16 = x.req.seq ∧ rget r 206 16 = x.req.arrival % 65536 ∧
      rget r 222 16 = x.issue % 65536 ∧ rget r 238 4 = x.slot % 16 ∧ rget r 247 1 = (if x.merge.isSome then 1 else 0) ∧
      rget r 242 5 = x.merge.getD 0 % 32 ∧ (x.home = none → rget r 19 2 = x.cls % 4 ∧ bits r 21 6 = x.req.op.code)))

/-! The register port, the bus and the flash. -/

/-- A write that the register port serves at once waits for the edge, one to a slice window for its transfer on the bus (R251, R562). -/
def Obligations.WritesWaitForTheirEdge : Prop :=
  (∀ p ∈ writeRows, ∀ (s : State) (w : RegAccess), p.2 w = true → s.Serves w →
      exec (p.1 w) s = .next { s with edgeQ := s.edgeQ ++ [.write w] }) ∧
  (∀ (s : State) (w : RegAccess) (k p : Nat), s.inReset = false → s.ready = true → w.init < 16 → w.accepted = true → w.read = false →
      s.toSlice w = some k → sliceOff w.slot = some (k, p) →
      let t : State := { s with bus := { s.bus with port := s.bus.port ++ [w] } }
      (p = 0x28 → w.mask.getLsbD 0 = true → w.value.getLsbD 0 = false → exec (.filterDisable w) s = .next t) ∧
      (p = 0x28 → w.mask.getLsbD 0 = true → w.value.getLsbD 0 = true → exec (.filterStaleEnable w) s = .next t) ∧
      (p = 0x28 → w.starts 3 = true → exec (.filterRebuild w) s = .next t) ∧
      (p = 0xA8 ∨ p = 0xB0 → exec (.evtPendClear w) s = .next t) ∧ exec (.registerWrite w) s = .next t)

/-- A read at the register port (R558 to R562, R565): one that R559 does not accept answers 0; one of a slice window waits for its transfer, any
other is served at once when none waits before it; a transfer that times out answers all ones (R527). What it answers is the register as it
stood at the edge that began the frame: its half for a 4-byte read, 0 in the window of a slice that the part has not, the presence counts, and
the frozen registers of a failed slice or a lost pair. That reads come under REGISTER_WRITE and are answered before BLOCK_READY too is the
model's choice (log entry 27). -/
def Obligations.RegisterReads : Prop :=
  (∀ (s : State) (w : RegAccess), s.inReset = false → w.init < 16 → w.read = true →
    let answer (v : Reg) : State := { s with reads := s.reads ++ [⟨s.frame, w.init, w.off, w.size, v⟩] }
    (w.accepted = false → exec (.registerWrite w) s = .next (answer 0)) ∧
    (w.accepted = true → s.toSlice w = none → s.bus.port = [] → exec (.registerWrite w) s = .next (answer (s.asShown.readReg w))) ∧
    (w.accepted = true → (s.toSlice w).isSome = true ∨ s.bus.port ≠ [] →
      exec (.registerWrite w) s = .next { s with bus := { s.bus with port := s.bus.port ++ [w] } }) ∧
    (s.bus.port = [w] →
      (s.portNext true).reads = (answer (s.asShown.readReg w)).reads ∧ (s.portNext false).reads = (answer (w.part (BitVec.allOnes 64))).reads ∧
      (s.portNext true).bus.port = [] ∧ (s.portNext false).bus.port = [])) ∧
  (∀ (s : State) (w : RegAccess),
    (w.accepted = false → s.readReg w = 0) ∧
    (w.accepted = true → w.size = 4 → s.readReg w =
      (let v := s.readReg { w with off := w.slot, size := 8 }; if w.off % 8 = 4 then v >>> 32 else v &&& 0xFFFFFFFF))  ∧
    (w.accepted = true → w.size = 8 →
      (w.off = 8 → s.readReg w = BitVec.ofNat 64 s.frame) ∧
      (w.off = oCfg → s.readReg w = rfield 2 1 (if (s.view w.init).isOpen then 1 else 0) ||| rfield 3 13 (min (s.view w.init).writes 4097) |||
        rfield 16 4 (s.view w.init).result) ∧
      (0x20000 ≤ w.off ∧ w.off < 0x24000 ∨ w.off ∈ [oRinv, oScrub, oFilter, oMeminit, oTakeover, oCalendar, oLogCtl] → s.readReg w = s.reg w.off) ∧
      (w.off = oLogPtr → s.readReg w = rfield 0 13 s.ring.wr.toNat ||| rfield 16 13 s.ring.rd.toNat) ∧
      (∀ i, i < 4096 → (w.off = 0x10000 + 16 * i → s.readReg w = bits (tget 0 s.ring.entries i) 0 64) ∧
        (w.off = 0x10008 + 16 * i → s.readReg w = bits (tget 0 s.ring.entries i) 64 64)) ∧
      (∀ k p, w.off = oSl k p → p < 0x10000 → k < 16 →
        (s.nSlices ≤ k → s.readReg w = 0) ∧
        (k < s.nSlices → (∀ a, a < 24 → p = 0x100 + 8 * a → s.readReg w = BitVec.ofNat 64 (s.presence k a % 2 ^ 21)) ∧
          (s.sliceFailed k = true ∨ s.pairLost k = true → p < 0x100 → s.readReg w = s.reg w.off))))) ∧
  (∀ (s : State) (w : RegAccess) (o i : Nat) (v : Reg) (c : CfgView) (f : Slice → Slice),
    (s.setReg o v).asShown.readReg w = s.asShown.readReg w ∧ (s.updSl i f).asShown.readReg w = s.asShown.readReg w ∧
    (s.setView i c).asShown.readReg w = s.asShown.readReg w ∧ s.showEdge.asShown.readReg w = s.readReg w)

/-- What a write starts at its edge. RINV, SCRUB and AGENTWALK: BUSY, and the operation runs or waits in every selected slice, or DONE when
none is left, or IGNORED (R238, R243, R381, R446; a slice of a lost pair counts as finished, the model's choice, log entry 44). Memory
initialization (R531). ARM (R378). FORCE and RETURN (R427, R429). SNAP (R546). A lifetime record for SAVE and for a write of CALENDAR (R547, R553). OP of
the firmware port, with the address and length of the write (R554, R555; log entry 30). REBUILD (R245; log entry 29). What other writes do there:
ENABLE of a slice's filter (R244, R246), FREEZE (R546), LZ_DRAIN_MASK (R523) and RD of the event log (R542). And which write starts what. -/
def Obligations.StartsAtTheEdge : Prop :=
  (∀ s : State,
    (∀ p ∈ [(oRinv, 17, 18, 19, 22, MaintOp.rinv), (oScrub, 19, 20, 21, 34, MaintOp.scrub)],
      let (o, b, d, i, src, op) := p
      let t := s.startOp o b d i src op
      (s.flag o b = true → t = s.setFlag o i true) ∧
      (s.flag o b = false → s.selected o = [] → t.flag o b = false ∧ t.flag o d = true ∧ t.flag (oEvtPend (src / 64)) src = true) ∧
      (s.flag o b = false → s.selected o ≠ [] → t.flag o b = true ∧
        ∀ k ∈ s.selected o, (t.sl k).maint.running = some op ∨ op ∈ (t.sl k).maint.queue)) ∧
    (let a := s.fld oWalk 0 5;
      (s.flag oWalk 9 = true ∨ 24 ≤ a ∨ s.sluice a = false → s.walkStart = s.setFlag oWalk 11 true) ∧
      (s.flag oWalk 9 = false → a < 24 → s.sluice a = true → s.walkStart.flag oWalk 9 = true ∧
        ∀ h ∈ s.liveSlices, (s.walkStart.sl h).maint.running = some (.agentWalk a) ∨ MaintOp.agentWalk a ∈ (s.walkStart.sl h).maint.queue)) ∧
    (s.flag oMeminit 1 = true → s.initStart = s.setFlag oMeminit 3 true) ∧
    (s.flag oMeminit 1 = false → s.initStart.flag oMeminit 1 = true ∧ ∀ k, k < s.nSlices → (s.initStart.sl k).initPos = some 0) ∧
    (s.flag oFlip 2 = true → flipFits (s.fld oFlip 8 4) (s.fld oFlip 12 2) = true → (s.armFlip true).flag oFlip 0 = true) ∧
    (let f := s.fld oTakeover 0 4;
      (s.flag oTakeover 8 = true → f < s.nSlices → s.sliceFailed (buddy f) = false →
        s.force = s.failSlice f 6 ∧ f ∈ s.force.failDue.map Prod.fst ∧ ((∀ p ∈ s.failDue, p.1 ≠ f) → (f, 6) ∈ s.force.failDue)) ∧
      (s.flag oTakeover 8 = false ∨ s.nSlices ≤ f ∨ s.sliceFailed (buddy f) = true → s.force = s) ∧
      (s.mayReturn f = true → s.returnStart.flag oTakeover 6 = true ∧ (s.returnStart.sl f).tk.returning = true) ∧
      (s.mayReturn f = false → s.returnStart = s.setFlag oTakeover 7 true)) ∧
    (s.bus.sampling = none → s.snap.pmc.latch = s.latched ∧ s.snap.bus.sampling = some 0) ∧
    (∀ n, s.bus.sampling = some n → s.snap = s) ∧
    ((s.itemDue .lifetime).flag oCisternStat 43 = true ∧ NvmItem.lifetime ∈ (s.itemDue .lifetime).cistern.due) ∧
    (∀ op i, 0 < op → op ≤ 4 → s.flag oNvm 3 = false →
      (s.nvmAllowed op = true → let t := s.nvmStart op i
        t.flag oNvm 3 = true ∧ NvmItem.firmware ∈ t.cistern.due ∧ t.cistern.fwOp = op ∧ t.cistern.fwInit = i ∧
        t.cistern.fwAddr = s.fld oNvm 16 32 ∧ t.cistern.fwLen = s.fld oNvm 8 8) ∧
      (s.nvmAllowed op = false → s.nvmStart op i = s.setFld oNvm 5 3 1)) ∧
    (∀ op i, s.flag oNvm 3 = true → s.nvmStart op i = s) ∧
    (∀ k, s.flag (oSl k 0x28) 0 = true ∨ s.flag (oSl k 0x28) 4 = true → s.rebuild k = s) ∧
    (∀ k, s.flag (oSl k 0x28) 0 = false → s.flag (oSl k 0x28) 4 = false → s.flag oFlip 0 = false →
      let t := s.rebuild k
      t.flag (oSl k 0x28) 4 = true ∧ (t.sl k).ondie = [] ∧ (t.sl k).evgan = [] ∧ (t.sl k).wbuf = [] ∧ (t.sl k).stage = [] ∧
        (t.sl k).presence = [] ∧ (t.sl k).rebuildOn = true ∧ (t.sl k).sweepDue = true)) ∧
  (∀ (s b : State) (k : Nat),
    let o := oSl k 0x28
    let t := s.enableChange b k
    (b.flag o 0 = true → s.flag o 0 = false → t.flag o 0 = false ∧ t.flag o 1 = true ∧ (t.sl k).promote = [] ∧ (t.sl k).move = none ∧
      (t.sl k).ondie = (s.sl k).ondie ∧ (t.sl k).evgan = (s.sl k).evgan ∧ (t.sl k).stage = (s.sl k).stage ∧ (t.sl k).txns = (s.sl k).txns) ∧
    (b.flag o 0 = false → s.flag o 0 = true → s.flag o 1 = true → t.flag o 0 = true ∧ t.flag o 1 = true ∧ t.flag o 2 = true ∧
      t.flag (oSl k 0xA8) 36 = true) ∧
    (b.flag o 0 = s.flag o 0 → t = s)) ∧
  (∀ s : State, s.flag oPmcCtl 0 = true → s.cycleEdge = s ∧ ∀ k ev f, s.count k ev f = s) ∧
  (∀ (s : State) (e h : Nat) (r : Req), s.intakeClosed r = false → (s.reg oDrain).getLsbD r.tenant = true → r.op ≠ .wbDirty → r.op ≠ .evictClean →
    r.op ≠ .wrStream → r.op ≠ .fence →
    ∃ q, q.req = r ∧ s.weirSample e h r = (s.freeEntry h q).send (s.frame + 1) (portOf r.nc r.src) (retryMsg r h 0 2 15)) ∧
  (∀ (s : State) (w : RegAccess), w.size = 8 → w.off = oLogPtr →
    let rd := bits w.val 16 13
    ((s.ring.wr - rd).toNat ≤ 4096 → s.putRd w = { s with ring := { s.ring with rd := rd } }) ∧
    (4096 < (s.ring.wr - rd).toNat → s.putRd w = s)) ∧
  (∀ (s : State) (w : RegAccess) (k : Nat),
    (w.slot = oSl k 0x28 → k < 16 → s.putWo w = if w.starts 3 then s.rebuild k else s) ∧
    (w.slot = oRinv → s.putWo w = if w.starts 16 then s.startOp oRinv 17 18 19 22 .rinv else s) ∧
    (w.slot = oScrub → s.putWo w = if w.starts 18 then s.startOp oScrub 19 20 21 34 .scrub else s) ∧
    (w.slot = oWalk → s.putWo w = if w.starts 8 then s.walkStart else s) ∧
    (w.slot = oMeminit → s.putWo w = if w.starts 0 then s.initStart else s) ∧
    (w.slot = oFlip → w.mask.getLsbD 0 = true → s.putWo w = s.armFlip (w.value.getLsbD 0)) ∧
    (w.slot = oTakeover → s.putWo w = (let t := if w.starts 4 then s.force else s; if w.starts 5 then t.returnStart else t)) ∧
    (w.slot = oDbg → (s.putWo w).bus.dbgStart = (s.bus.dbgStart || w.starts 24)) ∧
    (w.slot = oPmcCtl → s.putWo w = if w.starts 1 then s.snap else s) ∧
    (w.slot = oCistern → s.putWo w = if w.starts 8 then s.itemDue .lifetime else s) ∧
    (w.slot = oCalendar → s.putWo w = s.itemDue .lifetime) ∧
    (w.slot = oNvm → w.mask.getLsbD 0 = true → s.putWo w = s.nvmStart ((w.mask &&& w.value).toNat % 8) w.init) ∧
    (w.slot = oLogPtr → s.putWo w = s.putRd w))

/-- A configuration transaction as its initiator sees it (R518, R520, R521): BEGIN opens it, an RWL write goes to its shadow, COMMIT waits
for the edge, ROLLBACK closes it, and so does the end of its lifetime, at the end of the frame (R14). A command out of place sets RESULT to 7
and changes nothing else, and an RWL write outside a transaction is rejected and counted (R20). That BEGIN keeps RESULT is the model's reading
(log entry 28). -/
def Obligations.ConfigurationTransactions : Prop :=
  ∀ (s : State) (i : Nat), s.inReset = false → s.ready = true → i < 16 → s.bus.port = [] →
    ((s.view i).isOpen = false → exec (.cfgBegin i) s = .next (s.setView i
      { s.view i with isOpen := true, writes := 0, shadow := [], begunAt := s.frame, begunSeq := s.commits })) ∧
    ((s.view i).isOpen = true → exec (.cfgBegin i) s = .next (s.setView i { s.view i with result := 7 })) ∧
    ((s.view i).isOpen = true → exec (.cfgCommit i) s = .next
      { s.setView i { s.view i with isOpen := false, writes := 0, shadow := [] } with edgeQ := s.edgeQ ++ [.commit i (s.view i)] }) ∧
    ((s.view i).isOpen = true → exec (.cfgRollback i) s = .next (s.setView i
      { s.view i with isOpen := false, writes := 0, shadow := [], result := 2 })) ∧
    ((s.view i).isOpen = false → exec (.cfgCommit i) s = .next (s.setView i { s.view i with result := 7 }) ∧
      exec (.cfgRollback i) s = .next (s.setView i { s.view i with result := 7 })) ∧
    ((s.view i).isOpen = true → (s.view i).begunAt + 1024 * max 1 (s.fld oCfgCtl 0 16) ≤ s.frame →
      exec (.cfgTimeout i) s = .next (s.lapseAt (.config i)) ∧
        let t := s.lapse (.config i)
        (t.view i).isOpen = false ∧ (t.view i).result = 3 ∧ (t.view i).shadow = [] ∧ t.flag (oEvtPend 0) 36 = true ∧ t.edgeQ = s.edgeQ) ∧
    (∀ w : RegAccess, w.init = i → w.accepted = true → w.read = false → sliceOff w.slot = none → w.mask &&& rwlMask w.slot ≠ 0 →
      w.slot ≠ oAgentCtl → rwMask w.slot ||| w1cMask w.slot ||| woMask w.slot = 0 →
      ((s.view i).isOpen = true → exec (.rwlWrite w) s = .next (s.setView i { s.view i with
        writes := min 4097 ((s.view i).writes + 1)
        shadow := shadowPut w.slot (w.mask &&& rwlMask w.slot) w.value (s.view i).shadow })) ∧
      ((s.view i).isOpen = false → exec (.rwlWrite w) s = .next (s.incFld oCfgCtl 16 16 1)))

/-- The flash port (R529, R548 to R551): the pending item of highest precedence starts, the steps of a record follow one another to its
COMMIT, and an operation that does not finish ends its item at the end of the frame (R14), a firmware access with ERROR 2 (R554); what the
block sends to the flash for each step of a record and for READ (R496 to R499). Which copy's settings a write of the flash takes, and that an
access keeps the address and the length of its OP, is the model's reading (log entry 30). -/
def Obligations.FlashPort : Prop :=
  ∀ s : State, s.inReset = false →
    (∀ i, s.ready = true → s.cistern.busy = none → s.nextItem = some i →
      exec .nvmItemStart s = .next { s with cistern := { s.cistern with
        due := s.cistern.due.erase i, busy := some (i, s.firstStep i), gathered := [], since := s.frame } }) ∧
    (∀ i d, s.cistern.busy = some (i, .erase) →
      exec (.flashOpComplete d) s = .next { s with cistern := { s.cistern with busy := some (i, .program 0), since := s.frame } }) ∧
    (∀ i p d, s.cistern.busy = some (i, .program p) → exec (.flashOpComplete d) s =
      .next { s with cistern := { s.cistern with busy := some (i, if p < 15 then .program (p + 1) else .commit), since := s.frame } }) ∧
    (∀ i d, s.cistern.busy = some (i, .commit) → ∃ t, exec (.flashOpComplete d) s = .next t ∧ t.cistern.busy = none ∧
      t.cistern.newest = some s.cistern.slot ∧ t.cistern.seq = s.cistern.seq + 1) ∧
    (∀ i d, s.cistern.busy = some (i, .fwProgram) ∨ s.cistern.busy = some (i, .fwErase) →
      exec (.flashOpComplete d) s = .next (s.held (s.fwEnd 0))) ∧
    (∀ i d, s.cistern.busy = some (i, .fwRead) → exec (.flashOpComplete d) s = .next (s.held ((s.toBuffer d).fwEnd 0))) ∧
    (∀ i d, s.cistern.busy = some (i, .reload) → exec (.flashOpComplete d) s = .next (s.held (s.reloadDone d))) ∧
    (∀ e, e < 8 → (s.fwEnd e).cistern.busy = none ∧ (s.fwEnd e).fld oNvm 5 3 = e ∧ (s.fwEnd e).flag oNvm 3 = false ∧
      (s.fwEnd e).flag oNvm 4 = true ∧ (s.fwEnd e).flag (oEvtPend 0) 43 = true) ∧
    (∀ i st, s.cistern.busy = some (i, st) → st ≠ .gather → s.cistern.since + framesPerSecond ≤ s.frame →
      exec .flashOpTimeout s = .next (s.lapseAt .flash) ∧
        let t := s.lapse .flash
        (i ≠ .firmware → t.cistern.busy = none ∧ t.cistern.skipTo = some ((s.cistern.slot + 1) % 256) ∧ t.flag (oEvtPend 0) 40 = true ∧
          t.fld oCisternStat 44 12 = min (s.fld oCisternStat 44 12 + 1) (2 ^ 12 - 1)) ∧
        (i = .firmware → t = s.fwEnd 2)) ∧
    (∀ i, s.phase = 8 →
      let d := s.spiDiv (s.flag oBoot 6)
      let sent (code addr : Nat) (data : List Byte) : List FlashCmd :=
        [{ code := 0x06, div := d }, { code := code, addr := addr, data := data, div := d }, { code := 0x05, count := 1, div := d }]
      (s.cistern.busy = some (i, .erase) → s.flashCmds = sent 0x21 (0x800000 + 4096 * s.cistern.slot) []) ∧
      (∀ p, s.cistern.busy = some (i, .program p) → s.flashCmds =
        sent 0x12 (0x800000 + 4096 * s.cistern.slot + 256 * p) (cut s.cistern.record (256 * p) 256)) ∧
      (s.cistern.busy = some (i, .commit) → s.flashCmds = sent 0x12 (0x800000 + 4096 * s.cistern.slot + 0xFFC) [0, 0, 0, 0]) ∧
      (s.cistern.busy = some (i, .fwErase) → s.flashCmds = sent 0x21 s.cistern.fwAddr []) ∧
      (s.cistern.busy = some (i, .fwRead) → s.flashCmds = [s.readCmd s.cistern.fwAddr (s.cistern.fwLen + 1)])) ∧
    (∀ addr n, addr < 0x800000 →
      let h := s.header (0x400000 ≤ addr)
      (fieldAt h 0x10 1 = 1 → s.readCmd addr n =
        { code := 0xEC, addr := addr, count := n, lines := (1, 4, 4), dummy := fieldAt h 0x12 1, div := max 20 (fieldAt h 0x11 1) }) ∧
      (fieldAt h 0x10 1 ≠ 1 → s.readCmd addr n = { code := 0x13, addr := addr, count := n, div := max 20 (fieldAt h 0x11 1) }))

/-- The maintenance service bus (R525 to R527, R540): the requesting master of lowest rank is granted, the watchdog of the bus ends a transfer
that does not complete, which returns all ones or loses its write, and a collected entry moves from its slice's queue toward the ring, which
it enters at the edge (log entry 35). The operand that says whether the target completes, and that a collector whose transfer timed out keeps
its entry, are the model's (log entry 32); a timed-out read of the register port is log entry 27. -/
def Obligations.BusTransfers : Prop :=
  (∀ (s : State) (b : Nat) (m : Master) (rest : List Master) (ok : Bool), s.inReset = false → b < 8 → s.bus.owner = none →
    s.bus.nextAt ≤ 8 * s.frame + b → s.requesters b = m :: rest → ok = false ∨ m = .collector →
    ∃ t, exec (.busTransferGrant b ok) s = .next t ∧ t.bus.owner = some (m, (s.wants m b).getD 0, s.frame) ∧
      t.bus.nextAt = 8 * s.frame + b + 1 ∧ t.regs = s.regs ∧ t.slices = s.slices ∧ t.bus.port = s.bus.port ∧
      t.bus.evtSent = (if m = .collector then s.bus.evtSent + 1 else s.bus.evtSent) ∧
      t.bus.lastRr = (if m = .collector then (s.wants m b).getD 0 else s.bus.lastRr)) ∧
  (∀ (s : State) (b : Nat) (m : Master) (rest : List Master), s.inReset = false → b < 8 → s.bus.owner = none → s.bus.nextAt ≤ 8 * s.frame + b →
    s.requesters b = m :: rest → m ≠ .collector →
    exec (.busTransferGrant b true) s = .next (s.held ((rest.foldl (fun u r => u.loses (8 * s.frame + b) r)
      (State.wins { s with bus := { s.bus with nextAt := 8 * s.frame + b + 1 } } m)).transferEnd m true))) ∧
  (∀ (s : State) (m : Master) (k f : Nat), s.inReset = false → s.bus.owner = some (m, k, f) → f + s.busWd ≤ s.frame →
    let u := State.transferEnd { s with bus := { s.bus with owner := none } } m false
    exec .busTimeout s = .next (s.held ((u.incFld oBus 16 16 1).raise 38 m.rank (BitVec.ofNat 64 k))) ∧ u.bus.owner = none ∧
      (m = .collector → u.slices = s.slices ∧ u.logNew = s.logNew)) ∧
  (∀ s : State,
    (∀ w, s.bus.port = [w] → w.read = false → s.transferEnd .regPort false = { s with bus := { s.bus with port := [] } }) ∧
    s.transferEnd .gatherer false = s.gather (BitVec.allOnes 128) ∧
    (∀ n, s.bus.sampling = some n → n + 1 < 4 * s.nSlices → (s.transferEnd .sampler false).bus.sampling = some (n + 1) ∧
      ∀ i, i = 2 * n ∨ i = 2 * n + 1 → (s.transferEnd .sampler false).reg (oPmcSnap i) = 0x1FFFFFFFFFFFF) ∧
    (∀ k l, s.bus.debug = some (k, l, 0) → (s.transferEnd .debug false).bus.debug = some (k, l, 1) ∧
      ∀ i, i < 2 → (s.transferEnd .debug false).reg (oDbgData i) = BitVec.allOnes 64) ∧
    (∀ k l, s.bus.debug = some (k, l, 1) → (s.transferEnd .debug false).bus.debug = none ∧ (s.transferEnd .debug false).flag oDbg 25 = true ∧
      ∀ i, i ∈ [2, 3, 4] → (s.transferEnd .debug false).reg (oDbgData i) = BitVec.allOnes 64)) ∧
  (∀ (s : State) (k f : Nat) (e : BitVec 128) (rest : List (BitVec 128)), s.inReset = false → s.bus.owner = some (.collector, k, f) →
    (s.sl k).evq = e :: rest → (∀ p ∈ s.logNew, p.1 ≤ 128) →
    ∃ t, exec .logCollect s = .next t ∧ t.bus.owner = none ∧ (t.sl k).evq = rest ∧ t.logNew = s.logNew ++ [(128, [e])] ∧ t.ring = s.ring) ∧
  (∀ (s : State) (j : Nat) (e : BitVec 128), s.logNew = [(j, [e])] → s.logUsed < 4096 →
    s.logFlush.logNew = [] ∧ tget 0 s.logFlush.ring.entries (s.ring.wr.toNat % 4096) = e ∧ s.logFlush.ring.wr = s.ring.wr + 1 ∧
      s.logFlush.ring.rd = s.ring.rd)

end
end

