-- ==== Sys2Proof/Laws/Tables.lean ====
section
/-! SUPPORT. The laws of tables: a read after a write, every other index left alone, and the canonical form kept. -/

namespace Sys2Proof.Machine

variable {α : Type}

@[simp] theorem tget_nil (d : α) (k : Nat) : tget d [] k = d := rfl

@[simp] theorem tget_tput_same (d v : α) (k : Nat) (t : Tbl α) : tget d (tput k v t) k = v := by
  induction t with
  | nil => simp [tput, tget]
  | cons p t ih =>
    obtain ⟨j, w⟩ := p
    simp only [tput]
    split
    · simp [tget]
    · split
      · simp [tget]
      · simp_all [tget]

theorem tget_tput_other {k k' : Nat} (h : k' ≠ k) (d v : α) (t : Tbl α) : tget d (tput k v t) k' = tget d t k' := by
  induction t with
  | nil => simp [tput, tget, h]
  | cons p t ih =>
    obtain ⟨j, w⟩ := p
    simp only [tput]
    split
    · simp [tget, h]
    · split
      · subst_vars; simp [tget, h]
      · simp [tget, ih]

@[simp] theorem tget_tdel_same (d : α) (k : Nat) (t : Tbl α) : tget d (tdel k t) k = d := by
  induction t with
  | nil => rfl
  | cons p t ih =>
    obtain ⟨j, w⟩ := p
    simp only [tdel]
    split
    · exact ih
    · simp_all [tget]

theorem tget_tdel_other {k k' : Nat} (h : k' ≠ k) (d : α) (t : Tbl α) : tget d (tdel k t) k' = tget d t k' := by
  induction t with
  | nil => rfl
  | cons p t ih =>
    obtain ⟨j, w⟩ := p
    simp only [tdel]
    split
    · subst_vars; simp [tget, h, ih]
    · simp [tget, ih]

/-- A read after a write, at the index written: the default is what is not listed. -/
@[simp] theorem tget_tputD_same [DecidableEq α] (d v : α) (k : Nat) (t : Tbl α) : tget d (tputD d k v t) k = v := by
  unfold tputD
  split
  · subst_vars; simp
  · simp

/-- A read after a write, at any other index, whatever an unlisted index reads as there. -/
theorem tget_tputD_other [DecidableEq α] {k k' : Nat} (h : k' ≠ k) (d d' v : α) (t : Tbl α) :
    tget d' (tputD d k v t) k' = tget d' t k' := by
  unfold tputD
  split
  · exact tget_tdel_other h d' t
  · exact tget_tput_other h d' v t

theorem tget_tputD [DecidableEq α] (d v : α) (k k' : Nat) (t : Tbl α) :
    tget d (tputD d k v t) k' = if k' = k then v else tget d t k' := by
  split
  · subst_vars; simp
  · exact tget_tputD_other ‹_› d d v t

/-- The lower bound of the canonical form. -/
theorem tblWf_mono [DecidableEq α] {d : α} {a : Option Nat} {b : Nat} {t : Tbl α} (h : tblWf d (some b) t = true)
    (ha : ∀ l, a = some l → l ≤ b) : tblWf d a t = true := by
  cases t with
  | nil => rfl
  | cons p t =>
    obtain ⟨j, v⟩ := p
    simp only [tblWf, Bool.and_eq_true, decide_eq_true_eq] at h ⊢
    refine ⟨⟨?_, h.1.2⟩, h.2⟩
    cases a with
    | none => rfl
    | some l => have := ha l rfl; simp; omega

/-- Writing a value that is not the default keeps the canonical form. -/
theorem tblWf_tput [DecidableEq α] {d v : α} {k : Nat} {a : Option Nat} {t : Tbl α} (hv : v ≠ d)
    (ha : ∀ l, a = some l → l < k) (h : tblWf d a t = true) : tblWf d a (tput k v t) = true := by
  induction t generalizing a with
  | nil => cases a <;> simp_all [tput, tblWf]
  | cons p t ih =>
    obtain ⟨j, w⟩ := p
    simp only [tblWf, Bool.and_eq_true, decide_eq_true_eq] at h
    simp only [tput]
    split
    · simp only [tblWf, Bool.and_eq_true, decide_eq_true_eq]
      refine ⟨⟨?_, hv⟩, ⟨‹_›, h.1.2⟩, h.2⟩
      cases a with
      | none => rfl
      | some l => simpa using ha l rfl
    · split
      · subst_vars
        simp only [tblWf, Bool.and_eq_true, decide_eq_true_eq]
        exact ⟨⟨h.1.1, hv⟩, h.2⟩
      · simp only [tblWf, Bool.and_eq_true, decide_eq_true_eq]
        exact ⟨h.1, ih (fun l hl => by cases hl; omega) h.2⟩

/-- Removing an entry keeps the canonical form. -/
theorem tblWf_tdel [DecidableEq α] {d : α} {k : Nat} {a : Option Nat} {t : Tbl α} (h : tblWf d a t = true) :
    tblWf d a (tdel k t) = true := by
  induction t generalizing a with
  | nil => exact h
  | cons p t ih =>
    obtain ⟨j, w⟩ := p
    simp only [tblWf, Bool.and_eq_true, decide_eq_true_eq] at h
    simp only [tdel]
    split
    · refine tblWf_mono (ih h.2) fun l hl => ?_
      cases hl
      have := h.1.1
      simp at this
      omega
    · simp only [tblWf, Bool.and_eq_true, decide_eq_true_eq]
      exact ⟨h.1, ih h.2⟩

/-- Every write keeps the canonical form. -/
theorem tblWf_tputD [DecidableEq α] {d v : α} {k : Nat} {t : Tbl α} (h : tblWf d none t = true) :
    tblWf d none (tputD d k v t) = true := by
  unfold tputD
  split
  · exact tblWf_tdel h
  · exact tblWf_tput ‹_› (by simp) h

end Sys2Proof.Machine
end

