-- ==== Sys2Proof/Laws/Regs.lean ====
section
/-! SUPPORT. The laws of bit fields and of registers: a field reads back, and every other field and register is left alone. -/

namespace Sys2Proof

/-! Bit fields. -/

theorem getLsbD_bits {n : Nat} (x : BitVec n) (lo w i : Nat) :
    (bits x lo w).getLsbD i = (decide (i < w) && x.getLsbD (lo + i)) := by
  simp [bits, BitVec.getLsbD_extractLsb']

theorem getLsbD_setBits {n : Nat} (x : BitVec n) (lo w : Nat) (v : BitVec w) (i : Nat) (hi : i < n) :
    (setBits x lo w v).getLsbD i = if lo ≤ i ∧ i < lo + w then v.getLsbD (i - lo) else x.getLsbD i := by
  simp only [setBits, BitVec.getLsbD_or, BitVec.getLsbD_and, BitVec.getLsbD_not, BitVec.getLsbD_shiftLeft,
    BitVec.getLsbD_setWidth, BitVec.getLsbD_allOnes]
  by_cases h1 : lo ≤ i
  · by_cases h2 : i < lo + w
    · have h3 : i - lo < w := by omega
      have h4 : i - lo < n := by omega
      simp [h1, h2, h3, h4, hi, Nat.not_lt.mpr h1]
    · have h3 : ¬ i - lo < w := by omega
      have h5 : v.getLsbD (i - lo) = false := BitVec.getLsbD_of_ge v (i - lo) (by omega)
      simp [h1, h2, h3, h5, hi]
  · simp [h1, hi, Nat.lt_of_not_le h1]

/-- A field reads back. -/
theorem bits_setBits_same {n : Nat} (x : BitVec n) (lo w : Nat) (v : BitVec w) (h : lo + w ≤ n) :
    bits (setBits x lo w v) lo w = v := by
  apply BitVec.eq_of_getLsbD_eq
  intro i hi
  rw [getLsbD_bits, getLsbD_setBits _ _ _ _ _ (by omega)]
  simp [hi]

/-- A field apart from the one written is unchanged. -/
theorem bits_setBits_apart {n : Nat} (x : BitVec n) (lo w lo' w' : Nat) (v : BitVec w) (h : lo + w ≤ lo' ∨ lo' + w' ≤ lo) :
    bits (setBits x lo w v) lo' w' = bits x lo' w' := by
  apply BitVec.eq_of_getLsbD_eq
  intro i hi
  rw [getLsbD_bits, getLsbD_bits]
  by_cases hn : lo' + i < n
  · rw [getLsbD_setBits _ _ _ _ _ hn]
    have : ¬ (lo ≤ lo' + i ∧ lo' + i < lo + w) := by omega
    simp [this]
  · simp [BitVec.getLsbD_of_ge _ _ (Nat.le_of_not_lt hn)]

end Sys2Proof

namespace Sys2Proof.Machine

/-! Registers. -/

/-- A register reads back what was stored. -/
@[simp] theorem reg_setReg_same (s : State) (o : Nat) (v : Reg) : (s.setReg o v).reg o = v := by
  simp [State.reg, State.setReg]

theorem reg_setReg_other (s : State) {o o' : Nat} (v : Reg) (h : o' ≠ o) : (s.setReg o v).reg o' = s.reg o' := by
  exact tget_tputD_other h _ _ _ _

@[simp] theorem reg_mark (s : State) (o lo n o' : Nat) : (s.mark o lo n).reg o' = s.reg o' := rfl

theorem reg_setFld_other (s : State) {o o' : Nat} (lo w v : Nat) (h : o' ≠ o) : (s.setFld o lo w v).reg o' = s.reg o' :=
  reg_setReg_other s _ h

theorem reg_incFld_other (s : State) {o o' : Nat} (lo w n : Nat) (h : o' ≠ o) : (s.incFld o lo w n).reg o' = s.reg o' :=
  reg_setFld_other s _ _ _ h

theorem reg_noteFld_other (s : State) {o o' : Nat} (lo w n : Nat) (h : o' ≠ o) : (s.noteFld o lo w n).reg o' = s.reg o' :=
  reg_setFld_other s _ _ _ h

theorem reg_setFlag_other (s : State) {o o' : Nat} (b : Nat) (v : Bool) (h : o' ≠ o) : (s.setFlag o b v).reg o' = s.reg o' := by
  cases v
  · exact reg_setFld_other s _ _ _ h
  · exact reg_setFld_other s _ _ _ h

/-- A field reads back, cut to its width. -/
theorem fld_setFld_same (s : State) (o lo w v : Nat) (h : lo + w ≤ 64) : (s.setFld o lo w v).fld o lo w = v % 2 ^ w := by
  simp [State.fld, State.setFld, bits_setBits_same _ _ _ _ h]

/-- A field of the same register, apart from the one written. -/
theorem fld_setFld_apart (s : State) (o lo w v lo' w' : Nat) (h : lo + w ≤ lo' ∨ lo' + w' ≤ lo) :
    (s.setFld o lo w v).fld o lo' w' = s.fld o lo' w' := by
  simp [State.fld, State.setFld, bits_setBits_apart _ _ _ _ _ _ h]

theorem fld_setFld_other (s : State) {o o' : Nat} (lo w v lo' w' : Nat) (h : o' ≠ o) :
    (s.setFld o lo w v).fld o' lo' w' = s.fld o' lo' w' := by simp [State.fld, reg_setFld_other s _ _ _ h]

theorem fld_lt (s : State) (o lo w : Nat) : s.fld o lo w < 2 ^ w := (bits (s.reg o) lo w).isLt

/-- A count that saturates. -/
theorem fld_incFld_same (s : State) (o lo w n : Nat) (h : lo + w ≤ 64) :
    (s.incFld o lo w n).fld o lo w = min (s.fld o lo w + n) (2 ^ w - 1) := by
  have hp : 0 < 2 ^ w := Nat.two_pow_pos w
  show (s.setFld o lo w _).fld o lo w = _
  rw [fld_setFld_same s _ _ _ _ h, Nat.mod_eq_of_lt]
  omega

theorem flag_eq_fld (s : State) (o b : Nat) : s.flag o b = (s.fld o b 1 == 1) := by
  have h : bits (s.reg o) b 1 = BitVec.ofBool ((s.reg o).getLsbD b) := by
    apply BitVec.eq_of_getLsbD_eq
    intro i hi
    obtain rfl : i = 0 := by omega
    simp [bits]
  unfold State.flag State.fld
  rw [h]
  cases (s.reg o).getLsbD b <;> rfl

/-- A one-bit field reads back. -/
theorem flag_setFlag_same (s : State) (o b : Nat) (v : Bool) (h : b < 64) : (s.setFlag o b v).flag o b = v := by
  rw [flag_eq_fld]
  cases v
  · show (((s.setFld o b 1 0).fld o b 1) == 1) = false
    rw [fld_setFld_same _ _ _ _ _ (by omega)]; rfl
  · show (((s.setFld o b 1 1).fld o b 1) == 1) = true
    rw [fld_setFld_same _ _ _ _ _ (by omega)]; rfl

theorem flag_setFld_apart (s : State) (o lo w v b : Nat) (h : b < lo ∨ lo + w ≤ b) : (s.setFld o lo w v).flag o b = s.flag o b := by
  rw [flag_eq_fld, flag_eq_fld, fld_setFld_apart _ _ _ _ _ _ _ (by omega)]

theorem flag_setFlag_apart (s : State) (o b b' : Nat) (v : Bool) (h : b' ≠ b) : (s.setFlag o b v).flag o b' = s.flag o b' := by
  cases v
  · exact flag_setFld_apart s _ _ _ _ _ (by omega)
  · exact flag_setFld_apart s _ _ _ _ _ (by omega)

theorem fld_setFlag_apart (s : State) (o b lo w : Nat) (v : Bool) (h : b < lo ∨ lo + w ≤ b) : (s.setFlag o b v).fld o lo w = s.fld o lo w := by
  cases v
  · exact fld_setFld_apart s _ _ _ _ _ _ (by omega)
  · exact fld_setFld_apart s _ _ _ _ _ _ (by omega)

theorem flag_setFlag_other (s : State) {o o' : Nat} (b b' : Nat) (v : Bool) (h : o' ≠ o) : (s.setFlag o b v).flag o' b' = s.flag o' b' := by
  unfold State.flag
  rw [reg_setFlag_other s b v h]

end Sys2Proof.Machine
end

