-- ==== Sys2Proof/Laws/State.lean ====
section
/-! SUPPORT. What each update of the state leaves alone: one lemma per field and update, and per reader and update; and what a reader
reads after its own update. -/

namespace Sys2Proof.Machine

variable (s : State)

/-! `State.setReg`. -/

@[simp] theorem State.setReg_fusing (o : Nat) (v : Reg) : (s.setReg o v).fusing = s.fusing := rfl
@[simp] theorem State.setReg_inReset (o : Nat) (v : Reg) : (s.setReg o v).inReset = s.inReset := rfl
@[simp] theorem State.setReg_ready (o : Nat) (v : Reg) : (s.setReg o v).ready = s.ready := rfl
@[simp] theorem State.setReg_failPin (o : Nat) (v : Reg) : (s.setReg o v).failPin = s.failPin := rfl
@[simp] theorem State.setReg_frame (o : Nat) (v : Reg) : (s.setReg o v).frame = s.frame := rfl
@[simp] theorem State.setReg_marks (o : Nat) (v : Reg) : (s.setReg o v).marks = s.marks := rfl
@[simp] theorem State.setReg_cfg (o : Nat) (v : Reg) : (s.setReg o v).cfg = s.cfg := rfl
@[simp] theorem State.setReg_committed (o : Nat) (v : Reg) : (s.setReg o v).committed = s.committed := rfl
@[simp] theorem State.setReg_commits (o : Nat) (v : Reg) : (s.setReg o v).commits = s.commits := rfl
@[simp] theorem State.setReg_edgeQ (o : Nat) (v : Reg) : (s.setReg o v).edgeQ = s.edgeQ := rfl
@[simp] theorem State.setReg_slices (o : Nat) (v : Reg) : (s.setReg o v).slices = s.slices := rfl
@[simp] theorem State.setReg_agents (o : Nat) (v : Reg) : (s.setReg o v).agents = s.agents := rfl
@[simp] theorem State.setReg_hubs (o : Nat) (v : Reg) : (s.setReg o v).hubs = s.hubs := rfl
@[simp] theorem State.setReg_lanes (o : Nat) (v : Reg) : (s.setReg o v).lanes = s.lanes := rfl
@[simp] theorem State.setReg_hubUp (o : Nat) (v : Reg) : (s.setReg o v).hubUp = s.hubUp := rfl
@[simp] theorem State.setReg_net (o : Nat) (v : Reg) : (s.setReg o v).net = s.net := rfl
@[simp] theorem State.setReg_inbound (o : Nat) (v : Reg) : (s.setReg o v).inbound = s.inbound := rfl
@[simp] theorem State.setReg_packets (o : Nat) (v : Reg) : (s.setReg o v).packets = s.packets := rfl
@[simp] theorem State.setReg_agenda (o : Nat) (v : Reg) : (s.setReg o v).agenda = s.agenda := rfl
@[simp] theorem State.setReg_expired (o : Nat) (v : Reg) : (s.setReg o v).expired = s.expired := rfl
@[simp] theorem State.setReg_lapsed (o : Nat) (v : Reg) : (s.setReg o v).lapsed = s.lapsed := rfl
@[simp] theorem State.setReg_recolorDue (o : Nat) (v : Reg) : (s.setReg o v).recolorDue = s.recolorDue := rfl
@[simp] theorem State.setReg_meterOff (o : Nat) (v : Reg) : (s.setReg o v).meterOff = s.meterOff := rfl
@[simp] theorem State.setReg_late (o : Nat) (v : Reg) : (s.setReg o v).late = s.late := rfl
@[simp] theorem State.setReg_samples (o : Nat) (v : Reg) : (s.setReg o v).samples = s.samples := rfl
@[simp] theorem State.setReg_out (o : Nat) (v : Reg) : (s.setReg o v).out = s.out := rfl
@[simp] theorem State.setReg_reads (o : Nat) (v : Reg) : (s.setReg o v).reads = s.reads := rfl
@[simp] theorem State.setReg_shown (o : Nat) (v : Reg) : (s.setReg o v).shown = s.shown := rfl
@[simp] theorem State.setReg_memFailed (o : Nat) (v : Reg) : (s.setReg o v).memFailed = s.memFailed := rfl
@[simp] theorem State.setReg_memDownDue (o : Nat) (v : Reg) : (s.setReg o v).memDownDue = s.memDownDue := rfl
@[simp] theorem State.setReg_pmSleepReq (o : Nat) (v : Reg) : (s.setReg o v).pmSleepReq = s.pmSleepReq := rfl
@[simp] theorem State.setReg_pmGrant (o : Nat) (v : Reg) : (s.setReg o v).pmGrant = s.pmGrant := rfl
@[simp] theorem State.setReg_hpRetireReq (o : Nat) (v : Reg) : (s.setReg o v).hpRetireReq = s.hpRetireReq := rfl
@[simp] theorem State.setReg_hpPermit (o : Nat) (v : Reg) : (s.setReg o v).hpPermit = s.hpPermit := rfl
@[simp] theorem State.setReg_hpSurprise (o : Nat) (v : Reg) : (s.setReg o v).hpSurprise = s.hpSurprise := rfl
@[simp] theorem State.setReg_vectors (o : Nat) (v : Reg) : (s.setReg o v).vectors = s.vectors := rfl
@[simp] theorem State.setReg_ring (o : Nat) (v : Reg) : (s.setReg o v).ring = s.ring := rfl
@[simp] theorem State.setReg_logNew (o : Nat) (v : Reg) : (s.setReg o v).logNew = s.logNew := rfl
@[simp] theorem State.setReg_routers (o : Nat) (v : Reg) : (s.setReg o v).routers = s.routers := rfl
@[simp] theorem State.setReg_boot (o : Nat) (v : Reg) : (s.setReg o v).boot = s.boot := rfl
@[simp] theorem State.setReg_cistern (o : Nat) (v : Reg) : (s.setReg o v).cistern = s.cistern := rfl
@[simp] theorem State.setReg_bus (o : Nat) (v : Reg) : (s.setReg o v).bus = s.bus := rfl
@[simp] theorem State.setReg_pmc (o : Nat) (v : Reg) : (s.setReg o v).pmc = s.pmc := rfl
@[simp] theorem State.setReg_hotSlices (o : Nat) (v : Reg) : (s.setReg o v).hotSlices = s.hotSlices := rfl
@[simp] theorem State.setReg_failDue (o : Nat) (v : Reg) : (s.setReg o v).failDue = s.failDue := rfl
@[simp] theorem State.setReg_refillAt (o : Nat) (v : Reg) : (s.setReg o v).refillAt = s.refillAt := rfl
@[simp] theorem State.setReg_leakAt (o : Nat) (v : Reg) : (s.setReg o v).leakAt = s.leakAt := rfl
@[simp] theorem State.setReg_secondAt (o : Nat) (v : Reg) : (s.setReg o v).secondAt = s.secondAt := rfl
@[simp] theorem State.setReg_freeCount (o : Nat) (v : Reg) : (s.setReg o v).freeCount = s.freeCount := rfl
@[simp] theorem State.setReg_pending (o : Nat) (v : Reg) : (s.setReg o v).pending = s.pending := rfl
@[simp] theorem State.setReg_sl (o : Nat) (v : Reg) (x : Nat) : (s.setReg o v).sl x = s.sl x := rfl
@[simp] theorem State.setReg_txn (o : Nat) (v : Reg) (x y : Nat) : (s.setReg o v).txn x y = s.txn x y := rfl
@[simp] theorem State.setReg_ag (o : Nat) (v : Reg) (x : Nat) : (s.setReg o v).ag x = s.ag x := rfl
@[simp] theorem State.setReg_lane (o : Nat) (v : Reg) (x : Nat) : (s.setReg o v).lane x = s.lane x := rfl
@[simp] theorem State.setReg_hub (o : Nat) (v : Reg) (x : Nat) : (s.setReg o v).hub x = s.hub x := rfl
@[simp] theorem State.setReg_view (o : Nat) (v : Reg) (x : Nat) : (s.setReg o v).view x = s.view x := rfl

/-! `State.setFld`. -/

@[simp] theorem State.setFld_fusing (o lo w v : Nat) : (s.setFld o lo w v).fusing = s.fusing := rfl
@[simp] theorem State.setFld_inReset (o lo w v : Nat) : (s.setFld o lo w v).inReset = s.inReset := rfl
@[simp] theorem State.setFld_ready (o lo w v : Nat) : (s.setFld o lo w v).ready = s.ready := rfl
@[simp] theorem State.setFld_failPin (o lo w v : Nat) : (s.setFld o lo w v).failPin = s.failPin := rfl
@[simp] theorem State.setFld_frame (o lo w v : Nat) : (s.setFld o lo w v).frame = s.frame := rfl
@[simp] theorem State.setFld_marks (o lo w v : Nat) : (s.setFld o lo w v).marks = s.marks := rfl
@[simp] theorem State.setFld_cfg (o lo w v : Nat) : (s.setFld o lo w v).cfg = s.cfg := rfl
@[simp] theorem State.setFld_committed (o lo w v : Nat) : (s.setFld o lo w v).committed = s.committed := rfl
@[simp] theorem State.setFld_commits (o lo w v : Nat) : (s.setFld o lo w v).commits = s.commits := rfl
@[simp] theorem State.setFld_edgeQ (o lo w v : Nat) : (s.setFld o lo w v).edgeQ = s.edgeQ := rfl
@[simp] theorem State.setFld_slices (o lo w v : Nat) : (s.setFld o lo w v).slices = s.slices := rfl
@[simp] theorem State.setFld_agents (o lo w v : Nat) : (s.setFld o lo w v).agents = s.agents := rfl
@[simp] theorem State.setFld_hubs (o lo w v : Nat) : (s.setFld o lo w v).hubs = s.hubs := rfl
@[simp] theorem State.setFld_lanes (o lo w v : Nat) : (s.setFld o lo w v).lanes = s.lanes := rfl
@[simp] theorem State.setFld_hubUp (o lo w v : Nat) : (s.setFld o lo w v).hubUp = s.hubUp := rfl
@[simp] theorem State.setFld_net (o lo w v : Nat) : (s.setFld o lo w v).net = s.net := rfl
@[simp] theorem State.setFld_inbound (o lo w v : Nat) : (s.setFld o lo w v).inbound = s.inbound := rfl
@[simp] theorem State.setFld_packets (o lo w v : Nat) : (s.setFld o lo w v).packets = s.packets := rfl
@[simp] theorem State.setFld_agenda (o lo w v : Nat) : (s.setFld o lo w v).agenda = s.agenda := rfl
@[simp] theorem State.setFld_expired (o lo w v : Nat) : (s.setFld o lo w v).expired = s.expired := rfl
@[simp] theorem State.setFld_lapsed (o lo w v : Nat) : (s.setFld o lo w v).lapsed = s.lapsed := rfl
@[simp] theorem State.setFld_recolorDue (o lo w v : Nat) : (s.setFld o lo w v).recolorDue = s.recolorDue := rfl
@[simp] theorem State.setFld_meterOff (o lo w v : Nat) : (s.setFld o lo w v).meterOff = s.meterOff := rfl
@[simp] theorem State.setFld_late (o lo w v : Nat) : (s.setFld o lo w v).late = s.late := rfl
@[simp] theorem State.setFld_samples (o lo w v : Nat) : (s.setFld o lo w v).samples = s.samples := rfl
@[simp] theorem State.setFld_out (o lo w v : Nat) : (s.setFld o lo w v).out = s.out := rfl
@[simp] theorem State.setFld_reads (o lo w v : Nat) : (s.setFld o lo w v).reads = s.reads := rfl
@[simp] theorem State.setFld_shown (o lo w v : Nat) : (s.setFld o lo w v).shown = s.shown := rfl
@[simp] theorem State.setFld_memFailed (o lo w v : Nat) : (s.setFld o lo w v).memFailed = s.memFailed := rfl
@[simp] theorem State.setFld_memDownDue (o lo w v : Nat) : (s.setFld o lo w v).memDownDue = s.memDownDue := rfl
@[simp] theorem State.setFld_pmSleepReq (o lo w v : Nat) : (s.setFld o lo w v).pmSleepReq = s.pmSleepReq := rfl
@[simp] theorem State.setFld_pmGrant (o lo w v : Nat) : (s.setFld o lo w v).pmGrant = s.pmGrant := rfl
@[simp] theorem State.setFld_hpRetireReq (o lo w v : Nat) : (s.setFld o lo w v).hpRetireReq = s.hpRetireReq := rfl
@[simp] theorem State.setFld_hpPermit (o lo w v : Nat) : (s.setFld o lo w v).hpPermit = s.hpPermit := rfl
@[simp] theorem State.setFld_hpSurprise (o lo w v : Nat) : (s.setFld o lo w v).hpSurprise = s.hpSurprise := rfl
@[simp] theorem State.setFld_vectors (o lo w v : Nat) : (s.setFld o lo w v).vectors = s.vectors := rfl
@[simp] theorem State.setFld_ring (o lo w v : Nat) : (s.setFld o lo w v).ring = s.ring := rfl
@[simp] theorem State.setFld_logNew (o lo w v : Nat) : (s.setFld o lo w v).logNew = s.logNew := rfl
@[simp] theorem State.setFld_routers (o lo w v : Nat) : (s.setFld o lo w v).routers = s.routers := rfl
@[simp] theorem State.setFld_boot (o lo w v : Nat) : (s.setFld o lo w v).boot = s.boot := rfl
@[simp] theorem State.setFld_cistern (o lo w v : Nat) : (s.setFld o lo w v).cistern = s.cistern := rfl
@[simp] theorem State.setFld_bus (o lo w v : Nat) : (s.setFld o lo w v).bus = s.bus := rfl
@[simp] theorem State.setFld_pmc (o lo w v : Nat) : (s.setFld o lo w v).pmc = s.pmc := rfl
@[simp] theorem State.setFld_hotSlices (o lo w v : Nat) : (s.setFld o lo w v).hotSlices = s.hotSlices := rfl
@[simp] theorem State.setFld_failDue (o lo w v : Nat) : (s.setFld o lo w v).failDue = s.failDue := rfl
@[simp] theorem State.setFld_refillAt (o lo w v : Nat) : (s.setFld o lo w v).refillAt = s.refillAt := rfl
@[simp] theorem State.setFld_leakAt (o lo w v : Nat) : (s.setFld o lo w v).leakAt = s.leakAt := rfl
@[simp] theorem State.setFld_secondAt (o lo w v : Nat) : (s.setFld o lo w v).secondAt = s.secondAt := rfl
@[simp] theorem State.setFld_freeCount (o lo w v : Nat) : (s.setFld o lo w v).freeCount = s.freeCount := rfl
@[simp] theorem State.setFld_pending (o lo w v : Nat) : (s.setFld o lo w v).pending = s.pending := rfl
@[simp] theorem State.setFld_sl (o lo w v : Nat) (x : Nat) : (s.setFld o lo w v).sl x = s.sl x := rfl
@[simp] theorem State.setFld_txn (o lo w v : Nat) (x y : Nat) : (s.setFld o lo w v).txn x y = s.txn x y := rfl
@[simp] theorem State.setFld_ag (o lo w v : Nat) (x : Nat) : (s.setFld o lo w v).ag x = s.ag x := rfl
@[simp] theorem State.setFld_lane (o lo w v : Nat) (x : Nat) : (s.setFld o lo w v).lane x = s.lane x := rfl
@[simp] theorem State.setFld_hub (o lo w v : Nat) (x : Nat) : (s.setFld o lo w v).hub x = s.hub x := rfl
@[simp] theorem State.setFld_view (o lo w v : Nat) (x : Nat) : (s.setFld o lo w v).view x = s.view x := rfl

/-! `State.mark`. -/

@[simp] theorem State.mark_fusing (o lo n : Nat) : (s.mark o lo n).fusing = s.fusing := rfl
@[simp] theorem State.mark_inReset (o lo n : Nat) : (s.mark o lo n).inReset = s.inReset := rfl
@[simp] theorem State.mark_ready (o lo n : Nat) : (s.mark o lo n).ready = s.ready := rfl
@[simp] theorem State.mark_failPin (o lo n : Nat) : (s.mark o lo n).failPin = s.failPin := rfl
@[simp] theorem State.mark_frame (o lo n : Nat) : (s.mark o lo n).frame = s.frame := rfl
@[simp] theorem State.mark_regs (o lo n : Nat) : (s.mark o lo n).regs = s.regs := rfl
@[simp] theorem State.mark_cfg (o lo n : Nat) : (s.mark o lo n).cfg = s.cfg := rfl
@[simp] theorem State.mark_committed (o lo n : Nat) : (s.mark o lo n).committed = s.committed := rfl
@[simp] theorem State.mark_commits (o lo n : Nat) : (s.mark o lo n).commits = s.commits := rfl
@[simp] theorem State.mark_edgeQ (o lo n : Nat) : (s.mark o lo n).edgeQ = s.edgeQ := rfl
@[simp] theorem State.mark_slices (o lo n : Nat) : (s.mark o lo n).slices = s.slices := rfl
@[simp] theorem State.mark_agents (o lo n : Nat) : (s.mark o lo n).agents = s.agents := rfl
@[simp] theorem State.mark_hubs (o lo n : Nat) : (s.mark o lo n).hubs = s.hubs := rfl
@[simp] theorem State.mark_lanes (o lo n : Nat) : (s.mark o lo n).lanes = s.lanes := rfl
@[simp] theorem State.mark_hubUp (o lo n : Nat) : (s.mark o lo n).hubUp = s.hubUp := rfl
@[simp] theorem State.mark_net (o lo n : Nat) : (s.mark o lo n).net = s.net := rfl
@[simp] theorem State.mark_inbound (o lo n : Nat) : (s.mark o lo n).inbound = s.inbound := rfl
@[simp] theorem State.mark_packets (o lo n : Nat) : (s.mark o lo n).packets = s.packets := rfl
@[simp] theorem State.mark_agenda (o lo n : Nat) : (s.mark o lo n).agenda = s.agenda := rfl
@[simp] theorem State.mark_expired (o lo n : Nat) : (s.mark o lo n).expired = s.expired := rfl
@[simp] theorem State.mark_lapsed (o lo n : Nat) : (s.mark o lo n).lapsed = s.lapsed := rfl
@[simp] theorem State.mark_recolorDue (o lo n : Nat) : (s.mark o lo n).recolorDue = s.recolorDue := rfl
@[simp] theorem State.mark_meterOff (o lo n : Nat) : (s.mark o lo n).meterOff = s.meterOff := rfl
@[simp] theorem State.mark_late (o lo n : Nat) : (s.mark o lo n).late = s.late := rfl
@[simp] theorem State.mark_samples (o lo n : Nat) : (s.mark o lo n).samples = s.samples := rfl
@[simp] theorem State.mark_out (o lo n : Nat) : (s.mark o lo n).out = s.out := rfl
@[simp] theorem State.mark_reads (o lo n : Nat) : (s.mark o lo n).reads = s.reads := rfl
@[simp] theorem State.mark_shown (o lo n : Nat) : (s.mark o lo n).shown = s.shown := rfl
@[simp] theorem State.mark_memFailed (o lo n : Nat) : (s.mark o lo n).memFailed = s.memFailed := rfl
@[simp] theorem State.mark_memDownDue (o lo n : Nat) : (s.mark o lo n).memDownDue = s.memDownDue := rfl
@[simp] theorem State.mark_pmSleepReq (o lo n : Nat) : (s.mark o lo n).pmSleepReq = s.pmSleepReq := rfl
@[simp] theorem State.mark_pmGrant (o lo n : Nat) : (s.mark o lo n).pmGrant = s.pmGrant := rfl
@[simp] theorem State.mark_hpRetireReq (o lo n : Nat) : (s.mark o lo n).hpRetireReq = s.hpRetireReq := rfl
@[simp] theorem State.mark_hpPermit (o lo n : Nat) : (s.mark o lo n).hpPermit = s.hpPermit := rfl
@[simp] theorem State.mark_hpSurprise (o lo n : Nat) : (s.mark o lo n).hpSurprise = s.hpSurprise := rfl
@[simp] theorem State.mark_vectors (o lo n : Nat) : (s.mark o lo n).vectors = s.vectors := rfl
@[simp] theorem State.mark_ring (o lo n : Nat) : (s.mark o lo n).ring = s.ring := rfl
@[simp] theorem State.mark_logNew (o lo n : Nat) : (s.mark o lo n).logNew = s.logNew := rfl
@[simp] theorem State.mark_routers (o lo n : Nat) : (s.mark o lo n).routers = s.routers := rfl
@[simp] theorem State.mark_boot (o lo n : Nat) : (s.mark o lo n).boot = s.boot := rfl
@[simp] theorem State.mark_cistern (o lo n : Nat) : (s.mark o lo n).cistern = s.cistern := rfl
@[simp] theorem State.mark_bus (o lo n : Nat) : (s.mark o lo n).bus = s.bus := rfl
@[simp] theorem State.mark_pmc (o lo n : Nat) : (s.mark o lo n).pmc = s.pmc := rfl
@[simp] theorem State.mark_hotSlices (o lo n : Nat) : (s.mark o lo n).hotSlices = s.hotSlices := rfl
@[simp] theorem State.mark_failDue (o lo n : Nat) : (s.mark o lo n).failDue = s.failDue := rfl
@[simp] theorem State.mark_refillAt (o lo n : Nat) : (s.mark o lo n).refillAt = s.refillAt := rfl
@[simp] theorem State.mark_leakAt (o lo n : Nat) : (s.mark o lo n).leakAt = s.leakAt := rfl
@[simp] theorem State.mark_secondAt (o lo n : Nat) : (s.mark o lo n).secondAt = s.secondAt := rfl
@[simp] theorem State.mark_freeCount (o lo n : Nat) : (s.mark o lo n).freeCount = s.freeCount := rfl
@[simp] theorem State.mark_pending (o lo n : Nat) : (s.mark o lo n).pending = s.pending := rfl
@[simp] theorem State.mark_sl (o lo n : Nat) (x : Nat) : (s.mark o lo n).sl x = s.sl x := rfl
@[simp] theorem State.mark_txn (o lo n : Nat) (x y : Nat) : (s.mark o lo n).txn x y = s.txn x y := rfl
@[simp] theorem State.mark_ag (o lo n : Nat) (x : Nat) : (s.mark o lo n).ag x = s.ag x := rfl
@[simp] theorem State.mark_lane (o lo n : Nat) (x : Nat) : (s.mark o lo n).lane x = s.lane x := rfl
@[simp] theorem State.mark_hub (o lo n : Nat) (x : Nat) : (s.mark o lo n).hub x = s.hub x := rfl
@[simp] theorem State.mark_view (o lo n : Nat) (x : Nat) : (s.mark o lo n).view x = s.view x := rfl
@[simp] theorem State.mark_flag (o lo n : Nat) (x y : Nat) : (s.mark o lo n).flag x y = s.flag x y := rfl
@[simp] theorem State.mark_fld (o lo n : Nat) (x y z : Nat) : (s.mark o lo n).fld x y z = s.fld x y z := rfl

/-! `State.incFld`. -/

@[simp] theorem State.incFld_fusing (o lo w n : Nat) : (s.incFld o lo w n).fusing = s.fusing := rfl
@[simp] theorem State.incFld_inReset (o lo w n : Nat) : (s.incFld o lo w n).inReset = s.inReset := rfl
@[simp] theorem State.incFld_ready (o lo w n : Nat) : (s.incFld o lo w n).ready = s.ready := rfl
@[simp] theorem State.incFld_failPin (o lo w n : Nat) : (s.incFld o lo w n).failPin = s.failPin := rfl
@[simp] theorem State.incFld_frame (o lo w n : Nat) : (s.incFld o lo w n).frame = s.frame := rfl
@[simp] theorem State.incFld_cfg (o lo w n : Nat) : (s.incFld o lo w n).cfg = s.cfg := rfl
@[simp] theorem State.incFld_committed (o lo w n : Nat) : (s.incFld o lo w n).committed = s.committed := rfl
@[simp] theorem State.incFld_commits (o lo w n : Nat) : (s.incFld o lo w n).commits = s.commits := rfl
@[simp] theorem State.incFld_edgeQ (o lo w n : Nat) : (s.incFld o lo w n).edgeQ = s.edgeQ := rfl
@[simp] theorem State.incFld_slices (o lo w n : Nat) : (s.incFld o lo w n).slices = s.slices := rfl
@[simp] theorem State.incFld_agents (o lo w n : Nat) : (s.incFld o lo w n).agents = s.agents := rfl
@[simp] theorem State.incFld_hubs (o lo w n : Nat) : (s.incFld o lo w n).hubs = s.hubs := rfl
@[simp] theorem State.incFld_lanes (o lo w n : Nat) : (s.incFld o lo w n).lanes = s.lanes := rfl
@[simp] theorem State.incFld_hubUp (o lo w n : Nat) : (s.incFld o lo w n).hubUp = s.hubUp := rfl
@[simp] theorem State.incFld_net (o lo w n : Nat) : (s.incFld o lo w n).net = s.net := rfl
@[simp] theorem State.incFld_inbound (o lo w n : Nat) : (s.incFld o lo w n).inbound = s.inbound := rfl
@[simp] theorem State.incFld_packets (o lo w n : Nat) : (s.incFld o lo w n).packets = s.packets := rfl
@[simp] theorem State.incFld_agenda (o lo w n : Nat) : (s.incFld o lo w n).agenda = s.agenda := rfl
@[simp] theorem State.incFld_expired (o lo w n : Nat) : (s.incFld o lo w n).expired = s.expired := rfl
@[simp] theorem State.incFld_lapsed (o lo w n : Nat) : (s.incFld o lo w n).lapsed = s.lapsed := rfl
@[simp] theorem State.incFld_recolorDue (o lo w n : Nat) : (s.incFld o lo w n).recolorDue = s.recolorDue := rfl
@[simp] theorem State.incFld_meterOff (o lo w n : Nat) : (s.incFld o lo w n).meterOff = s.meterOff := rfl
@[simp] theorem State.incFld_late (o lo w n : Nat) : (s.incFld o lo w n).late = s.late := rfl
@[simp] theorem State.incFld_samples (o lo w n : Nat) : (s.incFld o lo w n).samples = s.samples := rfl
@[simp] theorem State.incFld_out (o lo w n : Nat) : (s.incFld o lo w n).out = s.out := rfl
@[simp] theorem State.incFld_reads (o lo w n : Nat) : (s.incFld o lo w n).reads = s.reads := rfl
@[simp] theorem State.incFld_shown (o lo w n : Nat) : (s.incFld o lo w n).shown = s.shown := rfl
@[simp] theorem State.incFld_memFailed (o lo w n : Nat) : (s.incFld o lo w n).memFailed = s.memFailed := rfl
@[simp] theorem State.incFld_memDownDue (o lo w n : Nat) : (s.incFld o lo w n).memDownDue = s.memDownDue := rfl
@[simp] theorem State.incFld_pmSleepReq (o lo w n : Nat) : (s.incFld o lo w n).pmSleepReq = s.pmSleepReq := rfl
@[simp] theorem State.incFld_pmGrant (o lo w n : Nat) : (s.incFld o lo w n).pmGrant = s.pmGrant := rfl
@[simp] theorem State.incFld_hpRetireReq (o lo w n : Nat) : (s.incFld o lo w n).hpRetireReq = s.hpRetireReq := rfl
@[simp] theorem State.incFld_hpPermit (o lo w n : Nat) : (s.incFld o lo w n).hpPermit = s.hpPermit := rfl
@[simp] theorem State.incFld_hpSurprise (o lo w n : Nat) : (s.incFld o lo w n).hpSurprise = s.hpSurprise := rfl
@[simp] theorem State.incFld_vectors (o lo w n : Nat) : (s.incFld o lo w n).vectors = s.vectors := rfl
@[simp] theorem State.incFld_ring (o lo w n : Nat) : (s.incFld o lo w n).ring = s.ring := rfl
@[simp] theorem State.incFld_logNew (o lo w n : Nat) : (s.incFld o lo w n).logNew = s.logNew := rfl
@[simp] theorem State.incFld_routers (o lo w n : Nat) : (s.incFld o lo w n).routers = s.routers := rfl
@[simp] theorem State.incFld_boot (o lo w n : Nat) : (s.incFld o lo w n).boot = s.boot := rfl
@[simp] theorem State.incFld_cistern (o lo w n : Nat) : (s.incFld o lo w n).cistern = s.cistern := rfl
@[simp] theorem State.incFld_bus (o lo w n : Nat) : (s.incFld o lo w n).bus = s.bus := rfl
@[simp] theorem State.incFld_pmc (o lo w n : Nat) : (s.incFld o lo w n).pmc = s.pmc := rfl
@[simp] theorem State.incFld_hotSlices (o lo w n : Nat) : (s.incFld o lo w n).hotSlices = s.hotSlices := rfl
@[simp] theorem State.incFld_failDue (o lo w n : Nat) : (s.incFld o lo w n).failDue = s.failDue := rfl
@[simp] theorem State.incFld_refillAt (o lo w n : Nat) : (s.incFld o lo w n).refillAt = s.refillAt := rfl
@[simp] theorem State.incFld_leakAt (o lo w n : Nat) : (s.incFld o lo w n).leakAt = s.leakAt := rfl
@[simp] theorem State.incFld_secondAt (o lo w n : Nat) : (s.incFld o lo w n).secondAt = s.secondAt := rfl
@[simp] theorem State.incFld_freeCount (o lo w n : Nat) : (s.incFld o lo w n).freeCount = s.freeCount := rfl
@[simp] theorem State.incFld_pending (o lo w n : Nat) : (s.incFld o lo w n).pending = s.pending := rfl
@[simp] theorem State.incFld_sl (o lo w n : Nat) (x : Nat) : (s.incFld o lo w n).sl x = s.sl x := rfl
@[simp] theorem State.incFld_txn (o lo w n : Nat) (x y : Nat) : (s.incFld o lo w n).txn x y = s.txn x y := rfl
@[simp] theorem State.incFld_ag (o lo w n : Nat) (x : Nat) : (s.incFld o lo w n).ag x = s.ag x := rfl
@[simp] theorem State.incFld_lane (o lo w n : Nat) (x : Nat) : (s.incFld o lo w n).lane x = s.lane x := rfl
@[simp] theorem State.incFld_hub (o lo w n : Nat) (x : Nat) : (s.incFld o lo w n).hub x = s.hub x := rfl
@[simp] theorem State.incFld_view (o lo w n : Nat) (x : Nat) : (s.incFld o lo w n).view x = s.view x := rfl

/-! `State.noteFld`. -/

@[simp] theorem State.noteFld_fusing (o lo w v : Nat) : (s.noteFld o lo w v).fusing = s.fusing := rfl
@[simp] theorem State.noteFld_inReset (o lo w v : Nat) : (s.noteFld o lo w v).inReset = s.inReset := rfl
@[simp] theorem State.noteFld_ready (o lo w v : Nat) : (s.noteFld o lo w v).ready = s.ready := rfl
@[simp] theorem State.noteFld_failPin (o lo w v : Nat) : (s.noteFld o lo w v).failPin = s.failPin := rfl
@[simp] theorem State.noteFld_frame (o lo w v : Nat) : (s.noteFld o lo w v).frame = s.frame := rfl
@[simp] theorem State.noteFld_cfg (o lo w v : Nat) : (s.noteFld o lo w v).cfg = s.cfg := rfl
@[simp] theorem State.noteFld_committed (o lo w v : Nat) : (s.noteFld o lo w v).committed = s.committed := rfl
@[simp] theorem State.noteFld_commits (o lo w v : Nat) : (s.noteFld o lo w v).commits = s.commits := rfl
@[simp] theorem State.noteFld_edgeQ (o lo w v : Nat) : (s.noteFld o lo w v).edgeQ = s.edgeQ := rfl
@[simp] theorem State.noteFld_slices (o lo w v : Nat) : (s.noteFld o lo w v).slices = s.slices := rfl
@[simp] theorem State.noteFld_agents (o lo w v : Nat) : (s.noteFld o lo w v).agents = s.agents := rfl
@[simp] theorem State.noteFld_hubs (o lo w v : Nat) : (s.noteFld o lo w v).hubs = s.hubs := rfl
@[simp] theorem State.noteFld_lanes (o lo w v : Nat) : (s.noteFld o lo w v).lanes = s.lanes := rfl
@[simp] theorem State.noteFld_hubUp (o lo w v : Nat) : (s.noteFld o lo w v).hubUp = s.hubUp := rfl
@[simp] theorem State.noteFld_net (o lo w v : Nat) : (s.noteFld o lo w v).net = s.net := rfl
@[simp] theorem State.noteFld_inbound (o lo w v : Nat) : (s.noteFld o lo w v).inbound = s.inbound := rfl
@[simp] theorem State.noteFld_packets (o lo w v : Nat) : (s.noteFld o lo w v).packets = s.packets := rfl
@[simp] theorem State.noteFld_agenda (o lo w v : Nat) : (s.noteFld o lo w v).agenda = s.agenda := rfl
@[simp] theorem State.noteFld_expired (o lo w v : Nat) : (s.noteFld o lo w v).expired = s.expired := rfl
@[simp] theorem State.noteFld_lapsed (o lo w v : Nat) : (s.noteFld o lo w v).lapsed = s.lapsed := rfl
@[simp] theorem State.noteFld_recolorDue (o lo w v : Nat) : (s.noteFld o lo w v).recolorDue = s.recolorDue := rfl
@[simp] theorem State.noteFld_meterOff (o lo w v : Nat) : (s.noteFld o lo w v).meterOff = s.meterOff := rfl
@[simp] theorem State.noteFld_late (o lo w v : Nat) : (s.noteFld o lo w v).late = s.late := rfl
@[simp] theorem State.noteFld_samples (o lo w v : Nat) : (s.noteFld o lo w v).samples = s.samples := rfl
@[simp] theorem State.noteFld_out (o lo w v : Nat) : (s.noteFld o lo w v).out = s.out := rfl
@[simp] theorem State.noteFld_reads (o lo w v : Nat) : (s.noteFld o lo w v).reads = s.reads := rfl
@[simp] theorem State.noteFld_shown (o lo w v : Nat) : (s.noteFld o lo w v).shown = s.shown := rfl
@[simp] theorem State.noteFld_memFailed (o lo w v : Nat) : (s.noteFld o lo w v).memFailed = s.memFailed := rfl
@[simp] theorem State.noteFld_memDownDue (o lo w v : Nat) : (s.noteFld o lo w v).memDownDue = s.memDownDue := rfl
@[simp] theorem State.noteFld_pmSleepReq (o lo w v : Nat) : (s.noteFld o lo w v).pmSleepReq = s.pmSleepReq := rfl
@[simp] theorem State.noteFld_pmGrant (o lo w v : Nat) : (s.noteFld o lo w v).pmGrant = s.pmGrant := rfl
@[simp] theorem State.noteFld_hpRetireReq (o lo w v : Nat) : (s.noteFld o lo w v).hpRetireReq = s.hpRetireReq := rfl
@[simp] theorem State.noteFld_hpPermit (o lo w v : Nat) : (s.noteFld o lo w v).hpPermit = s.hpPermit := rfl
@[simp] theorem State.noteFld_hpSurprise (o lo w v : Nat) : (s.noteFld o lo w v).hpSurprise = s.hpSurprise := rfl
@[simp] theorem State.noteFld_vectors (o lo w v : Nat) : (s.noteFld o lo w v).vectors = s.vectors := rfl
@[simp] theorem State.noteFld_ring (o lo w v : Nat) : (s.noteFld o lo w v).ring = s.ring := rfl
@[simp] theorem State.noteFld_logNew (o lo w v : Nat) : (s.noteFld o lo w v).logNew = s.logNew := rfl
@[simp] theorem State.noteFld_routers (o lo w v : Nat) : (s.noteFld o lo w v).routers = s.routers := rfl
@[simp] theorem State.noteFld_boot (o lo w v : Nat) : (s.noteFld o lo w v).boot = s.boot := rfl
@[simp] theorem State.noteFld_cistern (o lo w v : Nat) : (s.noteFld o lo w v).cistern = s.cistern := rfl
@[simp] theorem State.noteFld_bus (o lo w v : Nat) : (s.noteFld o lo w v).bus = s.bus := rfl
@[simp] theorem State.noteFld_pmc (o lo w v : Nat) : (s.noteFld o lo w v).pmc = s.pmc := rfl
@[simp] theorem State.noteFld_hotSlices (o lo w v : Nat) : (s.noteFld o lo w v).hotSlices = s.hotSlices := rfl
@[simp] theorem State.noteFld_failDue (o lo w v : Nat) : (s.noteFld o lo w v).failDue = s.failDue := rfl
@[simp] theorem State.noteFld_refillAt (o lo w v : Nat) : (s.noteFld o lo w v).refillAt = s.refillAt := rfl
@[simp] theorem State.noteFld_leakAt (o lo w v : Nat) : (s.noteFld o lo w v).leakAt = s.leakAt := rfl
@[simp] theorem State.noteFld_secondAt (o lo w v : Nat) : (s.noteFld o lo w v).secondAt = s.secondAt := rfl
@[simp] theorem State.noteFld_freeCount (o lo w v : Nat) : (s.noteFld o lo w v).freeCount = s.freeCount := rfl
@[simp] theorem State.noteFld_pending (o lo w v : Nat) : (s.noteFld o lo w v).pending = s.pending := rfl
@[simp] theorem State.noteFld_sl (o lo w v : Nat) (x : Nat) : (s.noteFld o lo w v).sl x = s.sl x := rfl
@[simp] theorem State.noteFld_txn (o lo w v : Nat) (x y : Nat) : (s.noteFld o lo w v).txn x y = s.txn x y := rfl
@[simp] theorem State.noteFld_ag (o lo w v : Nat) (x : Nat) : (s.noteFld o lo w v).ag x = s.ag x := rfl
@[simp] theorem State.noteFld_lane (o lo w v : Nat) (x : Nat) : (s.noteFld o lo w v).lane x = s.lane x := rfl
@[simp] theorem State.noteFld_hub (o lo w v : Nat) (x : Nat) : (s.noteFld o lo w v).hub x = s.hub x := rfl
@[simp] theorem State.noteFld_view (o lo w v : Nat) (x : Nat) : (s.noteFld o lo w v).view x = s.view x := rfl

/-! `State.setFlag`. -/

@[simp] theorem State.setFlag_fusing (o b : Nat) (v : Bool) : (s.setFlag o b v).fusing = s.fusing := by cases v <;> rfl
@[simp] theorem State.setFlag_inReset (o b : Nat) (v : Bool) : (s.setFlag o b v).inReset = s.inReset := by cases v <;> rfl
@[simp] theorem State.setFlag_ready (o b : Nat) (v : Bool) : (s.setFlag o b v).ready = s.ready := by cases v <;> rfl
@[simp] theorem State.setFlag_failPin (o b : Nat) (v : Bool) : (s.setFlag o b v).failPin = s.failPin := by cases v <;> rfl
@[simp] theorem State.setFlag_frame (o b : Nat) (v : Bool) : (s.setFlag o b v).frame = s.frame := by cases v <;> rfl
@[simp] theorem State.setFlag_cfg (o b : Nat) (v : Bool) : (s.setFlag o b v).cfg = s.cfg := by cases v <;> rfl
@[simp] theorem State.setFlag_committed (o b : Nat) (v : Bool) : (s.setFlag o b v).committed = s.committed := by cases v <;> rfl
@[simp] theorem State.setFlag_commits (o b : Nat) (v : Bool) : (s.setFlag o b v).commits = s.commits := by cases v <;> rfl
@[simp] theorem State.setFlag_edgeQ (o b : Nat) (v : Bool) : (s.setFlag o b v).edgeQ = s.edgeQ := by cases v <;> rfl
@[simp] theorem State.setFlag_slices (o b : Nat) (v : Bool) : (s.setFlag o b v).slices = s.slices := by cases v <;> rfl
@[simp] theorem State.setFlag_agents (o b : Nat) (v : Bool) : (s.setFlag o b v).agents = s.agents := by cases v <;> rfl
@[simp] theorem State.setFlag_hubs (o b : Nat) (v : Bool) : (s.setFlag o b v).hubs = s.hubs := by cases v <;> rfl
@[simp] theorem State.setFlag_lanes (o b : Nat) (v : Bool) : (s.setFlag o b v).lanes = s.lanes := by cases v <;> rfl
@[simp] theorem State.setFlag_hubUp (o b : Nat) (v : Bool) : (s.setFlag o b v).hubUp = s.hubUp := by cases v <;> rfl
@[simp] theorem State.setFlag_net (o b : Nat) (v : Bool) : (s.setFlag o b v).net = s.net := by cases v <;> rfl
@[simp] theorem State.setFlag_inbound (o b : Nat) (v : Bool) : (s.setFlag o b v).inbound = s.inbound := by cases v <;> rfl
@[simp] theorem State.setFlag_packets (o b : Nat) (v : Bool) : (s.setFlag o b v).packets = s.packets := by cases v <;> rfl
@[simp] theorem State.setFlag_agenda (o b : Nat) (v : Bool) : (s.setFlag o b v).agenda = s.agenda := by cases v <;> rfl
@[simp] theorem State.setFlag_expired (o b : Nat) (v : Bool) : (s.setFlag o b v).expired = s.expired := by cases v <;> rfl
@[simp] theorem State.setFlag_lapsed (o b : Nat) (v : Bool) : (s.setFlag o b v).lapsed = s.lapsed := by cases v <;> rfl
@[simp] theorem State.setFlag_recolorDue (o b : Nat) (v : Bool) : (s.setFlag o b v).recolorDue = s.recolorDue := by cases v <;> rfl
@[simp] theorem State.setFlag_meterOff (o b : Nat) (v : Bool) : (s.setFlag o b v).meterOff = s.meterOff := by cases v <;> rfl
@[simp] theorem State.setFlag_late (o b : Nat) (v : Bool) : (s.setFlag o b v).late = s.late := by cases v <;> rfl
@[simp] theorem State.setFlag_samples (o b : Nat) (v : Bool) : (s.setFlag o b v).samples = s.samples := by cases v <;> rfl
@[simp] theorem State.setFlag_out (o b : Nat) (v : Bool) : (s.setFlag o b v).out = s.out := by cases v <;> rfl
@[simp] theorem State.setFlag_reads (o b : Nat) (v : Bool) : (s.setFlag o b v).reads = s.reads := by cases v <;> rfl
@[simp] theorem State.setFlag_shown (o b : Nat) (v : Bool) : (s.setFlag o b v).shown = s.shown := by cases v <;> rfl
@[simp] theorem State.setFlag_memFailed (o b : Nat) (v : Bool) : (s.setFlag o b v).memFailed = s.memFailed := by cases v <;> rfl
@[simp] theorem State.setFlag_memDownDue (o b : Nat) (v : Bool) : (s.setFlag o b v).memDownDue = s.memDownDue := by cases v <;> rfl
@[simp] theorem State.setFlag_pmSleepReq (o b : Nat) (v : Bool) : (s.setFlag o b v).pmSleepReq = s.pmSleepReq := by cases v <;> rfl
@[simp] theorem State.setFlag_pmGrant (o b : Nat) (v : Bool) : (s.setFlag o b v).pmGrant = s.pmGrant := by cases v <;> rfl
@[simp] theorem State.setFlag_hpRetireReq (o b : Nat) (v : Bool) : (s.setFlag o b v).hpRetireReq = s.hpRetireReq := by cases v <;> rfl
@[simp] theorem State.setFlag_hpPermit (o b : Nat) (v : Bool) : (s.setFlag o b v).hpPermit = s.hpPermit := by cases v <;> rfl
@[simp] theorem State.setFlag_hpSurprise (o b : Nat) (v : Bool) : (s.setFlag o b v).hpSurprise = s.hpSurprise := by cases v <;> rfl
@[simp] theorem State.setFlag_vectors (o b : Nat) (v : Bool) : (s.setFlag o b v).vectors = s.vectors := by cases v <;> rfl
@[simp] theorem State.setFlag_ring (o b : Nat) (v : Bool) : (s.setFlag o b v).ring = s.ring := by cases v <;> rfl
@[simp] theorem State.setFlag_logNew (o b : Nat) (v : Bool) : (s.setFlag o b v).logNew = s.logNew := by cases v <;> rfl
@[simp] theorem State.setFlag_routers (o b : Nat) (v : Bool) : (s.setFlag o b v).routers = s.routers := by cases v <;> rfl
@[simp] theorem State.setFlag_boot (o b : Nat) (v : Bool) : (s.setFlag o b v).boot = s.boot := by cases v <;> rfl
@[simp] theorem State.setFlag_cistern (o b : Nat) (v : Bool) : (s.setFlag o b v).cistern = s.cistern := by cases v <;> rfl
@[simp] theorem State.setFlag_bus (o b : Nat) (v : Bool) : (s.setFlag o b v).bus = s.bus := by cases v <;> rfl
@[simp] theorem State.setFlag_pmc (o b : Nat) (v : Bool) : (s.setFlag o b v).pmc = s.pmc := by cases v <;> rfl
@[simp] theorem State.setFlag_hotSlices (o b : Nat) (v : Bool) : (s.setFlag o b v).hotSlices = s.hotSlices := by cases v <;> rfl
@[simp] theorem State.setFlag_failDue (o b : Nat) (v : Bool) : (s.setFlag o b v).failDue = s.failDue := by cases v <;> rfl
@[simp] theorem State.setFlag_refillAt (o b : Nat) (v : Bool) : (s.setFlag o b v).refillAt = s.refillAt := by cases v <;> rfl
@[simp] theorem State.setFlag_leakAt (o b : Nat) (v : Bool) : (s.setFlag o b v).leakAt = s.leakAt := by cases v <;> rfl
@[simp] theorem State.setFlag_secondAt (o b : Nat) (v : Bool) : (s.setFlag o b v).secondAt = s.secondAt := by cases v <;> rfl
@[simp] theorem State.setFlag_freeCount (o b : Nat) (v : Bool) : (s.setFlag o b v).freeCount = s.freeCount := by cases v <;> rfl
@[simp] theorem State.setFlag_pending (o b : Nat) (v : Bool) : (s.setFlag o b v).pending = s.pending := by cases v <;> rfl
@[simp] theorem State.setFlag_sl (o b : Nat) (v : Bool) (x : Nat) : (s.setFlag o b v).sl x = s.sl x := by cases v <;> rfl
@[simp] theorem State.setFlag_txn (o b : Nat) (v : Bool) (x y : Nat) : (s.setFlag o b v).txn x y = s.txn x y := by cases v <;> rfl
@[simp] theorem State.setFlag_ag (o b : Nat) (v : Bool) (x : Nat) : (s.setFlag o b v).ag x = s.ag x := by cases v <;> rfl
@[simp] theorem State.setFlag_lane (o b : Nat) (v : Bool) (x : Nat) : (s.setFlag o b v).lane x = s.lane x := by cases v <;> rfl
@[simp] theorem State.setFlag_hub (o b : Nat) (v : Bool) (x : Nat) : (s.setFlag o b v).hub x = s.hub x := by cases v <;> rfl
@[simp] theorem State.setFlag_view (o b : Nat) (v : Bool) (x : Nat) : (s.setFlag o b v).view x = s.view x := by cases v <;> rfl

/-! `State.setSl`. -/

@[simp] theorem State.setSl_fusing (k : Nat) (v : Slice) : (s.setSl k v).fusing = s.fusing := rfl
@[simp] theorem State.setSl_inReset (k : Nat) (v : Slice) : (s.setSl k v).inReset = s.inReset := rfl
@[simp] theorem State.setSl_ready (k : Nat) (v : Slice) : (s.setSl k v).ready = s.ready := rfl
@[simp] theorem State.setSl_failPin (k : Nat) (v : Slice) : (s.setSl k v).failPin = s.failPin := rfl
@[simp] theorem State.setSl_frame (k : Nat) (v : Slice) : (s.setSl k v).frame = s.frame := rfl
@[simp] theorem State.setSl_regs (k : Nat) (v : Slice) : (s.setSl k v).regs = s.regs := rfl
@[simp] theorem State.setSl_marks (k : Nat) (v : Slice) : (s.setSl k v).marks = s.marks := rfl
@[simp] theorem State.setSl_cfg (k : Nat) (v : Slice) : (s.setSl k v).cfg = s.cfg := rfl
@[simp] theorem State.setSl_committed (k : Nat) (v : Slice) : (s.setSl k v).committed = s.committed := rfl
@[simp] theorem State.setSl_commits (k : Nat) (v : Slice) : (s.setSl k v).commits = s.commits := rfl
@[simp] theorem State.setSl_edgeQ (k : Nat) (v : Slice) : (s.setSl k v).edgeQ = s.edgeQ := rfl
@[simp] theorem State.setSl_agents (k : Nat) (v : Slice) : (s.setSl k v).agents = s.agents := rfl
@[simp] theorem State.setSl_hubs (k : Nat) (v : Slice) : (s.setSl k v).hubs = s.hubs := rfl
@[simp] theorem State.setSl_lanes (k : Nat) (v : Slice) : (s.setSl k v).lanes = s.lanes := rfl
@[simp] theorem State.setSl_hubUp (k : Nat) (v : Slice) : (s.setSl k v).hubUp = s.hubUp := rfl
@[simp] theorem State.setSl_net (k : Nat) (v : Slice) : (s.setSl k v).net = s.net := rfl
@[simp] theorem State.setSl_inbound (k : Nat) (v : Slice) : (s.setSl k v).inbound = s.inbound := rfl
@[simp] theorem State.setSl_packets (k : Nat) (v : Slice) : (s.setSl k v).packets = s.packets := rfl
@[simp] theorem State.setSl_agenda (k : Nat) (v : Slice) : (s.setSl k v).agenda = s.agenda := rfl
@[simp] theorem State.setSl_expired (k : Nat) (v : Slice) : (s.setSl k v).expired = s.expired := rfl
@[simp] theorem State.setSl_lapsed (k : Nat) (v : Slice) : (s.setSl k v).lapsed = s.lapsed := rfl
@[simp] theorem State.setSl_recolorDue (k : Nat) (v : Slice) : (s.setSl k v).recolorDue = s.recolorDue := rfl
@[simp] theorem State.setSl_meterOff (k : Nat) (v : Slice) : (s.setSl k v).meterOff = s.meterOff := rfl
@[simp] theorem State.setSl_late (k : Nat) (v : Slice) : (s.setSl k v).late = s.late := rfl
@[simp] theorem State.setSl_samples (k : Nat) (v : Slice) : (s.setSl k v).samples = s.samples := rfl
@[simp] theorem State.setSl_out (k : Nat) (v : Slice) : (s.setSl k v).out = s.out := rfl
@[simp] theorem State.setSl_reads (k : Nat) (v : Slice) : (s.setSl k v).reads = s.reads := rfl
@[simp] theorem State.setSl_shown (k : Nat) (v : Slice) : (s.setSl k v).shown = s.shown := rfl
@[simp] theorem State.setSl_memFailed (k : Nat) (v : Slice) : (s.setSl k v).memFailed = s.memFailed := rfl
@[simp] theorem State.setSl_memDownDue (k : Nat) (v : Slice) : (s.setSl k v).memDownDue = s.memDownDue := rfl
@[simp] theorem State.setSl_pmSleepReq (k : Nat) (v : Slice) : (s.setSl k v).pmSleepReq = s.pmSleepReq := rfl
@[simp] theorem State.setSl_pmGrant (k : Nat) (v : Slice) : (s.setSl k v).pmGrant = s.pmGrant := rfl
@[simp] theorem State.setSl_hpRetireReq (k : Nat) (v : Slice) : (s.setSl k v).hpRetireReq = s.hpRetireReq := rfl
@[simp] theorem State.setSl_hpPermit (k : Nat) (v : Slice) : (s.setSl k v).hpPermit = s.hpPermit := rfl
@[simp] theorem State.setSl_hpSurprise (k : Nat) (v : Slice) : (s.setSl k v).hpSurprise = s.hpSurprise := rfl
@[simp] theorem State.setSl_vectors (k : Nat) (v : Slice) : (s.setSl k v).vectors = s.vectors := rfl
@[simp] theorem State.setSl_ring (k : Nat) (v : Slice) : (s.setSl k v).ring = s.ring := rfl
@[simp] theorem State.setSl_logNew (k : Nat) (v : Slice) : (s.setSl k v).logNew = s.logNew := rfl
@[simp] theorem State.setSl_routers (k : Nat) (v : Slice) : (s.setSl k v).routers = s.routers := rfl
@[simp] theorem State.setSl_boot (k : Nat) (v : Slice) : (s.setSl k v).boot = s.boot := rfl
@[simp] theorem State.setSl_cistern (k : Nat) (v : Slice) : (s.setSl k v).cistern = s.cistern := rfl
@[simp] theorem State.setSl_bus (k : Nat) (v : Slice) : (s.setSl k v).bus = s.bus := rfl
@[simp] theorem State.setSl_pmc (k : Nat) (v : Slice) : (s.setSl k v).pmc = s.pmc := rfl
@[simp] theorem State.setSl_hotSlices (k : Nat) (v : Slice) : (s.setSl k v).hotSlices = s.hotSlices := rfl
@[simp] theorem State.setSl_failDue (k : Nat) (v : Slice) : (s.setSl k v).failDue = s.failDue := rfl
@[simp] theorem State.setSl_refillAt (k : Nat) (v : Slice) : (s.setSl k v).refillAt = s.refillAt := rfl
@[simp] theorem State.setSl_leakAt (k : Nat) (v : Slice) : (s.setSl k v).leakAt = s.leakAt := rfl
@[simp] theorem State.setSl_secondAt (k : Nat) (v : Slice) : (s.setSl k v).secondAt = s.secondAt := rfl
@[simp] theorem State.setSl_freeCount (k : Nat) (v : Slice) : (s.setSl k v).freeCount = s.freeCount := rfl
@[simp] theorem State.setSl_pending (k : Nat) (v : Slice) : (s.setSl k v).pending = s.pending := rfl
@[simp] theorem State.setSl_reg (k : Nat) (v : Slice) (x : Nat) : (s.setSl k v).reg x = s.reg x := rfl
@[simp] theorem State.setSl_ag (k : Nat) (v : Slice) (x : Nat) : (s.setSl k v).ag x = s.ag x := rfl
@[simp] theorem State.setSl_lane (k : Nat) (v : Slice) (x : Nat) : (s.setSl k v).lane x = s.lane x := rfl
@[simp] theorem State.setSl_hub (k : Nat) (v : Slice) (x : Nat) : (s.setSl k v).hub x = s.hub x := rfl
@[simp] theorem State.setSl_view (k : Nat) (v : Slice) (x : Nat) : (s.setSl k v).view x = s.view x := rfl
@[simp] theorem State.setSl_flag (k : Nat) (v : Slice) (x y : Nat) : (s.setSl k v).flag x y = s.flag x y := rfl
@[simp] theorem State.setSl_fld (k : Nat) (v : Slice) (x y z : Nat) : (s.setSl k v).fld x y z = s.fld x y z := rfl

/-! `State.updSl`. -/

@[simp] theorem State.updSl_fusing (k : Nat) (f : Slice → Slice) : (s.updSl k f).fusing = s.fusing := rfl
@[simp] theorem State.updSl_inReset (k : Nat) (f : Slice → Slice) : (s.updSl k f).inReset = s.inReset := rfl
@[simp] theorem State.updSl_ready (k : Nat) (f : Slice → Slice) : (s.updSl k f).ready = s.ready := rfl
@[simp] theorem State.updSl_failPin (k : Nat) (f : Slice → Slice) : (s.updSl k f).failPin = s.failPin := rfl
@[simp] theorem State.updSl_frame (k : Nat) (f : Slice → Slice) : (s.updSl k f).frame = s.frame := rfl
@[simp] theorem State.updSl_regs (k : Nat) (f : Slice → Slice) : (s.updSl k f).regs = s.regs := rfl
@[simp] theorem State.updSl_marks (k : Nat) (f : Slice → Slice) : (s.updSl k f).marks = s.marks := rfl
@[simp] theorem State.updSl_cfg (k : Nat) (f : Slice → Slice) : (s.updSl k f).cfg = s.cfg := rfl
@[simp] theorem State.updSl_committed (k : Nat) (f : Slice → Slice) : (s.updSl k f).committed = s.committed := rfl
@[simp] theorem State.updSl_commits (k : Nat) (f : Slice → Slice) : (s.updSl k f).commits = s.commits := rfl
@[simp] theorem State.updSl_edgeQ (k : Nat) (f : Slice → Slice) : (s.updSl k f).edgeQ = s.edgeQ := rfl
@[simp] theorem State.updSl_agents (k : Nat) (f : Slice → Slice) : (s.updSl k f).agents = s.agents := rfl
@[simp] theorem State.updSl_hubs (k : Nat) (f : Slice → Slice) : (s.updSl k f).hubs = s.hubs := rfl
@[simp] theorem State.updSl_lanes (k : Nat) (f : Slice → Slice) : (s.updSl k f).lanes = s.lanes := rfl
@[simp] theorem State.updSl_hubUp (k : Nat) (f : Slice → Slice) : (s.updSl k f).hubUp = s.hubUp := rfl
@[simp] theorem State.updSl_net (k : Nat) (f : Slice → Slice) : (s.updSl k f).net = s.net := rfl
@[simp] theorem State.updSl_inbound (k : Nat) (f : Slice → Slice) : (s.updSl k f).inbound = s.inbound := rfl
@[simp] theorem State.updSl_packets (k : Nat) (f : Slice → Slice) : (s.updSl k f).packets = s.packets := rfl
@[simp] theorem State.updSl_agenda (k : Nat) (f : Slice → Slice) : (s.updSl k f).agenda = s.agenda := rfl
@[simp] theorem State.updSl_expired (k : Nat) (f : Slice → Slice) : (s.updSl k f).expired = s.expired := rfl
@[simp] theorem State.updSl_lapsed (k : Nat) (f : Slice → Slice) : (s.updSl k f).lapsed = s.lapsed := rfl
@[simp] theorem State.updSl_recolorDue (k : Nat) (f : Slice → Slice) : (s.updSl k f).recolorDue = s.recolorDue := rfl
@[simp] theorem State.updSl_meterOff (k : Nat) (f : Slice → Slice) : (s.updSl k f).meterOff = s.meterOff := rfl
@[simp] theorem State.updSl_late (k : Nat) (f : Slice → Slice) : (s.updSl k f).late = s.late := rfl
@[simp] theorem State.updSl_samples (k : Nat) (f : Slice → Slice) : (s.updSl k f).samples = s.samples := rfl
@[simp] theorem State.updSl_out (k : Nat) (f : Slice → Slice) : (s.updSl k f).out = s.out := rfl
@[simp] theorem State.updSl_reads (k : Nat) (f : Slice → Slice) : (s.updSl k f).reads = s.reads := rfl
@[simp] theorem State.updSl_shown (k : Nat) (f : Slice → Slice) : (s.updSl k f).shown = s.shown := rfl
@[simp] theorem State.updSl_memFailed (k : Nat) (f : Slice → Slice) : (s.updSl k f).memFailed = s.memFailed := rfl
@[simp] theorem State.updSl_memDownDue (k : Nat) (f : Slice → Slice) : (s.updSl k f).memDownDue = s.memDownDue := rfl
@[simp] theorem State.updSl_pmSleepReq (k : Nat) (f : Slice → Slice) : (s.updSl k f).pmSleepReq = s.pmSleepReq := rfl
@[simp] theorem State.updSl_pmGrant (k : Nat) (f : Slice → Slice) : (s.updSl k f).pmGrant = s.pmGrant := rfl
@[simp] theorem State.updSl_hpRetireReq (k : Nat) (f : Slice → Slice) : (s.updSl k f).hpRetireReq = s.hpRetireReq := rfl
@[simp] theorem State.updSl_hpPermit (k : Nat) (f : Slice → Slice) : (s.updSl k f).hpPermit = s.hpPermit := rfl
@[simp] theorem State.updSl_hpSurprise (k : Nat) (f : Slice → Slice) : (s.updSl k f).hpSurprise = s.hpSurprise := rfl
@[simp] theorem State.updSl_vectors (k : Nat) (f : Slice → Slice) : (s.updSl k f).vectors = s.vectors := rfl
@[simp] theorem State.updSl_ring (k : Nat) (f : Slice → Slice) : (s.updSl k f).ring = s.ring := rfl
@[simp] theorem State.updSl_logNew (k : Nat) (f : Slice → Slice) : (s.updSl k f).logNew = s.logNew := rfl
@[simp] theorem State.updSl_routers (k : Nat) (f : Slice → Slice) : (s.updSl k f).routers = s.routers := rfl
@[simp] theorem State.updSl_boot (k : Nat) (f : Slice → Slice) : (s.updSl k f).boot = s.boot := rfl
@[simp] theorem State.updSl_cistern (k : Nat) (f : Slice → Slice) : (s.updSl k f).cistern = s.cistern := rfl
@[simp] theorem State.updSl_bus (k : Nat) (f : Slice → Slice) : (s.updSl k f).bus = s.bus := rfl
@[simp] theorem State.updSl_pmc (k : Nat) (f : Slice → Slice) : (s.updSl k f).pmc = s.pmc := rfl
@[simp] theorem State.updSl_hotSlices (k : Nat) (f : Slice → Slice) : (s.updSl k f).hotSlices = s.hotSlices := rfl
@[simp] theorem State.updSl_failDue (k : Nat) (f : Slice → Slice) : (s.updSl k f).failDue = s.failDue := rfl
@[simp] theorem State.updSl_refillAt (k : Nat) (f : Slice → Slice) : (s.updSl k f).refillAt = s.refillAt := rfl
@[simp] theorem State.updSl_leakAt (k : Nat) (f : Slice → Slice) : (s.updSl k f).leakAt = s.leakAt := rfl
@[simp] theorem State.updSl_secondAt (k : Nat) (f : Slice → Slice) : (s.updSl k f).secondAt = s.secondAt := rfl
@[simp] theorem State.updSl_freeCount (k : Nat) (f : Slice → Slice) : (s.updSl k f).freeCount = s.freeCount := rfl
@[simp] theorem State.updSl_pending (k : Nat) (f : Slice → Slice) : (s.updSl k f).pending = s.pending := rfl
@[simp] theorem State.updSl_reg (k : Nat) (f : Slice → Slice) (x : Nat) : (s.updSl k f).reg x = s.reg x := rfl
@[simp] theorem State.updSl_ag (k : Nat) (f : Slice → Slice) (x : Nat) : (s.updSl k f).ag x = s.ag x := rfl
@[simp] theorem State.updSl_lane (k : Nat) (f : Slice → Slice) (x : Nat) : (s.updSl k f).lane x = s.lane x := rfl
@[simp] theorem State.updSl_hub (k : Nat) (f : Slice → Slice) (x : Nat) : (s.updSl k f).hub x = s.hub x := rfl
@[simp] theorem State.updSl_view (k : Nat) (f : Slice → Slice) (x : Nat) : (s.updSl k f).view x = s.view x := rfl
@[simp] theorem State.updSl_flag (k : Nat) (f : Slice → Slice) (x y : Nat) : (s.updSl k f).flag x y = s.flag x y := rfl
@[simp] theorem State.updSl_fld (k : Nat) (f : Slice → Slice) (x y z : Nat) : (s.updSl k f).fld x y z = s.fld x y z := rfl

/-! `State.setTxn`. -/

@[simp] theorem State.setTxn_fusing (k t : Nat) (v : Txn) : (s.setTxn k t v).fusing = s.fusing := rfl
@[simp] theorem State.setTxn_inReset (k t : Nat) (v : Txn) : (s.setTxn k t v).inReset = s.inReset := rfl
@[simp] theorem State.setTxn_ready (k t : Nat) (v : Txn) : (s.setTxn k t v).ready = s.ready := rfl
@[simp] theorem State.setTxn_failPin (k t : Nat) (v : Txn) : (s.setTxn k t v).failPin = s.failPin := rfl
@[simp] theorem State.setTxn_frame (k t : Nat) (v : Txn) : (s.setTxn k t v).frame = s.frame := rfl
@[simp] theorem State.setTxn_regs (k t : Nat) (v : Txn) : (s.setTxn k t v).regs = s.regs := rfl
@[simp] theorem State.setTxn_marks (k t : Nat) (v : Txn) : (s.setTxn k t v).marks = s.marks := rfl
@[simp] theorem State.setTxn_cfg (k t : Nat) (v : Txn) : (s.setTxn k t v).cfg = s.cfg := rfl
@[simp] theorem State.setTxn_committed (k t : Nat) (v : Txn) : (s.setTxn k t v).committed = s.committed := rfl
@[simp] theorem State.setTxn_commits (k t : Nat) (v : Txn) : (s.setTxn k t v).commits = s.commits := rfl
@[simp] theorem State.setTxn_edgeQ (k t : Nat) (v : Txn) : (s.setTxn k t v).edgeQ = s.edgeQ := rfl
@[simp] theorem State.setTxn_agents (k t : Nat) (v : Txn) : (s.setTxn k t v).agents = s.agents := rfl
@[simp] theorem State.setTxn_hubs (k t : Nat) (v : Txn) : (s.setTxn k t v).hubs = s.hubs := rfl
@[simp] theorem State.setTxn_lanes (k t : Nat) (v : Txn) : (s.setTxn k t v).lanes = s.lanes := rfl
@[simp] theorem State.setTxn_hubUp (k t : Nat) (v : Txn) : (s.setTxn k t v).hubUp = s.hubUp := rfl
@[simp] theorem State.setTxn_net (k t : Nat) (v : Txn) : (s.setTxn k t v).net = s.net := rfl
@[simp] theorem State.setTxn_inbound (k t : Nat) (v : Txn) : (s.setTxn k t v).inbound = s.inbound := rfl
@[simp] theorem State.setTxn_packets (k t : Nat) (v : Txn) : (s.setTxn k t v).packets = s.packets := rfl
@[simp] theorem State.setTxn_agenda (k t : Nat) (v : Txn) : (s.setTxn k t v).agenda = s.agenda := rfl
@[simp] theorem State.setTxn_expired (k t : Nat) (v : Txn) : (s.setTxn k t v).expired = s.expired := rfl
@[simp] theorem State.setTxn_lapsed (k t : Nat) (v : Txn) : (s.setTxn k t v).lapsed = s.lapsed := rfl
@[simp] theorem State.setTxn_recolorDue (k t : Nat) (v : Txn) : (s.setTxn k t v).recolorDue = s.recolorDue := rfl
@[simp] theorem State.setTxn_meterOff (k t : Nat) (v : Txn) : (s.setTxn k t v).meterOff = s.meterOff := rfl
@[simp] theorem State.setTxn_late (k t : Nat) (v : Txn) : (s.setTxn k t v).late = s.late := rfl
@[simp] theorem State.setTxn_samples (k t : Nat) (v : Txn) : (s.setTxn k t v).samples = s.samples := rfl
@[simp] theorem State.setTxn_out (k t : Nat) (v : Txn) : (s.setTxn k t v).out = s.out := rfl
@[simp] theorem State.setTxn_reads (k t : Nat) (v : Txn) : (s.setTxn k t v).reads = s.reads := rfl
@[simp] theorem State.setTxn_shown (k t : Nat) (v : Txn) : (s.setTxn k t v).shown = s.shown := rfl
@[simp] theorem State.setTxn_memFailed (k t : Nat) (v : Txn) : (s.setTxn k t v).memFailed = s.memFailed := rfl
@[simp] theorem State.setTxn_memDownDue (k t : Nat) (v : Txn) : (s.setTxn k t v).memDownDue = s.memDownDue := rfl
@[simp] theorem State.setTxn_pmSleepReq (k t : Nat) (v : Txn) : (s.setTxn k t v).pmSleepReq = s.pmSleepReq := rfl
@[simp] theorem State.setTxn_pmGrant (k t : Nat) (v : Txn) : (s.setTxn k t v).pmGrant = s.pmGrant := rfl
@[simp] theorem State.setTxn_hpRetireReq (k t : Nat) (v : Txn) : (s.setTxn k t v).hpRetireReq = s.hpRetireReq := rfl
@[simp] theorem State.setTxn_hpPermit (k t : Nat) (v : Txn) : (s.setTxn k t v).hpPermit = s.hpPermit := rfl
@[simp] theorem State.setTxn_hpSurprise (k t : Nat) (v : Txn) : (s.setTxn k t v).hpSurprise = s.hpSurprise := rfl
@[simp] theorem State.setTxn_vectors (k t : Nat) (v : Txn) : (s.setTxn k t v).vectors = s.vectors := rfl
@[simp] theorem State.setTxn_ring (k t : Nat) (v : Txn) : (s.setTxn k t v).ring = s.ring := rfl
@[simp] theorem State.setTxn_logNew (k t : Nat) (v : Txn) : (s.setTxn k t v).logNew = s.logNew := rfl
@[simp] theorem State.setTxn_routers (k t : Nat) (v : Txn) : (s.setTxn k t v).routers = s.routers := rfl
@[simp] theorem State.setTxn_boot (k t : Nat) (v : Txn) : (s.setTxn k t v).boot = s.boot := rfl
@[simp] theorem State.setTxn_cistern (k t : Nat) (v : Txn) : (s.setTxn k t v).cistern = s.cistern := rfl
@[simp] theorem State.setTxn_bus (k t : Nat) (v : Txn) : (s.setTxn k t v).bus = s.bus := rfl
@[simp] theorem State.setTxn_pmc (k t : Nat) (v : Txn) : (s.setTxn k t v).pmc = s.pmc := rfl
@[simp] theorem State.setTxn_hotSlices (k t : Nat) (v : Txn) : (s.setTxn k t v).hotSlices = s.hotSlices := rfl
@[simp] theorem State.setTxn_failDue (k t : Nat) (v : Txn) : (s.setTxn k t v).failDue = s.failDue := rfl
@[simp] theorem State.setTxn_refillAt (k t : Nat) (v : Txn) : (s.setTxn k t v).refillAt = s.refillAt := rfl
@[simp] theorem State.setTxn_leakAt (k t : Nat) (v : Txn) : (s.setTxn k t v).leakAt = s.leakAt := rfl
@[simp] theorem State.setTxn_secondAt (k t : Nat) (v : Txn) : (s.setTxn k t v).secondAt = s.secondAt := rfl
@[simp] theorem State.setTxn_freeCount (k t : Nat) (v : Txn) : (s.setTxn k t v).freeCount = s.freeCount := rfl
@[simp] theorem State.setTxn_pending (k t : Nat) (v : Txn) : (s.setTxn k t v).pending = s.pending := rfl
@[simp] theorem State.setTxn_reg (k t : Nat) (v : Txn) (x : Nat) : (s.setTxn k t v).reg x = s.reg x := rfl
@[simp] theorem State.setTxn_ag (k t : Nat) (v : Txn) (x : Nat) : (s.setTxn k t v).ag x = s.ag x := rfl
@[simp] theorem State.setTxn_lane (k t : Nat) (v : Txn) (x : Nat) : (s.setTxn k t v).lane x = s.lane x := rfl
@[simp] theorem State.setTxn_hub (k t : Nat) (v : Txn) (x : Nat) : (s.setTxn k t v).hub x = s.hub x := rfl
@[simp] theorem State.setTxn_view (k t : Nat) (v : Txn) (x : Nat) : (s.setTxn k t v).view x = s.view x := rfl
@[simp] theorem State.setTxn_flag (k t : Nat) (v : Txn) (x y : Nat) : (s.setTxn k t v).flag x y = s.flag x y := rfl
@[simp] theorem State.setTxn_fld (k t : Nat) (v : Txn) (x y z : Nat) : (s.setTxn k t v).fld x y z = s.fld x y z := rfl

/-! `State.setAg`. -/

@[simp] theorem State.setAg_fusing (a : Nat) (v : Agent) : (s.setAg a v).fusing = s.fusing := rfl
@[simp] theorem State.setAg_inReset (a : Nat) (v : Agent) : (s.setAg a v).inReset = s.inReset := rfl
@[simp] theorem State.setAg_ready (a : Nat) (v : Agent) : (s.setAg a v).ready = s.ready := rfl
@[simp] theorem State.setAg_failPin (a : Nat) (v : Agent) : (s.setAg a v).failPin = s.failPin := rfl
@[simp] theorem State.setAg_frame (a : Nat) (v : Agent) : (s.setAg a v).frame = s.frame := rfl
@[simp] theorem State.setAg_regs (a : Nat) (v : Agent) : (s.setAg a v).regs = s.regs := rfl
@[simp] theorem State.setAg_marks (a : Nat) (v : Agent) : (s.setAg a v).marks = s.marks := rfl
@[simp] theorem State.setAg_cfg (a : Nat) (v : Agent) : (s.setAg a v).cfg = s.cfg := rfl
@[simp] theorem State.setAg_committed (a : Nat) (v : Agent) : (s.setAg a v).committed = s.committed := rfl
@[simp] theorem State.setAg_commits (a : Nat) (v : Agent) : (s.setAg a v).commits = s.commits := rfl
@[simp] theorem State.setAg_edgeQ (a : Nat) (v : Agent) : (s.setAg a v).edgeQ = s.edgeQ := rfl
@[simp] theorem State.setAg_slices (a : Nat) (v : Agent) : (s.setAg a v).slices = s.slices := rfl
@[simp] theorem State.setAg_hubs (a : Nat) (v : Agent) : (s.setAg a v).hubs = s.hubs := rfl
@[simp] theorem State.setAg_lanes (a : Nat) (v : Agent) : (s.setAg a v).lanes = s.lanes := rfl
@[simp] theorem State.setAg_hubUp (a : Nat) (v : Agent) : (s.setAg a v).hubUp = s.hubUp := rfl
@[simp] theorem State.setAg_net (a : Nat) (v : Agent) : (s.setAg a v).net = s.net := rfl
@[simp] theorem State.setAg_inbound (a : Nat) (v : Agent) : (s.setAg a v).inbound = s.inbound := rfl
@[simp] theorem State.setAg_packets (a : Nat) (v : Agent) : (s.setAg a v).packets = s.packets := rfl
@[simp] theorem State.setAg_agenda (a : Nat) (v : Agent) : (s.setAg a v).agenda = s.agenda := rfl
@[simp] theorem State.setAg_expired (a : Nat) (v : Agent) : (s.setAg a v).expired = s.expired := rfl
@[simp] theorem State.setAg_lapsed (a : Nat) (v : Agent) : (s.setAg a v).lapsed = s.lapsed := rfl
@[simp] theorem State.setAg_recolorDue (a : Nat) (v : Agent) : (s.setAg a v).recolorDue = s.recolorDue := rfl
@[simp] theorem State.setAg_meterOff (a : Nat) (v : Agent) : (s.setAg a v).meterOff = s.meterOff := rfl
@[simp] theorem State.setAg_late (a : Nat) (v : Agent) : (s.setAg a v).late = s.late := rfl
@[simp] theorem State.setAg_samples (a : Nat) (v : Agent) : (s.setAg a v).samples = s.samples := rfl
@[simp] theorem State.setAg_out (a : Nat) (v : Agent) : (s.setAg a v).out = s.out := rfl
@[simp] theorem State.setAg_reads (a : Nat) (v : Agent) : (s.setAg a v).reads = s.reads := rfl
@[simp] theorem State.setAg_shown (a : Nat) (v : Agent) : (s.setAg a v).shown = s.shown := rfl
@[simp] theorem State.setAg_memFailed (a : Nat) (v : Agent) : (s.setAg a v).memFailed = s.memFailed := rfl
@[simp] theorem State.setAg_memDownDue (a : Nat) (v : Agent) : (s.setAg a v).memDownDue = s.memDownDue := rfl
@[simp] theorem State.setAg_pmSleepReq (a : Nat) (v : Agent) : (s.setAg a v).pmSleepReq = s.pmSleepReq := rfl
@[simp] theorem State.setAg_pmGrant (a : Nat) (v : Agent) : (s.setAg a v).pmGrant = s.pmGrant := rfl
@[simp] theorem State.setAg_hpRetireReq (a : Nat) (v : Agent) : (s.setAg a v).hpRetireReq = s.hpRetireReq := rfl
@[simp] theorem State.setAg_hpPermit (a : Nat) (v : Agent) : (s.setAg a v).hpPermit = s.hpPermit := rfl
@[simp] theorem State.setAg_hpSurprise (a : Nat) (v : Agent) : (s.setAg a v).hpSurprise = s.hpSurprise := rfl
@[simp] theorem State.setAg_vectors (a : Nat) (v : Agent) : (s.setAg a v).vectors = s.vectors := rfl
@[simp] theorem State.setAg_ring (a : Nat) (v : Agent) : (s.setAg a v).ring = s.ring := rfl
@[simp] theorem State.setAg_logNew (a : Nat) (v : Agent) : (s.setAg a v).logNew = s.logNew := rfl
@[simp] theorem State.setAg_routers (a : Nat) (v : Agent) : (s.setAg a v).routers = s.routers := rfl
@[simp] theorem State.setAg_boot (a : Nat) (v : Agent) : (s.setAg a v).boot = s.boot := rfl
@[simp] theorem State.setAg_cistern (a : Nat) (v : Agent) : (s.setAg a v).cistern = s.cistern := rfl
@[simp] theorem State.setAg_bus (a : Nat) (v : Agent) : (s.setAg a v).bus = s.bus := rfl
@[simp] theorem State.setAg_pmc (a : Nat) (v : Agent) : (s.setAg a v).pmc = s.pmc := rfl
@[simp] theorem State.setAg_hotSlices (a : Nat) (v : Agent) : (s.setAg a v).hotSlices = s.hotSlices := rfl
@[simp] theorem State.setAg_failDue (a : Nat) (v : Agent) : (s.setAg a v).failDue = s.failDue := rfl
@[simp] theorem State.setAg_refillAt (a : Nat) (v : Agent) : (s.setAg a v).refillAt = s.refillAt := rfl
@[simp] theorem State.setAg_leakAt (a : Nat) (v : Agent) : (s.setAg a v).leakAt = s.leakAt := rfl
@[simp] theorem State.setAg_secondAt (a : Nat) (v : Agent) : (s.setAg a v).secondAt = s.secondAt := rfl
@[simp] theorem State.setAg_freeCount (a : Nat) (v : Agent) : (s.setAg a v).freeCount = s.freeCount := rfl
@[simp] theorem State.setAg_pending (a : Nat) (v : Agent) : (s.setAg a v).pending = s.pending := rfl
@[simp] theorem State.setAg_reg (a : Nat) (v : Agent) (x : Nat) : (s.setAg a v).reg x = s.reg x := rfl
@[simp] theorem State.setAg_sl (a : Nat) (v : Agent) (x : Nat) : (s.setAg a v).sl x = s.sl x := rfl
@[simp] theorem State.setAg_txn (a : Nat) (v : Agent) (x y : Nat) : (s.setAg a v).txn x y = s.txn x y := rfl
@[simp] theorem State.setAg_lane (a : Nat) (v : Agent) (x : Nat) : (s.setAg a v).lane x = s.lane x := rfl
@[simp] theorem State.setAg_hub (a : Nat) (v : Agent) (x : Nat) : (s.setAg a v).hub x = s.hub x := rfl
@[simp] theorem State.setAg_view (a : Nat) (v : Agent) (x : Nat) : (s.setAg a v).view x = s.view x := rfl
@[simp] theorem State.setAg_flag (a : Nat) (v : Agent) (x y : Nat) : (s.setAg a v).flag x y = s.flag x y := rfl
@[simp] theorem State.setAg_fld (a : Nat) (v : Agent) (x y z : Nat) : (s.setAg a v).fld x y z = s.fld x y z := rfl

/-! `State.updAg`. -/

@[simp] theorem State.updAg_fusing (a : Nat) (f : Agent → Agent) : (s.updAg a f).fusing = s.fusing := rfl
@[simp] theorem State.updAg_inReset (a : Nat) (f : Agent → Agent) : (s.updAg a f).inReset = s.inReset := rfl
@[simp] theorem State.updAg_ready (a : Nat) (f : Agent → Agent) : (s.updAg a f).ready = s.ready := rfl
@[simp] theorem State.updAg_failPin (a : Nat) (f : Agent → Agent) : (s.updAg a f).failPin = s.failPin := rfl
@[simp] theorem State.updAg_frame (a : Nat) (f : Agent → Agent) : (s.updAg a f).frame = s.frame := rfl
@[simp] theorem State.updAg_regs (a : Nat) (f : Agent → Agent) : (s.updAg a f).regs = s.regs := rfl
@[simp] theorem State.updAg_marks (a : Nat) (f : Agent → Agent) : (s.updAg a f).marks = s.marks := rfl
@[simp] theorem State.updAg_cfg (a : Nat) (f : Agent → Agent) : (s.updAg a f).cfg = s.cfg := rfl
@[simp] theorem State.updAg_committed (a : Nat) (f : Agent → Agent) : (s.updAg a f).committed = s.committed := rfl
@[simp] theorem State.updAg_commits (a : Nat) (f : Agent → Agent) : (s.updAg a f).commits = s.commits := rfl
@[simp] theorem State.updAg_edgeQ (a : Nat) (f : Agent → Agent) : (s.updAg a f).edgeQ = s.edgeQ := rfl
@[simp] theorem State.updAg_slices (a : Nat) (f : Agent → Agent) : (s.updAg a f).slices = s.slices := rfl
@[simp] theorem State.updAg_hubs (a : Nat) (f : Agent → Agent) : (s.updAg a f).hubs = s.hubs := rfl
@[simp] theorem State.updAg_lanes (a : Nat) (f : Agent → Agent) : (s.updAg a f).lanes = s.lanes := rfl
@[simp] theorem State.updAg_hubUp (a : Nat) (f : Agent → Agent) : (s.updAg a f).hubUp = s.hubUp := rfl
@[simp] theorem State.updAg_net (a : Nat) (f : Agent → Agent) : (s.updAg a f).net = s.net := rfl
@[simp] theorem State.updAg_inbound (a : Nat) (f : Agent → Agent) : (s.updAg a f).inbound = s.inbound := rfl
@[simp] theorem State.updAg_packets (a : Nat) (f : Agent → Agent) : (s.updAg a f).packets = s.packets := rfl
@[simp] theorem State.updAg_agenda (a : Nat) (f : Agent → Agent) : (s.updAg a f).agenda = s.agenda := rfl
@[simp] theorem State.updAg_expired (a : Nat) (f : Agent → Agent) : (s.updAg a f).expired = s.expired := rfl
@[simp] theorem State.updAg_lapsed (a : Nat) (f : Agent → Agent) : (s.updAg a f).lapsed = s.lapsed := rfl
@[simp] theorem State.updAg_recolorDue (a : Nat) (f : Agent → Agent) : (s.updAg a f).recolorDue = s.recolorDue := rfl
@[simp] theorem State.updAg_meterOff (a : Nat) (f : Agent → Agent) : (s.updAg a f).meterOff = s.meterOff := rfl
@[simp] theorem State.updAg_late (a : Nat) (f : Agent → Agent) : (s.updAg a f).late = s.late := rfl
@[simp] theorem State.updAg_samples (a : Nat) (f : Agent → Agent) : (s.updAg a f).samples = s.samples := rfl
@[simp] theorem State.updAg_out (a : Nat) (f : Agent → Agent) : (s.updAg a f).out = s.out := rfl
@[simp] theorem State.updAg_reads (a : Nat) (f : Agent → Agent) : (s.updAg a f).reads = s.reads := rfl
@[simp] theorem State.updAg_shown (a : Nat) (f : Agent → Agent) : (s.updAg a f).shown = s.shown := rfl
@[simp] theorem State.updAg_memFailed (a : Nat) (f : Agent → Agent) : (s.updAg a f).memFailed = s.memFailed := rfl
@[simp] theorem State.updAg_memDownDue (a : Nat) (f : Agent → Agent) : (s.updAg a f).memDownDue = s.memDownDue := rfl
@[simp] theorem State.updAg_pmSleepReq (a : Nat) (f : Agent → Agent) : (s.updAg a f).pmSleepReq = s.pmSleepReq := rfl
@[simp] theorem State.updAg_pmGrant (a : Nat) (f : Agent → Agent) : (s.updAg a f).pmGrant = s.pmGrant := rfl
@[simp] theorem State.updAg_hpRetireReq (a : Nat) (f : Agent → Agent) : (s.updAg a f).hpRetireReq = s.hpRetireReq := rfl
@[simp] theorem State.updAg_hpPermit (a : Nat) (f : Agent → Agent) : (s.updAg a f).hpPermit = s.hpPermit := rfl
@[simp] theorem State.updAg_hpSurprise (a : Nat) (f : Agent → Agent) : (s.updAg a f).hpSurprise = s.hpSurprise := rfl
@[simp] theorem State.updAg_vectors (a : Nat) (f : Agent → Agent) : (s.updAg a f).vectors = s.vectors := rfl
@[simp] theorem State.updAg_ring (a : Nat) (f : Agent → Agent) : (s.updAg a f).ring = s.ring := rfl
@[simp] theorem State.updAg_logNew (a : Nat) (f : Agent → Agent) : (s.updAg a f).logNew = s.logNew := rfl
@[simp] theorem State.updAg_routers (a : Nat) (f : Agent → Agent) : (s.updAg a f).routers = s.routers := rfl
@[simp] theorem State.updAg_boot (a : Nat) (f : Agent → Agent) : (s.updAg a f).boot = s.boot := rfl
@[simp] theorem State.updAg_cistern (a : Nat) (f : Agent → Agent) : (s.updAg a f).cistern = s.cistern := rfl
@[simp] theorem State.updAg_bus (a : Nat) (f : Agent → Agent) : (s.updAg a f).bus = s.bus := rfl
@[simp] theorem State.updAg_pmc (a : Nat) (f : Agent → Agent) : (s.updAg a f).pmc = s.pmc := rfl
@[simp] theorem State.updAg_hotSlices (a : Nat) (f : Agent → Agent) : (s.updAg a f).hotSlices = s.hotSlices := rfl
@[simp] theorem State.updAg_failDue (a : Nat) (f : Agent → Agent) : (s.updAg a f).failDue = s.failDue := rfl
@[simp] theorem State.updAg_refillAt (a : Nat) (f : Agent → Agent) : (s.updAg a f).refillAt = s.refillAt := rfl
@[simp] theorem State.updAg_leakAt (a : Nat) (f : Agent → Agent) : (s.updAg a f).leakAt = s.leakAt := rfl
@[simp] theorem State.updAg_secondAt (a : Nat) (f : Agent → Agent) : (s.updAg a f).secondAt = s.secondAt := rfl
@[simp] theorem State.updAg_freeCount (a : Nat) (f : Agent → Agent) : (s.updAg a f).freeCount = s.freeCount := rfl
@[simp] theorem State.updAg_pending (a : Nat) (f : Agent → Agent) : (s.updAg a f).pending = s.pending := rfl
@[simp] theorem State.updAg_reg (a : Nat) (f : Agent → Agent) (x : Nat) : (s.updAg a f).reg x = s.reg x := rfl
@[simp] theorem State.updAg_sl (a : Nat) (f : Agent → Agent) (x : Nat) : (s.updAg a f).sl x = s.sl x := rfl
@[simp] theorem State.updAg_txn (a : Nat) (f : Agent → Agent) (x y : Nat) : (s.updAg a f).txn x y = s.txn x y := rfl
@[simp] theorem State.updAg_lane (a : Nat) (f : Agent → Agent) (x : Nat) : (s.updAg a f).lane x = s.lane x := rfl
@[simp] theorem State.updAg_hub (a : Nat) (f : Agent → Agent) (x : Nat) : (s.updAg a f).hub x = s.hub x := rfl
@[simp] theorem State.updAg_view (a : Nat) (f : Agent → Agent) (x : Nat) : (s.updAg a f).view x = s.view x := rfl
@[simp] theorem State.updAg_flag (a : Nat) (f : Agent → Agent) (x y : Nat) : (s.updAg a f).flag x y = s.flag x y := rfl
@[simp] theorem State.updAg_fld (a : Nat) (f : Agent → Agent) (x y z : Nat) : (s.updAg a f).fld x y z = s.fld x y z := rfl

/-! `State.setLane`. -/

@[simp] theorem State.setLane_fusing (l : Nat) (v : LaneSt) : (s.setLane l v).fusing = s.fusing := rfl
@[simp] theorem State.setLane_inReset (l : Nat) (v : LaneSt) : (s.setLane l v).inReset = s.inReset := rfl
@[simp] theorem State.setLane_ready (l : Nat) (v : LaneSt) : (s.setLane l v).ready = s.ready := rfl
@[simp] theorem State.setLane_failPin (l : Nat) (v : LaneSt) : (s.setLane l v).failPin = s.failPin := rfl
@[simp] theorem State.setLane_frame (l : Nat) (v : LaneSt) : (s.setLane l v).frame = s.frame := rfl
@[simp] theorem State.setLane_regs (l : Nat) (v : LaneSt) : (s.setLane l v).regs = s.regs := rfl
@[simp] theorem State.setLane_marks (l : Nat) (v : LaneSt) : (s.setLane l v).marks = s.marks := rfl
@[simp] theorem State.setLane_cfg (l : Nat) (v : LaneSt) : (s.setLane l v).cfg = s.cfg := rfl
@[simp] theorem State.setLane_committed (l : Nat) (v : LaneSt) : (s.setLane l v).committed = s.committed := rfl
@[simp] theorem State.setLane_commits (l : Nat) (v : LaneSt) : (s.setLane l v).commits = s.commits := rfl
@[simp] theorem State.setLane_edgeQ (l : Nat) (v : LaneSt) : (s.setLane l v).edgeQ = s.edgeQ := rfl
@[simp] theorem State.setLane_slices (l : Nat) (v : LaneSt) : (s.setLane l v).slices = s.slices := rfl
@[simp] theorem State.setLane_agents (l : Nat) (v : LaneSt) : (s.setLane l v).agents = s.agents := rfl
@[simp] theorem State.setLane_hubs (l : Nat) (v : LaneSt) : (s.setLane l v).hubs = s.hubs := rfl
@[simp] theorem State.setLane_hubUp (l : Nat) (v : LaneSt) : (s.setLane l v).hubUp = s.hubUp := rfl
@[simp] theorem State.setLane_net (l : Nat) (v : LaneSt) : (s.setLane l v).net = s.net := rfl
@[simp] theorem State.setLane_inbound (l : Nat) (v : LaneSt) : (s.setLane l v).inbound = s.inbound := rfl
@[simp] theorem State.setLane_packets (l : Nat) (v : LaneSt) : (s.setLane l v).packets = s.packets := rfl
@[simp] theorem State.setLane_agenda (l : Nat) (v : LaneSt) : (s.setLane l v).agenda = s.agenda := rfl
@[simp] theorem State.setLane_expired (l : Nat) (v : LaneSt) : (s.setLane l v).expired = s.expired := rfl
@[simp] theorem State.setLane_lapsed (l : Nat) (v : LaneSt) : (s.setLane l v).lapsed = s.lapsed := rfl
@[simp] theorem State.setLane_recolorDue (l : Nat) (v : LaneSt) : (s.setLane l v).recolorDue = s.recolorDue := rfl
@[simp] theorem State.setLane_meterOff (l : Nat) (v : LaneSt) : (s.setLane l v).meterOff = s.meterOff := rfl
@[simp] theorem State.setLane_late (l : Nat) (v : LaneSt) : (s.setLane l v).late = s.late := rfl
@[simp] theorem State.setLane_samples (l : Nat) (v : LaneSt) : (s.setLane l v).samples = s.samples := rfl
@[simp] theorem State.setLane_out (l : Nat) (v : LaneSt) : (s.setLane l v).out = s.out := rfl
@[simp] theorem State.setLane_reads (l : Nat) (v : LaneSt) : (s.setLane l v).reads = s.reads := rfl
@[simp] theorem State.setLane_shown (l : Nat) (v : LaneSt) : (s.setLane l v).shown = s.shown := rfl
@[simp] theorem State.setLane_memFailed (l : Nat) (v : LaneSt) : (s.setLane l v).memFailed = s.memFailed := rfl
@[simp] theorem State.setLane_memDownDue (l : Nat) (v : LaneSt) : (s.setLane l v).memDownDue = s.memDownDue := rfl
@[simp] theorem State.setLane_pmSleepReq (l : Nat) (v : LaneSt) : (s.setLane l v).pmSleepReq = s.pmSleepReq := rfl
@[simp] theorem State.setLane_pmGrant (l : Nat) (v : LaneSt) : (s.setLane l v).pmGrant = s.pmGrant := rfl
@[simp] theorem State.setLane_hpRetireReq (l : Nat) (v : LaneSt) : (s.setLane l v).hpRetireReq = s.hpRetireReq := rfl
@[simp] theorem State.setLane_hpPermit (l : Nat) (v : LaneSt) : (s.setLane l v).hpPermit = s.hpPermit := rfl
@[simp] theorem State.setLane_hpSurprise (l : Nat) (v : LaneSt) : (s.setLane l v).hpSurprise = s.hpSurprise := rfl
@[simp] theorem State.setLane_vectors (l : Nat) (v : LaneSt) : (s.setLane l v).vectors = s.vectors := rfl
@[simp] theorem State.setLane_ring (l : Nat) (v : LaneSt) : (s.setLane l v).ring = s.ring := rfl
@[simp] theorem State.setLane_logNew (l : Nat) (v : LaneSt) : (s.setLane l v).logNew = s.logNew := rfl
@[simp] theorem State.setLane_routers (l : Nat) (v : LaneSt) : (s.setLane l v).routers = s.routers := rfl
@[simp] theorem State.setLane_boot (l : Nat) (v : LaneSt) : (s.setLane l v).boot = s.boot := rfl
@[simp] theorem State.setLane_cistern (l : Nat) (v : LaneSt) : (s.setLane l v).cistern = s.cistern := rfl
@[simp] theorem State.setLane_bus (l : Nat) (v : LaneSt) : (s.setLane l v).bus = s.bus := rfl
@[simp] theorem State.setLane_pmc (l : Nat) (v : LaneSt) : (s.setLane l v).pmc = s.pmc := rfl
@[simp] theorem State.setLane_hotSlices (l : Nat) (v : LaneSt) : (s.setLane l v).hotSlices = s.hotSlices := rfl
@[simp] theorem State.setLane_failDue (l : Nat) (v : LaneSt) : (s.setLane l v).failDue = s.failDue := rfl
@[simp] theorem State.setLane_refillAt (l : Nat) (v : LaneSt) : (s.setLane l v).refillAt = s.refillAt := rfl
@[simp] theorem State.setLane_leakAt (l : Nat) (v : LaneSt) : (s.setLane l v).leakAt = s.leakAt := rfl
@[simp] theorem State.setLane_secondAt (l : Nat) (v : LaneSt) : (s.setLane l v).secondAt = s.secondAt := rfl
@[simp] theorem State.setLane_freeCount (l : Nat) (v : LaneSt) : (s.setLane l v).freeCount = s.freeCount := rfl
@[simp] theorem State.setLane_pending (l : Nat) (v : LaneSt) : (s.setLane l v).pending = s.pending := rfl
@[simp] theorem State.setLane_reg (l : Nat) (v : LaneSt) (x : Nat) : (s.setLane l v).reg x = s.reg x := rfl
@[simp] theorem State.setLane_sl (l : Nat) (v : LaneSt) (x : Nat) : (s.setLane l v).sl x = s.sl x := rfl
@[simp] theorem State.setLane_txn (l : Nat) (v : LaneSt) (x y : Nat) : (s.setLane l v).txn x y = s.txn x y := rfl
@[simp] theorem State.setLane_ag (l : Nat) (v : LaneSt) (x : Nat) : (s.setLane l v).ag x = s.ag x := rfl
@[simp] theorem State.setLane_hub (l : Nat) (v : LaneSt) (x : Nat) : (s.setLane l v).hub x = s.hub x := rfl
@[simp] theorem State.setLane_view (l : Nat) (v : LaneSt) (x : Nat) : (s.setLane l v).view x = s.view x := rfl
@[simp] theorem State.setLane_flag (l : Nat) (v : LaneSt) (x y : Nat) : (s.setLane l v).flag x y = s.flag x y := rfl
@[simp] theorem State.setLane_fld (l : Nat) (v : LaneSt) (x y z : Nat) : (s.setLane l v).fld x y z = s.fld x y z := rfl

/-! `State.setHub`. -/

@[simp] theorem State.setHub_fusing (h : Nat) (v : Tracker) : (s.setHub h v).fusing = s.fusing := rfl
@[simp] theorem State.setHub_inReset (h : Nat) (v : Tracker) : (s.setHub h v).inReset = s.inReset := rfl
@[simp] theorem State.setHub_ready (h : Nat) (v : Tracker) : (s.setHub h v).ready = s.ready := rfl
@[simp] theorem State.setHub_failPin (h : Nat) (v : Tracker) : (s.setHub h v).failPin = s.failPin := rfl
@[simp] theorem State.setHub_frame (h : Nat) (v : Tracker) : (s.setHub h v).frame = s.frame := rfl
@[simp] theorem State.setHub_regs (h : Nat) (v : Tracker) : (s.setHub h v).regs = s.regs := rfl
@[simp] theorem State.setHub_marks (h : Nat) (v : Tracker) : (s.setHub h v).marks = s.marks := rfl
@[simp] theorem State.setHub_cfg (h : Nat) (v : Tracker) : (s.setHub h v).cfg = s.cfg := rfl
@[simp] theorem State.setHub_committed (h : Nat) (v : Tracker) : (s.setHub h v).committed = s.committed := rfl
@[simp] theorem State.setHub_commits (h : Nat) (v : Tracker) : (s.setHub h v).commits = s.commits := rfl
@[simp] theorem State.setHub_edgeQ (h : Nat) (v : Tracker) : (s.setHub h v).edgeQ = s.edgeQ := rfl
@[simp] theorem State.setHub_slices (h : Nat) (v : Tracker) : (s.setHub h v).slices = s.slices := rfl
@[simp] theorem State.setHub_agents (h : Nat) (v : Tracker) : (s.setHub h v).agents = s.agents := rfl
@[simp] theorem State.setHub_lanes (h : Nat) (v : Tracker) : (s.setHub h v).lanes = s.lanes := rfl
@[simp] theorem State.setHub_hubUp (h : Nat) (v : Tracker) : (s.setHub h v).hubUp = s.hubUp := rfl
@[simp] theorem State.setHub_net (h : Nat) (v : Tracker) : (s.setHub h v).net = s.net := rfl
@[simp] theorem State.setHub_inbound (h : Nat) (v : Tracker) : (s.setHub h v).inbound = s.inbound := rfl
@[simp] theorem State.setHub_packets (h : Nat) (v : Tracker) : (s.setHub h v).packets = s.packets := rfl
@[simp] theorem State.setHub_agenda (h : Nat) (v : Tracker) : (s.setHub h v).agenda = s.agenda := rfl
@[simp] theorem State.setHub_expired (h : Nat) (v : Tracker) : (s.setHub h v).expired = s.expired := rfl
@[simp] theorem State.setHub_lapsed (h : Nat) (v : Tracker) : (s.setHub h v).lapsed = s.lapsed := rfl
@[simp] theorem State.setHub_recolorDue (h : Nat) (v : Tracker) : (s.setHub h v).recolorDue = s.recolorDue := rfl
@[simp] theorem State.setHub_meterOff (h : Nat) (v : Tracker) : (s.setHub h v).meterOff = s.meterOff := rfl
@[simp] theorem State.setHub_late (h : Nat) (v : Tracker) : (s.setHub h v).late = s.late := rfl
@[simp] theorem State.setHub_samples (h : Nat) (v : Tracker) : (s.setHub h v).samples = s.samples := rfl
@[simp] theorem State.setHub_out (h : Nat) (v : Tracker) : (s.setHub h v).out = s.out := rfl
@[simp] theorem State.setHub_reads (h : Nat) (v : Tracker) : (s.setHub h v).reads = s.reads := rfl
@[simp] theorem State.setHub_shown (h : Nat) (v : Tracker) : (s.setHub h v).shown = s.shown := rfl
@[simp] theorem State.setHub_memFailed (h : Nat) (v : Tracker) : (s.setHub h v).memFailed = s.memFailed := rfl
@[simp] theorem State.setHub_memDownDue (h : Nat) (v : Tracker) : (s.setHub h v).memDownDue = s.memDownDue := rfl
@[simp] theorem State.setHub_pmSleepReq (h : Nat) (v : Tracker) : (s.setHub h v).pmSleepReq = s.pmSleepReq := rfl
@[simp] theorem State.setHub_pmGrant (h : Nat) (v : Tracker) : (s.setHub h v).pmGrant = s.pmGrant := rfl
@[simp] theorem State.setHub_hpRetireReq (h : Nat) (v : Tracker) : (s.setHub h v).hpRetireReq = s.hpRetireReq := rfl
@[simp] theorem State.setHub_hpPermit (h : Nat) (v : Tracker) : (s.setHub h v).hpPermit = s.hpPermit := rfl
@[simp] theorem State.setHub_hpSurprise (h : Nat) (v : Tracker) : (s.setHub h v).hpSurprise = s.hpSurprise := rfl
@[simp] theorem State.setHub_vectors (h : Nat) (v : Tracker) : (s.setHub h v).vectors = s.vectors := rfl
@[simp] theorem State.setHub_ring (h : Nat) (v : Tracker) : (s.setHub h v).ring = s.ring := rfl
@[simp] theorem State.setHub_logNew (h : Nat) (v : Tracker) : (s.setHub h v).logNew = s.logNew := rfl
@[simp] theorem State.setHub_routers (h : Nat) (v : Tracker) : (s.setHub h v).routers = s.routers := rfl
@[simp] theorem State.setHub_boot (h : Nat) (v : Tracker) : (s.setHub h v).boot = s.boot := rfl
@[simp] theorem State.setHub_cistern (h : Nat) (v : Tracker) : (s.setHub h v).cistern = s.cistern := rfl
@[simp] theorem State.setHub_bus (h : Nat) (v : Tracker) : (s.setHub h v).bus = s.bus := rfl
@[simp] theorem State.setHub_pmc (h : Nat) (v : Tracker) : (s.setHub h v).pmc = s.pmc := rfl
@[simp] theorem State.setHub_hotSlices (h : Nat) (v : Tracker) : (s.setHub h v).hotSlices = s.hotSlices := rfl
@[simp] theorem State.setHub_failDue (h : Nat) (v : Tracker) : (s.setHub h v).failDue = s.failDue := rfl
@[simp] theorem State.setHub_refillAt (h : Nat) (v : Tracker) : (s.setHub h v).refillAt = s.refillAt := rfl
@[simp] theorem State.setHub_leakAt (h : Nat) (v : Tracker) : (s.setHub h v).leakAt = s.leakAt := rfl
@[simp] theorem State.setHub_secondAt (h : Nat) (v : Tracker) : (s.setHub h v).secondAt = s.secondAt := rfl
@[simp] theorem State.setHub_freeCount (h : Nat) (v : Tracker) : (s.setHub h v).freeCount = s.freeCount := rfl
@[simp] theorem State.setHub_pending (h : Nat) (v : Tracker) : (s.setHub h v).pending = s.pending := rfl
@[simp] theorem State.setHub_reg (h : Nat) (v : Tracker) (x : Nat) : (s.setHub h v).reg x = s.reg x := rfl
@[simp] theorem State.setHub_sl (h : Nat) (v : Tracker) (x : Nat) : (s.setHub h v).sl x = s.sl x := rfl
@[simp] theorem State.setHub_txn (h : Nat) (v : Tracker) (x y : Nat) : (s.setHub h v).txn x y = s.txn x y := rfl
@[simp] theorem State.setHub_ag (h : Nat) (v : Tracker) (x : Nat) : (s.setHub h v).ag x = s.ag x := rfl
@[simp] theorem State.setHub_lane (h : Nat) (v : Tracker) (x : Nat) : (s.setHub h v).lane x = s.lane x := rfl
@[simp] theorem State.setHub_view (h : Nat) (v : Tracker) (x : Nat) : (s.setHub h v).view x = s.view x := rfl
@[simp] theorem State.setHub_flag (h : Nat) (v : Tracker) (x y : Nat) : (s.setHub h v).flag x y = s.flag x y := rfl
@[simp] theorem State.setHub_fld (h : Nat) (v : Tracker) (x y z : Nat) : (s.setHub h v).fld x y z = s.fld x y z := rfl

/-! `State.setView`. -/

@[simp] theorem State.setView_fusing (i : Nat) (v : CfgView) : (s.setView i v).fusing = s.fusing := rfl
@[simp] theorem State.setView_inReset (i : Nat) (v : CfgView) : (s.setView i v).inReset = s.inReset := rfl
@[simp] theorem State.setView_ready (i : Nat) (v : CfgView) : (s.setView i v).ready = s.ready := rfl
@[simp] theorem State.setView_failPin (i : Nat) (v : CfgView) : (s.setView i v).failPin = s.failPin := rfl
@[simp] theorem State.setView_frame (i : Nat) (v : CfgView) : (s.setView i v).frame = s.frame := rfl
@[simp] theorem State.setView_regs (i : Nat) (v : CfgView) : (s.setView i v).regs = s.regs := rfl
@[simp] theorem State.setView_marks (i : Nat) (v : CfgView) : (s.setView i v).marks = s.marks := rfl
@[simp] theorem State.setView_committed (i : Nat) (v : CfgView) : (s.setView i v).committed = s.committed := rfl
@[simp] theorem State.setView_commits (i : Nat) (v : CfgView) : (s.setView i v).commits = s.commits := rfl
@[simp] theorem State.setView_edgeQ (i : Nat) (v : CfgView) : (s.setView i v).edgeQ = s.edgeQ := rfl
@[simp] theorem State.setView_slices (i : Nat) (v : CfgView) : (s.setView i v).slices = s.slices := rfl
@[simp] theorem State.setView_agents (i : Nat) (v : CfgView) : (s.setView i v).agents = s.agents := rfl
@[simp] theorem State.setView_hubs (i : Nat) (v : CfgView) : (s.setView i v).hubs = s.hubs := rfl
@[simp] theorem State.setView_lanes (i : Nat) (v : CfgView) : (s.setView i v).lanes = s.lanes := rfl
@[simp] theorem State.setView_hubUp (i : Nat) (v : CfgView) : (s.setView i v).hubUp = s.hubUp := rfl
@[simp] theorem State.setView_net (i : Nat) (v : CfgView) : (s.setView i v).net = s.net := rfl
@[simp] theorem State.setView_inbound (i : Nat) (v : CfgView) : (s.setView i v).inbound = s.inbound := rfl
@[simp] theorem State.setView_packets (i : Nat) (v : CfgView) : (s.setView i v).packets = s.packets := rfl
@[simp] theorem State.setView_agenda (i : Nat) (v : CfgView) : (s.setView i v).agenda = s.agenda := rfl
@[simp] theorem State.setView_expired (i : Nat) (v : CfgView) : (s.setView i v).expired = s.expired := rfl
@[simp] theorem State.setView_lapsed (i : Nat) (v : CfgView) : (s.setView i v).lapsed = s.lapsed := rfl
@[simp] theorem State.setView_recolorDue (i : Nat) (v : CfgView) : (s.setView i v).recolorDue = s.recolorDue := rfl
@[simp] theorem State.setView_meterOff (i : Nat) (v : CfgView) : (s.setView i v).meterOff = s.meterOff := rfl
@[simp] theorem State.setView_late (i : Nat) (v : CfgView) : (s.setView i v).late = s.late := rfl
@[simp] theorem State.setView_samples (i : Nat) (v : CfgView) : (s.setView i v).samples = s.samples := rfl
@[simp] theorem State.setView_out (i : Nat) (v : CfgView) : (s.setView i v).out = s.out := rfl
@[simp] theorem State.setView_reads (i : Nat) (v : CfgView) : (s.setView i v).reads = s.reads := rfl
@[simp] theorem State.setView_shown (i : Nat) (v : CfgView) : (s.setView i v).shown = s.shown := rfl
@[simp] theorem State.setView_memFailed (i : Nat) (v : CfgView) : (s.setView i v).memFailed = s.memFailed := rfl
@[simp] theorem State.setView_memDownDue (i : Nat) (v : CfgView) : (s.setView i v).memDownDue = s.memDownDue := rfl
@[simp] theorem State.setView_pmSleepReq (i : Nat) (v : CfgView) : (s.setView i v).pmSleepReq = s.pmSleepReq := rfl
@[simp] theorem State.setView_pmGrant (i : Nat) (v : CfgView) : (s.setView i v).pmGrant = s.pmGrant := rfl
@[simp] theorem State.setView_hpRetireReq (i : Nat) (v : CfgView) : (s.setView i v).hpRetireReq = s.hpRetireReq := rfl
@[simp] theorem State.setView_hpPermit (i : Nat) (v : CfgView) : (s.setView i v).hpPermit = s.hpPermit := rfl
@[simp] theorem State.setView_hpSurprise (i : Nat) (v : CfgView) : (s.setView i v).hpSurprise = s.hpSurprise := rfl
@[simp] theorem State.setView_vectors (i : Nat) (v : CfgView) : (s.setView i v).vectors = s.vectors := rfl
@[simp] theorem State.setView_ring (i : Nat) (v : CfgView) : (s.setView i v).ring = s.ring := rfl
@[simp] theorem State.setView_logNew (i : Nat) (v : CfgView) : (s.setView i v).logNew = s.logNew := rfl
@[simp] theorem State.setView_routers (i : Nat) (v : CfgView) : (s.setView i v).routers = s.routers := rfl
@[simp] theorem State.setView_boot (i : Nat) (v : CfgView) : (s.setView i v).boot = s.boot := rfl
@[simp] theorem State.setView_cistern (i : Nat) (v : CfgView) : (s.setView i v).cistern = s.cistern := rfl
@[simp] theorem State.setView_bus (i : Nat) (v : CfgView) : (s.setView i v).bus = s.bus := rfl
@[simp] theorem State.setView_pmc (i : Nat) (v : CfgView) : (s.setView i v).pmc = s.pmc := rfl
@[simp] theorem State.setView_hotSlices (i : Nat) (v : CfgView) : (s.setView i v).hotSlices = s.hotSlices := rfl
@[simp] theorem State.setView_failDue (i : Nat) (v : CfgView) : (s.setView i v).failDue = s.failDue := rfl
@[simp] theorem State.setView_refillAt (i : Nat) (v : CfgView) : (s.setView i v).refillAt = s.refillAt := rfl
@[simp] theorem State.setView_leakAt (i : Nat) (v : CfgView) : (s.setView i v).leakAt = s.leakAt := rfl
@[simp] theorem State.setView_secondAt (i : Nat) (v : CfgView) : (s.setView i v).secondAt = s.secondAt := rfl
@[simp] theorem State.setView_freeCount (i : Nat) (v : CfgView) : (s.setView i v).freeCount = s.freeCount := rfl
@[simp] theorem State.setView_pending (i : Nat) (v : CfgView) : (s.setView i v).pending = s.pending := rfl
@[simp] theorem State.setView_reg (i : Nat) (v : CfgView) (x : Nat) : (s.setView i v).reg x = s.reg x := rfl
@[simp] theorem State.setView_sl (i : Nat) (v : CfgView) (x : Nat) : (s.setView i v).sl x = s.sl x := rfl
@[simp] theorem State.setView_txn (i : Nat) (v : CfgView) (x y : Nat) : (s.setView i v).txn x y = s.txn x y := rfl
@[simp] theorem State.setView_ag (i : Nat) (v : CfgView) (x : Nat) : (s.setView i v).ag x = s.ag x := rfl
@[simp] theorem State.setView_lane (i : Nat) (v : CfgView) (x : Nat) : (s.setView i v).lane x = s.lane x := rfl
@[simp] theorem State.setView_hub (i : Nat) (v : CfgView) (x : Nat) : (s.setView i v).hub x = s.hub x := rfl
@[simp] theorem State.setView_flag (i : Nat) (v : CfgView) (x y : Nat) : (s.setView i v).flag x y = s.flag x y := rfl
@[simp] theorem State.setView_fld (i : Nat) (v : CfgView) (x y z : Nat) : (s.setView i v).fld x y z = s.fld x y z := rfl

/-! `State.send`. -/

@[simp] theorem State.send_fusing (f : Nat) (p : Port) (m : Msg) : (s.send f p m).fusing = s.fusing := rfl
@[simp] theorem State.send_inReset (f : Nat) (p : Port) (m : Msg) : (s.send f p m).inReset = s.inReset := rfl
@[simp] theorem State.send_ready (f : Nat) (p : Port) (m : Msg) : (s.send f p m).ready = s.ready := rfl
@[simp] theorem State.send_failPin (f : Nat) (p : Port) (m : Msg) : (s.send f p m).failPin = s.failPin := rfl
@[simp] theorem State.send_frame (f : Nat) (p : Port) (m : Msg) : (s.send f p m).frame = s.frame := rfl
@[simp] theorem State.send_regs (f : Nat) (p : Port) (m : Msg) : (s.send f p m).regs = s.regs := rfl
@[simp] theorem State.send_marks (f : Nat) (p : Port) (m : Msg) : (s.send f p m).marks = s.marks := rfl
@[simp] theorem State.send_cfg (f : Nat) (p : Port) (m : Msg) : (s.send f p m).cfg = s.cfg := rfl
@[simp] theorem State.send_committed (f : Nat) (p : Port) (m : Msg) : (s.send f p m).committed = s.committed := rfl
@[simp] theorem State.send_commits (f : Nat) (p : Port) (m : Msg) : (s.send f p m).commits = s.commits := rfl
@[simp] theorem State.send_edgeQ (f : Nat) (p : Port) (m : Msg) : (s.send f p m).edgeQ = s.edgeQ := rfl
@[simp] theorem State.send_slices (f : Nat) (p : Port) (m : Msg) : (s.send f p m).slices = s.slices := rfl
@[simp] theorem State.send_agents (f : Nat) (p : Port) (m : Msg) : (s.send f p m).agents = s.agents := rfl
@[simp] theorem State.send_hubs (f : Nat) (p : Port) (m : Msg) : (s.send f p m).hubs = s.hubs := rfl
@[simp] theorem State.send_lanes (f : Nat) (p : Port) (m : Msg) : (s.send f p m).lanes = s.lanes := rfl
@[simp] theorem State.send_hubUp (f : Nat) (p : Port) (m : Msg) : (s.send f p m).hubUp = s.hubUp := rfl
@[simp] theorem State.send_net (f : Nat) (p : Port) (m : Msg) : (s.send f p m).net = s.net := rfl
@[simp] theorem State.send_inbound (f : Nat) (p : Port) (m : Msg) : (s.send f p m).inbound = s.inbound := rfl
@[simp] theorem State.send_packets (f : Nat) (p : Port) (m : Msg) : (s.send f p m).packets = s.packets := rfl
@[simp] theorem State.send_agenda (f : Nat) (p : Port) (m : Msg) : (s.send f p m).agenda = s.agenda := rfl
@[simp] theorem State.send_expired (f : Nat) (p : Port) (m : Msg) : (s.send f p m).expired = s.expired := rfl
@[simp] theorem State.send_lapsed (f : Nat) (p : Port) (m : Msg) : (s.send f p m).lapsed = s.lapsed := rfl
@[simp] theorem State.send_recolorDue (f : Nat) (p : Port) (m : Msg) : (s.send f p m).recolorDue = s.recolorDue := rfl
@[simp] theorem State.send_meterOff (f : Nat) (p : Port) (m : Msg) : (s.send f p m).meterOff = s.meterOff := rfl
@[simp] theorem State.send_late (f : Nat) (p : Port) (m : Msg) : (s.send f p m).late = s.late := rfl
@[simp] theorem State.send_samples (f : Nat) (p : Port) (m : Msg) : (s.send f p m).samples = s.samples := rfl
@[simp] theorem State.send_reads (f : Nat) (p : Port) (m : Msg) : (s.send f p m).reads = s.reads := rfl
@[simp] theorem State.send_shown (f : Nat) (p : Port) (m : Msg) : (s.send f p m).shown = s.shown := rfl
@[simp] theorem State.send_memFailed (f : Nat) (p : Port) (m : Msg) : (s.send f p m).memFailed = s.memFailed := rfl
@[simp] theorem State.send_memDownDue (f : Nat) (p : Port) (m : Msg) : (s.send f p m).memDownDue = s.memDownDue := rfl
@[simp] theorem State.send_pmSleepReq (f : Nat) (p : Port) (m : Msg) : (s.send f p m).pmSleepReq = s.pmSleepReq := rfl
@[simp] theorem State.send_pmGrant (f : Nat) (p : Port) (m : Msg) : (s.send f p m).pmGrant = s.pmGrant := rfl
@[simp] theorem State.send_hpRetireReq (f : Nat) (p : Port) (m : Msg) : (s.send f p m).hpRetireReq = s.hpRetireReq := rfl
@[simp] theorem State.send_hpPermit (f : Nat) (p : Port) (m : Msg) : (s.send f p m).hpPermit = s.hpPermit := rfl
@[simp] theorem State.send_hpSurprise (f : Nat) (p : Port) (m : Msg) : (s.send f p m).hpSurprise = s.hpSurprise := rfl
@[simp] theorem State.send_vectors (f : Nat) (p : Port) (m : Msg) : (s.send f p m).vectors = s.vectors := rfl
@[simp] theorem State.send_ring (f : Nat) (p : Port) (m : Msg) : (s.send f p m).ring = s.ring := rfl
@[simp] theorem State.send_logNew (f : Nat) (p : Port) (m : Msg) : (s.send f p m).logNew = s.logNew := rfl
@[simp] theorem State.send_routers (f : Nat) (p : Port) (m : Msg) : (s.send f p m).routers = s.routers := rfl
@[simp] theorem State.send_boot (f : Nat) (p : Port) (m : Msg) : (s.send f p m).boot = s.boot := rfl
@[simp] theorem State.send_cistern (f : Nat) (p : Port) (m : Msg) : (s.send f p m).cistern = s.cistern := rfl
@[simp] theorem State.send_bus (f : Nat) (p : Port) (m : Msg) : (s.send f p m).bus = s.bus := rfl
@[simp] theorem State.send_pmc (f : Nat) (p : Port) (m : Msg) : (s.send f p m).pmc = s.pmc := rfl
@[simp] theorem State.send_hotSlices (f : Nat) (p : Port) (m : Msg) : (s.send f p m).hotSlices = s.hotSlices := rfl
@[simp] theorem State.send_failDue (f : Nat) (p : Port) (m : Msg) : (s.send f p m).failDue = s.failDue := rfl
@[simp] theorem State.send_refillAt (f : Nat) (p : Port) (m : Msg) : (s.send f p m).refillAt = s.refillAt := rfl
@[simp] theorem State.send_leakAt (f : Nat) (p : Port) (m : Msg) : (s.send f p m).leakAt = s.leakAt := rfl
@[simp] theorem State.send_secondAt (f : Nat) (p : Port) (m : Msg) : (s.send f p m).secondAt = s.secondAt := rfl
@[simp] theorem State.send_freeCount (f : Nat) (p : Port) (m : Msg) : (s.send f p m).freeCount = s.freeCount := rfl
@[simp] theorem State.send_pending (f : Nat) (p : Port) (m : Msg) : (s.send f p m).pending = s.pending := rfl
@[simp] theorem State.send_reg (f : Nat) (p : Port) (m : Msg) (x : Nat) : (s.send f p m).reg x = s.reg x := rfl
@[simp] theorem State.send_sl (f : Nat) (p : Port) (m : Msg) (x : Nat) : (s.send f p m).sl x = s.sl x := rfl
@[simp] theorem State.send_txn (f : Nat) (p : Port) (m : Msg) (x y : Nat) : (s.send f p m).txn x y = s.txn x y := rfl
@[simp] theorem State.send_ag (f : Nat) (p : Port) (m : Msg) (x : Nat) : (s.send f p m).ag x = s.ag x := rfl
@[simp] theorem State.send_lane (f : Nat) (p : Port) (m : Msg) (x : Nat) : (s.send f p m).lane x = s.lane x := rfl
@[simp] theorem State.send_hub (f : Nat) (p : Port) (m : Msg) (x : Nat) : (s.send f p m).hub x = s.hub x := rfl
@[simp] theorem State.send_view (f : Nat) (p : Port) (m : Msg) (x : Nat) : (s.send f p m).view x = s.view x := rfl
@[simp] theorem State.send_flag (f : Nat) (p : Port) (m : Msg) (x y : Nat) : (s.send f p m).flag x y = s.flag x y := rfl
@[simp] theorem State.send_fld (f : Nat) (p : Port) (m : Msg) (x y z : Nat) : (s.send f p m).fld x y z = s.fld x y z := rfl

/-! `State.plan`. -/

@[simp] theorem State.plan_fusing (f k t : Nat) (a : Act) : (s.plan f k t a).fusing = s.fusing := by unfold State.plan; dsimp only; split <;> rfl
@[simp] theorem State.plan_inReset (f k t : Nat) (a : Act) : (s.plan f k t a).inReset = s.inReset := by unfold State.plan; dsimp only; split <;> rfl
@[simp] theorem State.plan_ready (f k t : Nat) (a : Act) : (s.plan f k t a).ready = s.ready := by unfold State.plan; dsimp only; split <;> rfl
@[simp] theorem State.plan_failPin (f k t : Nat) (a : Act) : (s.plan f k t a).failPin = s.failPin := by unfold State.plan; dsimp only; split <;> rfl
@[simp] theorem State.plan_frame (f k t : Nat) (a : Act) : (s.plan f k t a).frame = s.frame := by unfold State.plan; dsimp only; split <;> rfl
@[simp] theorem State.plan_regs (f k t : Nat) (a : Act) : (s.plan f k t a).regs = s.regs := by unfold State.plan; dsimp only; split <;> rfl
@[simp] theorem State.plan_marks (f k t : Nat) (a : Act) : (s.plan f k t a).marks = s.marks := by unfold State.plan; dsimp only; split <;> rfl
@[simp] theorem State.plan_cfg (f k t : Nat) (a : Act) : (s.plan f k t a).cfg = s.cfg := by unfold State.plan; dsimp only; split <;> rfl
@[simp] theorem State.plan_committed (f k t : Nat) (a : Act) : (s.plan f k t a).committed = s.committed := by unfold State.plan; dsimp only; split <;> rfl
@[simp] theorem State.plan_commits (f k t : Nat) (a : Act) : (s.plan f k t a).commits = s.commits := by unfold State.plan; dsimp only; split <;> rfl
@[simp] theorem State.plan_edgeQ (f k t : Nat) (a : Act) : (s.plan f k t a).edgeQ = s.edgeQ := by unfold State.plan; dsimp only; split <;> rfl
@[simp] theorem State.plan_slices (f k t : Nat) (a : Act) : (s.plan f k t a).slices = s.slices := by unfold State.plan; dsimp only; split <;> rfl
@[simp] theorem State.plan_agents (f k t : Nat) (a : Act) : (s.plan f k t a).agents = s.agents := by unfold State.plan; dsimp only; split <;> rfl
@[simp] theorem State.plan_hubs (f k t : Nat) (a : Act) : (s.plan f k t a).hubs = s.hubs := by unfold State.plan; dsimp only; split <;> rfl
@[simp] theorem State.plan_lanes (f k t : Nat) (a : Act) : (s.plan f k t a).lanes = s.lanes := by unfold State.plan; dsimp only; split <;> rfl
@[simp] theorem State.plan_hubUp (f k t : Nat) (a : Act) : (s.plan f k t a).hubUp = s.hubUp := by unfold State.plan; dsimp only; split <;> rfl
@[simp] theorem State.plan_net (f k t : Nat) (a : Act) : (s.plan f k t a).net = s.net := by unfold State.plan; dsimp only; split <;> rfl
@[simp] theorem State.plan_inbound (f k t : Nat) (a : Act) : (s.plan f k t a).inbound = s.inbound := by unfold State.plan; dsimp only; split <;> rfl
@[simp] theorem State.plan_packets (f k t : Nat) (a : Act) : (s.plan f k t a).packets = s.packets := by unfold State.plan; dsimp only; split <;> rfl
@[simp] theorem State.plan_expired (f k t : Nat) (a : Act) : (s.plan f k t a).expired = s.expired := by unfold State.plan; dsimp only; split <;> rfl
@[simp] theorem State.plan_lapsed (f k t : Nat) (a : Act) : (s.plan f k t a).lapsed = s.lapsed := by unfold State.plan; dsimp only; split <;> rfl
@[simp] theorem State.plan_recolorDue (f k t : Nat) (a : Act) : (s.plan f k t a).recolorDue = s.recolorDue := by unfold State.plan; dsimp only; split <;> rfl
@[simp] theorem State.plan_meterOff (f k t : Nat) (a : Act) : (s.plan f k t a).meterOff = s.meterOff := by unfold State.plan; dsimp only; split <;> rfl
@[simp] theorem State.plan_late (f k t : Nat) (a : Act) : (s.plan f k t a).late = s.late := by unfold State.plan; dsimp only; split <;> rfl
@[simp] theorem State.plan_samples (f k t : Nat) (a : Act) : (s.plan f k t a).samples = s.samples := by unfold State.plan; dsimp only; split <;> rfl
@[simp] theorem State.plan_out (f k t : Nat) (a : Act) : (s.plan f k t a).out = s.out := by unfold State.plan; dsimp only; split <;> rfl
@[simp] theorem State.plan_reads (f k t : Nat) (a : Act) : (s.plan f k t a).reads = s.reads := by unfold State.plan; dsimp only; split <;> rfl
@[simp] theorem State.plan_shown (f k t : Nat) (a : Act) : (s.plan f k t a).shown = s.shown := by unfold State.plan; dsimp only; split <;> rfl
@[simp] theorem State.plan_memFailed (f k t : Nat) (a : Act) : (s.plan f k t a).memFailed = s.memFailed := by unfold State.plan; dsimp only; split <;> rfl
@[simp] theorem State.plan_memDownDue (f k t : Nat) (a : Act) : (s.plan f k t a).memDownDue = s.memDownDue := by unfold State.plan; dsimp only; split <;> rfl
@[simp] theorem State.plan_pmSleepReq (f k t : Nat) (a : Act) : (s.plan f k t a).pmSleepReq = s.pmSleepReq := by unfold State.plan; dsimp only; split <;> rfl
@[simp] theorem State.plan_pmGrant (f k t : Nat) (a : Act) : (s.plan f k t a).pmGrant = s.pmGrant := by unfold State.plan; dsimp only; split <;> rfl
@[simp] theorem State.plan_hpRetireReq (f k t : Nat) (a : Act) : (s.plan f k t a).hpRetireReq = s.hpRetireReq := by unfold State.plan; dsimp only; split <;> rfl
@[simp] theorem State.plan_hpPermit (f k t : Nat) (a : Act) : (s.plan f k t a).hpPermit = s.hpPermit := by unfold State.plan; dsimp only; split <;> rfl
@[simp] theorem State.plan_hpSurprise (f k t : Nat) (a : Act) : (s.plan f k t a).hpSurprise = s.hpSurprise := by unfold State.plan; dsimp only; split <;> rfl
@[simp] theorem State.plan_vectors (f k t : Nat) (a : Act) : (s.plan f k t a).vectors = s.vectors := by unfold State.plan; dsimp only; split <;> rfl
@[simp] theorem State.plan_ring (f k t : Nat) (a : Act) : (s.plan f k t a).ring = s.ring := by unfold State.plan; dsimp only; split <;> rfl
@[simp] theorem State.plan_logNew (f k t : Nat) (a : Act) : (s.plan f k t a).logNew = s.logNew := by unfold State.plan; dsimp only; split <;> rfl
@[simp] theorem State.plan_routers (f k t : Nat) (a : Act) : (s.plan f k t a).routers = s.routers := by unfold State.plan; dsimp only; split <;> rfl
@[simp] theorem State.plan_boot (f k t : Nat) (a : Act) : (s.plan f k t a).boot = s.boot := by unfold State.plan; dsimp only; split <;> rfl
@[simp] theorem State.plan_cistern (f k t : Nat) (a : Act) : (s.plan f k t a).cistern = s.cistern := by unfold State.plan; dsimp only; split <;> rfl
@[simp] theorem State.plan_bus (f k t : Nat) (a : Act) : (s.plan f k t a).bus = s.bus := by unfold State.plan; dsimp only; split <;> rfl
@[simp] theorem State.plan_pmc (f k t : Nat) (a : Act) : (s.plan f k t a).pmc = s.pmc := by unfold State.plan; dsimp only; split <;> rfl
@[simp] theorem State.plan_hotSlices (f k t : Nat) (a : Act) : (s.plan f k t a).hotSlices = s.hotSlices := by unfold State.plan; dsimp only; split <;> rfl
@[simp] theorem State.plan_failDue (f k t : Nat) (a : Act) : (s.plan f k t a).failDue = s.failDue := by unfold State.plan; dsimp only; split <;> rfl
@[simp] theorem State.plan_refillAt (f k t : Nat) (a : Act) : (s.plan f k t a).refillAt = s.refillAt := by unfold State.plan; dsimp only; split <;> rfl
@[simp] theorem State.plan_leakAt (f k t : Nat) (a : Act) : (s.plan f k t a).leakAt = s.leakAt := by unfold State.plan; dsimp only; split <;> rfl
@[simp] theorem State.plan_secondAt (f k t : Nat) (a : Act) : (s.plan f k t a).secondAt = s.secondAt := by unfold State.plan; dsimp only; split <;> rfl
@[simp] theorem State.plan_freeCount (f k t : Nat) (a : Act) : (s.plan f k t a).freeCount = s.freeCount := by unfold State.plan; dsimp only; split <;> rfl
@[simp] theorem State.plan_pending (f k t : Nat) (a : Act) : (s.plan f k t a).pending = s.pending := by unfold State.plan; dsimp only; split <;> rfl
@[simp] theorem State.plan_reg (f k t : Nat) (a : Act) (x : Nat) : (s.plan f k t a).reg x = s.reg x := by unfold State.plan; dsimp only; split <;> rfl
@[simp] theorem State.plan_sl (f k t : Nat) (a : Act) (x : Nat) : (s.plan f k t a).sl x = s.sl x := by unfold State.plan; dsimp only; split <;> rfl
@[simp] theorem State.plan_txn (f k t : Nat) (a : Act) (x y : Nat) : (s.plan f k t a).txn x y = s.txn x y := by unfold State.plan; dsimp only; split <;> rfl
@[simp] theorem State.plan_ag (f k t : Nat) (a : Act) (x : Nat) : (s.plan f k t a).ag x = s.ag x := by unfold State.plan; dsimp only; split <;> rfl
@[simp] theorem State.plan_lane (f k t : Nat) (a : Act) (x : Nat) : (s.plan f k t a).lane x = s.lane x := by unfold State.plan; dsimp only; split <;> rfl
@[simp] theorem State.plan_hub (f k t : Nat) (a : Act) (x : Nat) : (s.plan f k t a).hub x = s.hub x := by unfold State.plan; dsimp only; split <;> rfl
@[simp] theorem State.plan_view (f k t : Nat) (a : Act) (x : Nat) : (s.plan f k t a).view x = s.view x := by unfold State.plan; dsimp only; split <;> rfl
@[simp] theorem State.plan_flag (f k t : Nat) (a : Act) (x y : Nat) : (s.plan f k t a).flag x y = s.flag x y := by unfold State.plan; dsimp only; split <;> rfl
@[simp] theorem State.plan_fld (f k t : Nat) (a : Act) (x y z : Nat) : (s.plan f k t a).fld x y z = s.fld x y z := by unfold State.plan; dsimp only; split <;> rfl

/-! `State.unplan`. -/

@[simp] theorem State.unplan_fusing (k t : Nat) : (s.unplan k t).fusing = s.fusing := rfl
@[simp] theorem State.unplan_inReset (k t : Nat) : (s.unplan k t).inReset = s.inReset := rfl
@[simp] theorem State.unplan_ready (k t : Nat) : (s.unplan k t).ready = s.ready := rfl
@[simp] theorem State.unplan_failPin (k t : Nat) : (s.unplan k t).failPin = s.failPin := rfl
@[simp] theorem State.unplan_frame (k t : Nat) : (s.unplan k t).frame = s.frame := rfl
@[simp] theorem State.unplan_regs (k t : Nat) : (s.unplan k t).regs = s.regs := rfl
@[simp] theorem State.unplan_marks (k t : Nat) : (s.unplan k t).marks = s.marks := rfl
@[simp] theorem State.unplan_cfg (k t : Nat) : (s.unplan k t).cfg = s.cfg := rfl
@[simp] theorem State.unplan_committed (k t : Nat) : (s.unplan k t).committed = s.committed := rfl
@[simp] theorem State.unplan_commits (k t : Nat) : (s.unplan k t).commits = s.commits := rfl
@[simp] theorem State.unplan_edgeQ (k t : Nat) : (s.unplan k t).edgeQ = s.edgeQ := rfl
@[simp] theorem State.unplan_slices (k t : Nat) : (s.unplan k t).slices = s.slices := rfl
@[simp] theorem State.unplan_agents (k t : Nat) : (s.unplan k t).agents = s.agents := rfl
@[simp] theorem State.unplan_hubs (k t : Nat) : (s.unplan k t).hubs = s.hubs := rfl
@[simp] theorem State.unplan_lanes (k t : Nat) : (s.unplan k t).lanes = s.lanes := rfl
@[simp] theorem State.unplan_hubUp (k t : Nat) : (s.unplan k t).hubUp = s.hubUp := rfl
@[simp] theorem State.unplan_net (k t : Nat) : (s.unplan k t).net = s.net := rfl
@[simp] theorem State.unplan_inbound (k t : Nat) : (s.unplan k t).inbound = s.inbound := rfl
@[simp] theorem State.unplan_packets (k t : Nat) : (s.unplan k t).packets = s.packets := rfl
@[simp] theorem State.unplan_expired (k t : Nat) : (s.unplan k t).expired = s.expired := rfl
@[simp] theorem State.unplan_lapsed (k t : Nat) : (s.unplan k t).lapsed = s.lapsed := rfl
@[simp] theorem State.unplan_recolorDue (k t : Nat) : (s.unplan k t).recolorDue = s.recolorDue := rfl
@[simp] theorem State.unplan_meterOff (k t : Nat) : (s.unplan k t).meterOff = s.meterOff := rfl
@[simp] theorem State.unplan_late (k t : Nat) : (s.unplan k t).late = s.late := rfl
@[simp] theorem State.unplan_samples (k t : Nat) : (s.unplan k t).samples = s.samples := rfl
@[simp] theorem State.unplan_out (k t : Nat) : (s.unplan k t).out = s.out := rfl
@[simp] theorem State.unplan_reads (k t : Nat) : (s.unplan k t).reads = s.reads := rfl
@[simp] theorem State.unplan_shown (k t : Nat) : (s.unplan k t).shown = s.shown := rfl
@[simp] theorem State.unplan_memFailed (k t : Nat) : (s.unplan k t).memFailed = s.memFailed := rfl
@[simp] theorem State.unplan_memDownDue (k t : Nat) : (s.unplan k t).memDownDue = s.memDownDue := rfl
@[simp] theorem State.unplan_pmSleepReq (k t : Nat) : (s.unplan k t).pmSleepReq = s.pmSleepReq := rfl
@[simp] theorem State.unplan_pmGrant (k t : Nat) : (s.unplan k t).pmGrant = s.pmGrant := rfl
@[simp] theorem State.unplan_hpRetireReq (k t : Nat) : (s.unplan k t).hpRetireReq = s.hpRetireReq := rfl
@[simp] theorem State.unplan_hpPermit (k t : Nat) : (s.unplan k t).hpPermit = s.hpPermit := rfl
@[simp] theorem State.unplan_hpSurprise (k t : Nat) : (s.unplan k t).hpSurprise = s.hpSurprise := rfl
@[simp] theorem State.unplan_vectors (k t : Nat) : (s.unplan k t).vectors = s.vectors := rfl
@[simp] theorem State.unplan_ring (k t : Nat) : (s.unplan k t).ring = s.ring := rfl
@[simp] theorem State.unplan_logNew (k t : Nat) : (s.unplan k t).logNew = s.logNew := rfl
@[simp] theorem State.unplan_routers (k t : Nat) : (s.unplan k t).routers = s.routers := rfl
@[simp] theorem State.unplan_boot (k t : Nat) : (s.unplan k t).boot = s.boot := rfl
@[simp] theorem State.unplan_cistern (k t : Nat) : (s.unplan k t).cistern = s.cistern := rfl
@[simp] theorem State.unplan_bus (k t : Nat) : (s.unplan k t).bus = s.bus := rfl
@[simp] theorem State.unplan_pmc (k t : Nat) : (s.unplan k t).pmc = s.pmc := rfl
@[simp] theorem State.unplan_hotSlices (k t : Nat) : (s.unplan k t).hotSlices = s.hotSlices := rfl
@[simp] theorem State.unplan_failDue (k t : Nat) : (s.unplan k t).failDue = s.failDue := rfl
@[simp] theorem State.unplan_refillAt (k t : Nat) : (s.unplan k t).refillAt = s.refillAt := rfl
@[simp] theorem State.unplan_leakAt (k t : Nat) : (s.unplan k t).leakAt = s.leakAt := rfl
@[simp] theorem State.unplan_secondAt (k t : Nat) : (s.unplan k t).secondAt = s.secondAt := rfl
@[simp] theorem State.unplan_freeCount (k t : Nat) : (s.unplan k t).freeCount = s.freeCount := rfl
@[simp] theorem State.unplan_pending (k t : Nat) : (s.unplan k t).pending = s.pending := rfl
@[simp] theorem State.unplan_reg (k t : Nat) (x : Nat) : (s.unplan k t).reg x = s.reg x := rfl
@[simp] theorem State.unplan_sl (k t : Nat) (x : Nat) : (s.unplan k t).sl x = s.sl x := rfl
@[simp] theorem State.unplan_txn (k t : Nat) (x y : Nat) : (s.unplan k t).txn x y = s.txn x y := rfl
@[simp] theorem State.unplan_ag (k t : Nat) (x : Nat) : (s.unplan k t).ag x = s.ag x := rfl
@[simp] theorem State.unplan_lane (k t : Nat) (x : Nat) : (s.unplan k t).lane x = s.lane x := rfl
@[simp] theorem State.unplan_hub (k t : Nat) (x : Nat) : (s.unplan k t).hub x = s.hub x := rfl
@[simp] theorem State.unplan_view (k t : Nat) (x : Nat) : (s.unplan k t).view x = s.view x := rfl
@[simp] theorem State.unplan_flag (k t : Nat) (x y : Nat) : (s.unplan k t).flag x y = s.flag x y := rfl
@[simp] theorem State.unplan_fld (k t : Nat) (x y z : Nat) : (s.unplan k t).fld x y z = s.fld x y z := rfl

/-! Readers after their own update. -/

@[simp] theorem State.setSl_sl_same (k : Nat) (v : Slice) : (s.setSl k v).sl k = v := tget_tput_same _ _ _ _
theorem State.setSl_sl_other {k j : Nat} (h : j ≠ k) (v : Slice) : (s.setSl k v).sl j = s.sl j := tget_tput_other h _ _ _
@[simp] theorem State.updSl_sl_same (k : Nat) (f : Slice → Slice) : (s.updSl k f).sl k = f (s.sl k) := tget_tput_same _ _ _ _
theorem State.updSl_sl_other {k j : Nat} (h : j ≠ k) (f : Slice → Slice) : (s.updSl k f).sl j = s.sl j := tget_tput_other h _ _ _
@[simp] theorem State.setTxn_txn_same (k t : Nat) (v : Txn) : (s.setTxn k t v).txn k t = v := by
  simp [State.setTxn, State.txn]
theorem State.setTxn_txn_other {k t j u : Nat} (h : j ≠ k ∨ u ≠ t) (v : Txn) : (s.setTxn k t v).txn j u = s.txn j u := by
  unfold State.setTxn State.txn
  by_cases hj : j = k
  · subst hj
    have hu : u ≠ t := h.resolve_left (fun h => h rfl)
    simp [tget_tputD_other hu]
  · rw [State.updSl_sl_other s hj]
@[simp] theorem State.setAg_ag_same (a : Nat) (v : Agent) : (s.setAg a v).ag a = v := tget_tput_same _ _ _ _
theorem State.setAg_ag_other {a b : Nat} (h : b ≠ a) (v : Agent) : (s.setAg a v).ag b = s.ag b := tget_tput_other h _ _ _
@[simp] theorem State.updAg_ag_same (a : Nat) (f : Agent → Agent) : (s.updAg a f).ag a = f (s.ag a) := tget_tput_same _ _ _ _
theorem State.updAg_ag_other {a b : Nat} (h : b ≠ a) (f : Agent → Agent) : (s.updAg a f).ag b = s.ag b := tget_tput_other h _ _ _
@[simp] theorem State.setLane_lane_same (l : Nat) (v : LaneSt) : (s.setLane l v).lane l = v := tget_tput_same _ _ _ _
theorem State.setLane_lane_other {l m : Nat} (h : m ≠ l) (v : LaneSt) : (s.setLane l v).lane m = s.lane m := tget_tput_other h _ _ _
@[simp] theorem State.setHub_hub_same (k : Nat) (v : Tracker) : (s.setHub k v).hub k = v := tget_tput_same _ _ _ _
theorem State.setHub_hub_other {k j : Nat} (h : j ≠ k) (v : Tracker) : (s.setHub k v).hub j = s.hub j := tget_tput_other h _ _ _
@[simp] theorem State.setView_view_same (i : Nat) (v : CfgView) : (s.setView i v).view i = v := tget_tput_same _ _ _ _
theorem State.setView_view_other {i j : Nat} (h : j ≠ i) (v : CfgView) : (s.setView i v).view j = s.view j := tget_tput_other h _ _ _
@[simp] theorem State.send_out (f : Nat) (p : Port) (m : Msg) : (s.send f p m).out = s.out ++ [⟨f, p, m⟩] := rfl
theorem State.plan_mem (f k t : Nat) (a : Act) : (⟨f, k, t, a⟩ : Todo) ∈ (s.plan f k t a).agenda := by
  unfold State.plan; dsimp only; split
  · assumption
  · simp
theorem State.plan_sub (f k t : Nat) (a : Act) {d : Todo} (h : d ∈ s.agenda) : d ∈ (s.plan f k t a).agenda := by
  unfold State.plan; dsimp only; split
  · exact h
  · simp [h]

/-! `State.held`, `live`, `need` and `when'`. -/

@[simp] theorem State.held_inReset (t : State) : (s.held t).inReset = s.inReset := rfl
@[simp] theorem State.held_fusing (t : State) : (s.held t).fusing = s.fusing := rfl
@[simp] theorem State.held_pending (t : State) : (s.held t).pending = s.pending := rfl
@[simp] theorem State.held_frame (t : State) : (s.held t).frame = s.frame := rfl
@[simp] theorem State.held_ring (t : State) : (s.held t).ring = s.ring := rfl
@[simp] theorem State.held_ready (t : State) : (s.held t).ready = t.ready := rfl
@[simp] theorem State.held_failPin (t : State) : (s.held t).failPin = t.failPin := rfl
@[simp] theorem State.held_regs (t : State) : (s.held t).regs = t.regs := rfl
@[simp] theorem State.held_marks (t : State) : (s.held t).marks = t.marks := rfl
@[simp] theorem State.held_cfg (t : State) : (s.held t).cfg = t.cfg := rfl
@[simp] theorem State.held_committed (t : State) : (s.held t).committed = t.committed := rfl
@[simp] theorem State.held_commits (t : State) : (s.held t).commits = t.commits := rfl
@[simp] theorem State.held_edgeQ (t : State) : (s.held t).edgeQ = t.edgeQ := rfl
@[simp] theorem State.held_slices (t : State) : (s.held t).slices = t.slices := rfl
@[simp] theorem State.held_agents (t : State) : (s.held t).agents = t.agents := rfl
@[simp] theorem State.held_hubs (t : State) : (s.held t).hubs = t.hubs := rfl
@[simp] theorem State.held_lanes (t : State) : (s.held t).lanes = t.lanes := rfl
@[simp] theorem State.held_hubUp (t : State) : (s.held t).hubUp = t.hubUp := rfl
@[simp] theorem State.held_net (t : State) : (s.held t).net = t.net := rfl
@[simp] theorem State.held_inbound (t : State) : (s.held t).inbound = t.inbound := rfl
@[simp] theorem State.held_packets (t : State) : (s.held t).packets = t.packets := rfl
@[simp] theorem State.held_agenda (t : State) : (s.held t).agenda = t.agenda := rfl
@[simp] theorem State.held_expired (t : State) : (s.held t).expired = t.expired := rfl
@[simp] theorem State.held_lapsed (t : State) : (s.held t).lapsed = t.lapsed := rfl
@[simp] theorem State.held_recolorDue (t : State) : (s.held t).recolorDue = t.recolorDue := rfl
@[simp] theorem State.held_meterOff (t : State) : (s.held t).meterOff = t.meterOff := rfl
@[simp] theorem State.held_late (t : State) : (s.held t).late = t.late := rfl
@[simp] theorem State.held_samples (t : State) : (s.held t).samples = t.samples := rfl
@[simp] theorem State.held_out (t : State) : (s.held t).out = t.out := rfl
@[simp] theorem State.held_reads (t : State) : (s.held t).reads = t.reads := rfl
@[simp] theorem State.held_shown (t : State) : (s.held t).shown = t.shown := rfl
@[simp] theorem State.held_memFailed (t : State) : (s.held t).memFailed = t.memFailed := rfl
@[simp] theorem State.held_memDownDue (t : State) : (s.held t).memDownDue = t.memDownDue := rfl
@[simp] theorem State.held_pmSleepReq (t : State) : (s.held t).pmSleepReq = t.pmSleepReq := rfl
@[simp] theorem State.held_pmGrant (t : State) : (s.held t).pmGrant = t.pmGrant := rfl
@[simp] theorem State.held_hpRetireReq (t : State) : (s.held t).hpRetireReq = t.hpRetireReq := rfl
@[simp] theorem State.held_hpPermit (t : State) : (s.held t).hpPermit = t.hpPermit := rfl
@[simp] theorem State.held_hpSurprise (t : State) : (s.held t).hpSurprise = t.hpSurprise := rfl
@[simp] theorem State.held_vectors (t : State) : (s.held t).vectors = t.vectors := rfl
@[simp] theorem State.held_logNew (t : State) : (s.held t).logNew = t.logNew := rfl
@[simp] theorem State.held_routers (t : State) : (s.held t).routers = t.routers := rfl
@[simp] theorem State.held_boot (t : State) : (s.held t).boot = t.boot := rfl
@[simp] theorem State.held_cistern (t : State) : (s.held t).cistern = t.cistern := rfl
@[simp] theorem State.held_bus (t : State) : (s.held t).bus = t.bus := rfl
@[simp] theorem State.held_pmc (t : State) : (s.held t).pmc = t.pmc := rfl
@[simp] theorem State.held_hotSlices (t : State) : (s.held t).hotSlices = t.hotSlices := rfl
@[simp] theorem State.held_failDue (t : State) : (s.held t).failDue = t.failDue := rfl
@[simp] theorem State.held_refillAt (t : State) : (s.held t).refillAt = t.refillAt := rfl
@[simp] theorem State.held_leakAt (t : State) : (s.held t).leakAt = t.leakAt := rfl
@[simp] theorem State.held_secondAt (t : State) : (s.held t).secondAt = t.secondAt := rfl
@[simp] theorem State.held_freeCount (t : State) : (s.held t).freeCount = t.freeCount := rfl
@[simp] theorem State.held_sl (t : State) (x : Nat) : (s.held t).sl x = t.sl x := rfl
@[simp] theorem State.held_txn (t : State) (x y : Nat) : (s.held t).txn x y = t.txn x y := rfl
@[simp] theorem State.held_ag (t : State) (x : Nat) : (s.held t).ag x = t.ag x := rfl
@[simp] theorem State.held_lane (t : State) (x : Nat) : (s.held t).lane x = t.lane x := rfl
@[simp] theorem State.held_hub (t : State) (x : Nat) : (s.held t).hub x = t.hub x := rfl
@[simp] theorem State.held_view (t : State) (x : Nat) : (s.held t).view x = t.view x := rfl
theorem State.held_reg {t : State} (h : t.fusing = s.fusing) (o : Nat) : (s.held t).reg o = t.reg o := by simp [State.reg, h]
theorem State.held_flag {t : State} (h : t.fusing = s.fusing) (o b : Nat) : (s.held t).flag o b = t.flag o b := by
  simp [State.flag, State.held_reg s h]
theorem State.held_fld {t : State} (h : t.fusing = s.fusing) (o lo w : Nat) : (s.held t).fld o lo w = t.fld o lo w := by
  simp [State.fld, State.held_reg s h]

/-- A state that has what `s` holds is held as it is. -/
theorem State.held_eq {t : State} (h1 : t.inReset = s.inReset) (h2 : t.fusing = s.fusing) (h3 : t.pending = s.pending)
    (h4 : t.frame = s.frame) (h5 : t.ring = s.ring) : s.held t = t := by
  cases t; cases h1; cases h2; cases h3; cases h4; cases h5; rfl

/-- In reset a command changes nothing (R485). -/
theorem live_inReset {s : State} (h : s.inReset = true) (r : Outcome) : live s r = .next s := by simp [live, h]

theorem live_next {s : State} (h : s.inReset = false) (t : State) : live s (.next t) = .next (s.held t) := by simp [live, h]

/-- Everything `live` can answer. -/
theorem live_cases {s t : State} {r : Outcome} (h : live s r = .next t) :
    (s.inReset = true ∧ t = s) ∨ (s.inReset = false ∧ ∃ u, r = .next u ∧ t = s.held u) := by
  unfold live at h
  cases hr : s.inReset
  · simp only [hr, Bool.false_eq_true, if_false] at h
    cases r <;> simp_all
  · simp_all

/-- Out of reset the fuses, LZ_RST_N, the queue, the frame and the log's ring are as they were, whatever the command between two edges. -/
theorem live_keeps {s t : State} {r : Outcome} (h : live s r = .next t) :
    t.inReset = s.inReset ∧ t.fusing = s.fusing ∧ t.pending = s.pending ∧ t.frame = s.frame ∧ t.ring = s.ring := by
  rcases live_cases h with ⟨_, rfl⟩ | ⟨_, u, _, rfl⟩
  · simp
  · simp

/-- Everything `liveAtEdge` can answer. -/
theorem liveAtEdge_cases {s t : State} {r : Outcome} (h : liveAtEdge s r = .next t) :
    (s.inReset = true ∧ t = s) ∨ (s.inReset = false ∧ ∃ u, r = .next u ∧ t = { s.held u with ring := u.ring }) := by
  unfold liveAtEdge at h
  cases hr : s.inReset
  · simp only [hr, Bool.false_eq_true, if_false] at h
    cases r <;> simp_all
  · simp_all

@[simp] theorem need_true (r : Outcome) : need true r = r := rfl
@[simp] theorem need_false (r : Outcome) : need false r = .fault .noSuchPart := rfl
@[simp] theorem when'_true (t : State) : when' true s t = .next t := rfl
@[simp] theorem when'_false (t : State) : when' false s t = .next s := rfl

/-- A guard that holds. -/
theorem need_of {p : Bool} (h : p = true) (r : Outcome) : need p r = r := by simp [h]
theorem when'_of {p : Bool} (h : p = true) (t : State) : when' p s t = .next t := by simp [h]

theorem need_next {p : Bool} {r : Outcome} {t : State} (h : need p r = .next t) : p = true ∧ r = .next t := by
  cases p <;> simp_all

/-- A fold over a list of numbers, one at a time. -/
@[simp] theorem foldSt_nil (f : State → Nat → State) : foldSt [] f s = s := rfl
@[simp] theorem foldSt_cons (k : Nat) (l : List Nat) (f : State → Nat → State) : foldSt (k :: l) f s = foldSt l f (f s k) := rfl

/-- What every step of a fold keeps, the fold keeps. -/
theorem foldSt_keeps {P : State → Prop} {f : State → Nat → State} (hf : ∀ u k, P u → P (f u k)) (l : List Nat) {s : State} (h : P s) :
    P (foldSt l f s) := by
  induction l generalizing s with
  | nil => exact h
  | cons k l ih => exact ih (hf s k h)

end Sys2Proof.Machine
end

