-- ==== Sys2Proof/Laws/Ops.lean ====
section
/-! SUPPORT. Everything that a shared operation can change, said once: each lemma gives the state after the operation as the state before
it with the named fields replaced. What it does not name is unchanged, by `rfl` after `obtain`. -/

namespace Sys2Proof.Machine

/-- Only registers and their marks differ. -/
def State.SameButRegs (s t : State) : Prop := ∃ r m, t = { s with regs := r, marks := m }

/-- Only registers, their marks and the log with its new entries differ. -/
def State.SameButLog (s t : State) : Prop := ∃ r m l n, t = { s with regs := r, marks := m, ring := l, logNew := n }

/-- Only registers, their marks and the slices differ. -/
def State.SameButSlices (s t : State) : Prop := ∃ r m x, t = { s with regs := r, marks := m, slices := x }

theorem State.SameButRegs.refl (s : State) : s.SameButRegs s := ⟨_, _, rfl⟩
theorem State.SameButLog.refl (s : State) : s.SameButLog s := ⟨_, _, _, _, rfl⟩
theorem State.SameButSlices.refl (s : State) : s.SameButSlices s := ⟨_, _, _, rfl⟩

theorem State.SameButRegs.trans {s t u : State} (h : s.SameButRegs t) (g : t.SameButRegs u) : s.SameButRegs u := by
  obtain ⟨r, m, rfl⟩ := h; obtain ⟨r', m', rfl⟩ := g; exact ⟨r', m', rfl⟩

theorem State.SameButLog.trans {s t u : State} (h : s.SameButLog t) (g : t.SameButLog u) : s.SameButLog u := by
  obtain ⟨r, m, l, n, rfl⟩ := h; obtain ⟨r', m', l', n', rfl⟩ := g; exact ⟨r', m', l', n', rfl⟩

theorem State.SameButSlices.trans {s t u : State} (h : s.SameButSlices t) (g : t.SameButSlices u) : s.SameButSlices u := by
  obtain ⟨r, m, x, rfl⟩ := h; obtain ⟨r', m', x', rfl⟩ := g; exact ⟨r', m', x', rfl⟩

theorem State.SameButRegs.log {s t : State} (h : s.SameButRegs t) : s.SameButLog t := by
  obtain ⟨r, m, rfl⟩ := h; exact ⟨r, m, s.ring, s.logNew, rfl⟩

theorem State.SameButRegs.slices {s t : State} (h : s.SameButRegs t) : s.SameButSlices t := by
  obtain ⟨r, m, rfl⟩ := h; exact ⟨r, m, s.slices, rfl⟩

/-! Registers. -/

theorem setReg_same (s : State) (o : Nat) (v : Reg) : s.SameButRegs (s.setReg o v) := ⟨_, _, rfl⟩
theorem setFld_same (s : State) (o lo w v : Nat) : s.SameButRegs (s.setFld o lo w v) := ⟨_, _, rfl⟩
theorem incFld_same (s : State) (o lo w n : Nat) : s.SameButRegs (s.incFld o lo w n) := ⟨_, _, rfl⟩
theorem noteFld_same (s : State) (o lo w v : Nat) : s.SameButRegs (s.noteFld o lo w v) := ⟨_, _, rfl⟩
theorem setFlag_same (s : State) (o b : Nat) (v : Bool) : s.SameButRegs (s.setFlag o b v) := by cases v <;> exact ⟨_, _, rfl⟩

/-! Events and the log. -/

theorem pendSl_same (s : State) (k i : Nat) : s.SameButRegs (s.pendSl k i) := by
  unfold State.pendSl; split <;> exact setFlag_same _ _ _ _

theorem logLost_same (s : State) (n : Nat) : s.SameButRegs (s.logLost n) := by
  unfold State.logLost
  dsimp only
  split
  · exact (incFld_same _ _ _ _ _).trans (setFlag_same _ _ _ _)
  · exact incFld_same _ _ _ _ _

theorem logDropOldest_same (s : State) : s.SameButLog s.logDropOldest := .trans ⟨_, _, _, _, rfl⟩ (logLost_same _ _).log

theorem logPut1_same (s : State) (e : BitVec 128) : s.SameButLog (s.logPut1 e) := ⟨_, _, _, _, rfl⟩

theorem foldl_same {α : Type} (f : State → α → State) (hf : ∀ (u : State) a, u.SameButLog (f u a)) (l : List α) (s : State) :
    s.SameButLog (l.foldl f s) := by
  induction l generalizing s with
  | nil => exact .refl s
  | cons a l ih => exact (hf s a).trans (ih _)

theorem logPut_same (s : State) (es : List (BitVec 128)) : s.SameButLog (s.logPut es) := by
  unfold State.logPut
  split
  · split
    · exact foldl_same _ logPut1_same es s
    · exact (logLost_same _ _).log
  · refine foldl_same _ (fun u e => ?_) es s
    split
    · exact (logDropOldest_same u).trans (logPut1_same _ e)
    · exact logPut1_same u e

theorem logDue_same (s : State) (j : Nat) (es : List (BitVec 128)) : s.SameButLog (s.logDue j es) := ⟨_, _, _, _, rfl⟩

theorem logFlush_same (s : State) : s.SameButLog s.logFlush :=
  .trans ⟨_, _, _, _, rfl⟩ (foldl_same _ (fun u e => logPut_same u e.2) s.logNew { s with logNew := [] })

/-- A block source: only registers and the log change. -/
theorem raise_same (s : State) (j code : Nat) (d : BitVec 64) : s.SameButLog (s.raise j code d) := by
  unfold State.raise
  dsimp only
  split
  · exact (setFlag_same _ _ _ _).log.trans (logDue_same _ _ _)
  · exact (setFlag_same _ _ _ _).log

theorem raisePair_same (s : State) (j code : Nat) (f : Flit) : s.SameButLog (s.raisePair j code f) := by
  unfold State.raisePair
  dsimp only
  split
  · exact (setFlag_same _ _ _ _).log.trans (logDue_same _ _ _)
  · exact (setFlag_same _ _ _ _).log

/-- A slice source: only registers and the queue of the slice change. -/
theorem raiseSl_same (s : State) (k i code : Nat) (d : BitVec 64) : s.SameButSlices (s.raiseSl k i code d) := by
  have h := (pendSl_same s k i).slices
  unfold State.raiseSl
  dsimp only
  split
  · split
    · exact h.trans ⟨_, _, _, rfl⟩
    · exact h.trans (incFld_same _ _ _ _ _).slices
  · exact h

/-- A malformed message changes only registers and the log (R34). -/
theorem malformed_same (s : State) (l code : Nat) (f : Flit) : s.SameButLog (s.malformed l code f) := raisePair_same _ _ _ _

/-- A stale message changes only a count (R76). -/
theorem stale_same (s : State) (k : Nat) : s.SameButRegs (s.stale k) := by
  unfold State.stale; split
  · exact incFld_same _ _ _ _ _
  · exact .refl s

/-! Errors. -/

theorem correctable_same (s : State) (k b set tier : Nat) : s.SameButSlices (s.correctable k b set tier) := by
  have h := ((incFld_same s (oSl k (0x200 + 8 * b)) 16 16 1).trans ((incFld_same _ (oLifeCe (16 * k + b)) 0 32 1).trans
    (incFld_same _ (oSl k (0x200 + 8 * b)) 0 8 1))).slices
  unfold State.correctable
  dsimp only
  split
  · exact h.trans ((setFlag_same _ _ _ _).slices.trans (raiseSl_same _ _ _ _ _))
  · exact h

theorem violation_same (s : State) (k kind a : Nat) (l : LineAddr) (t : Nat) : s.SameButSlices (s.violation k kind a l t) :=
  (((incFld_same s _ _ _ _).trans ((noteFld_same _ _ _ _ _).trans (noteFld_same _ _ _ _ _))).slices).trans (raiseSl_same _ _ _ _ _)

theorem poisonCreated_same (s : State) (k c a : Nat) (l : LineAddr) (t : Nat) : s.SameButSlices (s.poisonCreated k c a l t) :=
  ((incFld_same s _ _ _ _).trans (noteFld_same _ _ _ _ _)).slices.trans (raiseSl_same _ _ _ _ _)

/-! Transactions and the journal. -/

theorem bumpEpoch_same (s : State) (h t : Nat) : s.SameButSlices (s.bumpEpoch h t) := ⟨_, _, _, rfl⟩
theorem setTxn_same (s : State) (h t : Nat) (x : Txn) : s.SameButSlices (s.setTxn h t x) := ⟨_, _, _, rfl⟩

theorem flipStore_same (s : State) (k b : Nat) : s.SameButRegs (s.flipStore k b).2 := by
  unfold State.flipStore
  split
  · exact (setFlag_same s oFlip 0 false).trans (setFlag_same _ oFlip 1 true)
  · exact .refl s

@[simp] theorem flipStore_slices (s : State) (k b : Nat) : (s.flipStore k b).2.slices = s.slices := by
  obtain ⟨r, m, h⟩ := flipStore_same s k b; rw [h]

theorem storeRecord_same (s : State) (h t : Nat) (r : Record) : s.SameButSlices (s.storeRecord h t r) := by
  unfold State.storeRecord
  dsimp only
  split
  · exact .refl s
  · exact (flipStore_same _ _ _).slices.trans ⟨_, _, _, rfl⟩

theorem flipTable_same (s : State) (h t : Nat) : s.SameButSlices (s.flipTable h t) := by
  unfold State.flipTable
  split
  · exact .refl s
  · exact (flipStore_same s h 12).slices.trans ⟨_, _, _, rfl⟩

theorem jr_same (s : State) (h t : Nat) : s.SameButSlices (s.jr h t) := by
  have g := flipTable_same s h t
  unfold State.jr
  dsimp only
  split
  · exact g
  · split
    · exact g.trans (storeRecord_same _ _ _ _)
    · exact g.trans ⟨_, _, _, rfl⟩

/-- A change of a transaction touches only the slices, and the register of the flip mask (R387, R378). -/
theorem put_same (s : State) (h t : Nat) (x : Txn) : s.SameButSlices (s.put h t x) := (setTxn_same s h t x).trans (jr_same _ h t)
theorem upd_same (s : State) (h t : Nat) (f : Txn → Txn) : s.SameButSlices (s.upd h t f) := put_same s h t _

@[simp] theorem upd_frame (s : State) (h t : Nat) (f : Txn → Txn) : (s.upd h t f).frame = s.frame := by
  obtain ⟨r, m, x, e⟩ := upd_same s h t f; rw [e]
@[simp] theorem upd_out (s : State) (h t : Nat) (f : Txn → Txn) : (s.upd h t f).out = s.out := by
  obtain ⟨r, m, x, e⟩ := upd_same s h t f; rw [e]
@[simp] theorem upd_ag (s : State) (h t : Nat) (f : Txn → Txn) (a : Nat) : (s.upd h t f).ag a = s.ag a := by
  obtain ⟨r, m, x, e⟩ := upd_same s h t f; rw [e]; rfl
@[simp] theorem upd_agenda (s : State) (h t : Nat) (f : Txn → Txn) : (s.upd h t f).agenda = s.agenda := by
  obtain ⟨r, m, x, e⟩ := upd_same s h t f; rw [e]

theorem txn_updSl (s : State) (h : Nat) (f : Slice → Slice) (k u : Nat) (hv : ∀ v, (f v).txns = v.txns) : (s.updSl h f).txn k u = s.txn k u := by
  simp only [State.txn, State.updSl, State.setSl, State.sl]
  by_cases hk : k = h
  · subst hk; rw [tget_tput_same, hv]
  · rw [tget_tput_other hk]

theorem flipStore_txn (s : State) (i b k u : Nat) : (s.flipStore i b).2.txn k u = s.txn k u := by
  obtain ⟨r, m, e⟩ := flipStore_same s i b; rw [e]; rfl

theorem flipTable_txn (s : State) (h t k u : Nat) : (s.flipTable h t).txn k u = s.txn k u := by
  unfold State.flipTable
  split
  · rfl
  · simp only [State.withFlip]
    rw [txn_updSl, flipStore_txn]
    exact fun _ => rfl

theorem storeRecord_txn (s : State) (h t : Nat) (r : Record) (k u : Nat) : (s.storeRecord h t r).txn k u = s.txn k u := by
  unfold State.storeRecord
  dsimp only
  split
  · rfl
  · rw [txn_updSl, flipStore_txn]
    exact fun _ => rfl

theorem jr_txn (s : State) (h t k u : Nat) : (s.jr h t).txn k u = s.txn k u := by
  rw [← flipTable_txn s h t]
  unfold State.jr
  dsimp only
  split
  · rfl
  · split
    · exact storeRecord_txn _ _ _ _ _ _
    · rw [txn_updSl]
      exact fun _ => rfl

/-- A stored transaction reads back; the others stay. -/
@[simp] theorem put_txn (s : State) (h t : Nat) (x : Txn) : (s.put h t x).txn h t = x := by
  rw [State.put, jr_txn]
  simp [State.txn, State.setTxn, State.updSl, State.setSl, State.sl]

theorem put_txn_other (s : State) (h t : Nat) (x : Txn) {k u : Nat} (hne : k ≠ h ∨ u ≠ t) : (s.put h t x).txn k u = s.txn k u := by
  rw [State.put, jr_txn]
  simp only [State.txn, State.setTxn, State.updSl, State.setSl, State.sl]
  by_cases hk : k = h
  · subst hk
    have hu : u ≠ t := by simpa using hne
    simp [tget_tputD_other hu]
  · rw [tget_tput_other hk]

@[simp] theorem upd_txn (s : State) (h t : Nat) (f : Txn → Txn) : (s.upd h t f).txn h t = f (s.txn h t) := put_txn _ _ _ _

/-! Agents and start-up. -/

/-- A counted expiry touches AG_CONSEC of the agent and what the block keeps of it (R165 to R167). -/
theorem countExpiry_form (s : State) (a : Nat) (b : Bool) :
    ∃ r m g, s.countExpiry a b = { s with regs := r, marks := m, agents := g } := ⟨_, _, _, rfl⟩

@[simp] theorem countExpiry_frame (s : State) (a : Nat) (b : Bool) : (s.countExpiry a b).frame = s.frame := rfl

theorem lossCause_form (s : State) (a c : Nat) : ∃ g, s.lossCause a c = { s with agents := g } := ⟨_, rfl⟩

theorem failSlice_form (s : State) (f c : Nat) : ∃ l, s.failSlice f c = { s with failDue := l } := by
  unfold State.failSlice; split
  · exact ⟨s.failDue, rfl⟩
  · exact ⟨_, rfl⟩

theorem failNow_same (s : State) (c : Nat) : s.SameButRegs (s.failNow c) :=
  (setFld_same _ _ _ _ _).trans ((setFlag_same _ _ _ _).trans (setFld_same _ _ _ _ _))

theorem startFail_same (s : State) (c : Nat) : s.SameButRegs (s.startFail c) := by
  unfold State.startFail; split
  · exact .refl s
  · exact failNow_same s c

theorem setAgSt_same (s : State) (a st : Nat) : s.SameButRegs (s.setAgSt a st) := (setFld_same _ _ _ _ _).trans (setFlag_same _ _ _ _)

/-- An agent put in a state is in it (R430). -/
theorem agSt_setAgSt (s : State) (a st : Nat) (h : st < 8) : (s.setAgSt a st).agSt a = st := by
  rw [State.agSt, State.setAgSt, fld_setFlag_apart _ _ _ _ _ _ (by omega), fld_setFld_same _ _ _ _ _ (by omega)]
  omega

theorem agSt_setAgSt_other (s : State) {a b : Nat} (st : Nat) (h : b ≠ a) : (s.setAgSt a st).agSt b = s.agSt b := by
  have ho : oAg b 0x18 ≠ oAg a 0x18 := by simp only [oAg]; omega
  simp only [State.agSt, State.setAgSt, State.fld]
  rw [reg_setFlag_other _ _ _ ho, reg_setFld_other _ _ _ _ ho]

/-- SLUICE follows STATE (R430). -/
theorem sluice_setAgSt (s : State) (a st : Nat) : (s.setAgSt a st).flag (oAg a 0x18) 3 = (st == agService || st == agRetiring) :=
  flag_setFlag_same _ _ _ _ (by omega)

end Sys2Proof.Machine
end

