-- ==== Sys2Proof/Laws/PerInstr.lean ====
section
/-! SUPPORT. What every command says of the parts it names, command by command: a slice it names is one of 16 (R5), and a message it
brings arrives on one of 24 lanes (R290) with a header and at most five payload flits (R63). -/

namespace Sys2Proof

/-- The slice a command names. -/
def Instr.slices : Instr → List Nat
  | .evganProbeTimeout k | .tempReading k _ _ | .placementWindowClose k | .decayVisit k | .watchEntryExpiry k _
  | .requestSample k _ | .slotIssue ⟨k, _⟩ _ _ | .waiterResume ⟨k, _⟩ _ | .homeWaiterResume ⟨k, _⟩ _ | .replayIssue k _
  | .spillwayIssue ⟨k, _⟩ | .stageEntryObtain k _ | .evganWriteEnter k _ | .evganWriteDrain k | .correctionWriteback k
  | .wordReread k _ | .rowRemap k | .placementMoveStart k | .placementMoveCommit k | .reportApply k | .reportRepeat k _
  | .holdEnd k _ | .snoopContractExpiry k _ _ _ | .resendExpiry k _ _ _ | .finalWaitExpiry k _ _ _ | .ackgoWaitExpiry k _
  | .wbdirtyWaitExpiry k _ _ _ | .crossingWaitExpiry k _ _ _ | .flushContractExpiry k _ | .gatherWindowClose k _
  | .mergeEntryTake k _ | .aluExecute k _ | .watchdogFire k _ | .takeoverMapWrite k | .takeoverScan k | .takeoverOpen k
  | .takeoverReplay ⟨k, _⟩ _ | .zeroingWalkStep k | .sweepEnd k | .journalRecordReceive k _ | .streamReadyReport k _
  | .streamReleaseNotice k _ | .fenceNotice k _ | .laneCreditReturn _ k _ | .rinvSetRead k | .rinvTransaction ⟨k, _⟩
  | .scrubSetRead k | .scrubRecovery ⟨k, _⟩ | .orphanRecovery ⟨k, _⟩ | .recountSetRead k | .agentwalkSetRead k
  | .agentwalkTransaction ⟨k, _⟩ | .lossSweepSetRead k | .lossSweepTransaction ⟨k, _⟩ | .meminitTransaction ⟨k, _⟩
  | .debugRead k | .returnComplete k _ => [k]
  | _ => []

/-- The message a command brings. -/
def Instr.messages : Instr → List Arrival
  | .rdShared a | .rdOwn a | .upgrade a | .rdCur a | .claim a | .atomNear a | .atomFar a | .evictClean a | .wbDirty a
  | .agentSleep a | .wrFull a | .wrPart a | .wrStream a | .fence a | .rspI a | .rspS a | .rspCross a | .rspIData a
  | .rspReport a | .ackGo a | .capOffer a => [a]
  | _ => []

namespace Laws.Parts

/-- A well-formed command names only slices and lanes that exist, and messages of a length that R63 gives. -/
def Statement (i : Instr) : Prop :=
  i.wf = true → (∀ k ∈ i.slices, k < 16) ∧ ∀ a ∈ i.messages, a.lane < 24 ∧ 1 ≤ a.flits.length ∧ a.flits.length ≤ 6

/-- A command that names no slice and brings no message. -/
theorem of_none {i : Instr} (hs : i.slices = []) (hm : i.messages = []) : Statement i := by
  intro _; simp [hs, hm]

/-- A command that names one slice. -/
theorem of_slice {i : Instr} {k : Nat} (hs : i.slices = [k]) (hm : i.messages = []) (h : i.wf = true → okSlice k = true) : Statement i := by
  intro w; have := h w; simp_all [okSlice]

/-- A command that brings one message. -/
theorem of_message {i : Instr} {a : Arrival} (hs : i.slices = []) (hm : i.messages = [a]) (h : i.wf = true → a.wf = true) : Statement i := by
  intro w; have := h w; simp_all [Arrival.wf, okLane]

theorem resetAssert : Statement .resetAssert := of_none rfl rfl
theorem resetDeassert : Statement .resetDeassert := of_none rfl rfl
theorem flashResetWaitEnd : Statement .flashResetWaitEnd := of_none rfl rfl
theorem imageHeaderReadDone (copyB : Bool) (hdr : List Byte) : Statement (.imageHeaderReadDone copyB hdr) := of_none rfl rfl
theorem imageCopyReadDone (bytes : List Byte) : Statement (.imageCopyReadDone bytes) := of_none rfl rfl
theorem evganProbeTimeout (slice : Nat) : Statement (.evganProbeTimeout slice) := of_slice rfl rfl id
theorem cisternReadDone (slots : List SlotImage) : Statement (.cisternReadDone slots) := of_none rfl rfl
theorem selftestDone (fails : List SelfFail) : Statement (.selftestDone fails) := of_none rfl rfl
theorem arrayFillDone : Statement .arrayFillDone := of_none rfl rfl
theorem memoryPortUp (port : Nat) : Statement (.memoryPortUp port) := of_none rfl rfl
theorem memWaitExpiry : Statement .memWaitExpiry := of_none rfl rfl
theorem fillWriteSend (port : Nat) : Statement (.fillWriteSend port) := of_none rfl rfl
theorem fillWriteTimeout (port : Nat) : Statement (.fillWriteTimeout port) := of_none rfl rfl
theorem blockReady : Statement .blockReady := of_none rfl rfl
theorem linkUp (agent : Nat) : Statement (.linkUp agent) := of_none rfl rfl
theorem linkDown (agent : Nat) : Statement (.linkDown agent) := of_none rfl rfl
theorem linkRetrainPause (agent : Nat) : Statement (.linkRetrainPause agent) := of_none rfl rfl
theorem memoryPortDown (port : Nat) : Statement (.memoryPortDown port) := of_none rfl rfl
theorem hpSurprise (agent : Nat) : Statement (.hpSurprise agent) := of_none rfl rfl
theorem hpRetireReq (agent : Nat) : Statement (.hpRetireReq agent) := of_none rfl rfl
theorem hpRetireCancel (agent : Nat) : Statement (.hpRetireCancel agent) := of_none rfl rfl
theorem retireRequestsDrained (agent : Nat) : Statement (.retireRequestsDrained agent) := of_none rfl rfl
theorem retireSluiceClose (agent : Nat) : Statement (.retireSluiceClose agent) := of_none rfl rfl
theorem hpPermitRise (agent : Nat) : Statement (.hpPermitRise agent) := of_none rfl rfl
theorem pmSleepReqFall (agent : Nat) : Statement (.pmSleepReqFall agent) := of_none rfl rfl
theorem sleepGrantRise (agent : Nat) : Statement (.sleepGrantRise agent) := of_none rfl rfl
theorem evclkLoss : Statement .evclkLoss := of_none rfl rfl
theorem tempReading (slice : Nat) (a : Option Int) (b : Option Int) : Statement (.tempReading slice a b) := of_slice rfl rfl id
theorem frameEdge (pmSleepReq : BitVec 16) : Statement (.frameEdge pmSleepReq) := of_none rfl rfl
theorem meterRefill : Statement .meterRefill := of_none rfl rfl
theorem placementWindowClose (slice : Nat) : Statement (.placementWindowClose slice) := of_slice rfl rfl id
theorem decayVisit (slice : Nat) : Statement (.decayVisit slice) := of_slice rfl rfl id
theorem leakEdge : Statement .leakEdge := of_none rfl rfl
theorem secondTick : Statement .secondTick := of_none rfl rfl
theorem checkpointDue : Statement .checkpointDue := of_none rfl rfl
theorem streamGapExpiry (agent : Nat) : Statement (.streamGapExpiry agent) := of_none rfl rfl
theorem watchEntryExpiry (slice : Nat) (pos : Nat) : Statement (.watchEntryExpiry slice pos) := of_slice rfl rfl Bool.and_elim_left
theorem pmcWrap (n : Nat) : Statement (.pmcWrap n) := of_none rfl rfl
theorem rdShared (a : Arrival) : Statement (.rdShared a) := of_message rfl rfl id
theorem rdOwn (a : Arrival) : Statement (.rdOwn a) := of_message rfl rfl id
theorem upgrade (a : Arrival) : Statement (.upgrade a) := of_message rfl rfl id
theorem rdCur (a : Arrival) : Statement (.rdCur a) := of_message rfl rfl id
theorem claim (a : Arrival) : Statement (.claim a) := of_message rfl rfl id
theorem atomNear (a : Arrival) : Statement (.atomNear a) := of_message rfl rfl id
theorem atomFar (a : Arrival) : Statement (.atomFar a) := of_message rfl rfl id
theorem evictClean (a : Arrival) : Statement (.evictClean a) := of_message rfl rfl id
theorem wbDirty (a : Arrival) : Statement (.wbDirty a) := of_message rfl rfl id
theorem agentSleep (a : Arrival) : Statement (.agentSleep a) := of_message rfl rfl id
theorem wrFull (a : Arrival) : Statement (.wrFull a) := of_message rfl rfl id
theorem wrPart (a : Arrival) : Statement (.wrPart a) := of_message rfl rfl id
theorem wrStream (a : Arrival) : Statement (.wrStream a) := of_message rfl rfl id
theorem fence (a : Arrival) : Statement (.fence a) := of_message rfl rfl id
theorem requestSample (slice : Nat) (lane : Nat) : Statement (.requestSample slice lane) := of_slice rfl rfl Bool.and_elim_left
theorem slotIssue (pass : Pass) (slot : Nat) (store : StoreRead) : Statement (.slotIssue pass slot store) := of_slice rfl rfl Bool.and_elim_left
theorem waiterResume (pass : Pass) (slot : Nat) : Statement (.waiterResume pass slot) := of_slice rfl rfl Bool.and_elim_left
theorem homeWaiterResume (pass : Pass) (tag : Nat) : Statement (.homeWaiterResume pass tag) := of_slice rfl rfl Bool.and_elim_left
theorem replayIssue (slice : Nat) (hdrFail : Bool) : Statement (.replayIssue slice hdrFail) := of_slice rfl rfl id
theorem spillwayIssue (pass : Pass) : Statement (.spillwayIssue pass) := of_slice rfl rfl id
theorem stageEntryObtain (slice : Nat) (tag : Nat) : Statement (.stageEntryObtain slice tag) := of_slice rfl rfl Bool.and_elim_left
theorem evganWriteEnter (slice : Nat) (tag : Nat) : Statement (.evganWriteEnter slice tag) := of_slice rfl rfl Bool.and_elim_left
theorem evganWriteDrain (slice : Nat) : Statement (.evganWriteDrain slice) := of_slice rfl rfl id
theorem correctionWriteback (slice : Nat) : Statement (.correctionWriteback slice) := of_slice rfl rfl id
theorem wordReread (slice : Nat) (rowError : Bool) : Statement (.wordReread slice rowError) := of_slice rfl rfl id
theorem rowRemap (slice : Nat) : Statement (.rowRemap slice) := of_slice rfl rfl id
theorem placementMoveStart (slice : Nat) : Statement (.placementMoveStart slice) := of_slice rfl rfl id
theorem placementMoveCommit (slice : Nat) : Statement (.placementMoveCommit slice) := of_slice rfl rfl id
theorem rspI (a : Arrival) : Statement (.rspI a) := of_message rfl rfl id
theorem rspS (a : Arrival) : Statement (.rspS a) := of_message rfl rfl id
theorem rspCross (a : Arrival) : Statement (.rspCross a) := of_message rfl rfl id
theorem rspIData (a : Arrival) : Statement (.rspIData a) := of_message rfl rfl id
theorem rspReport (a : Arrival) : Statement (.rspReport a) := of_message rfl rfl id
theorem reportApply (slice : Nat) : Statement (.reportApply slice) := of_slice rfl rfl id
theorem reportRepeat (slice : Nat) (agent : Nat) : Statement (.reportRepeat slice agent) := of_slice rfl rfl Bool.and_elim_left
theorem ackGo (a : Arrival) : Statement (.ackGo a) := of_message rfl rfl id
theorem holdEnd (slice : Nat) (tag : Nat) : Statement (.holdEnd slice tag) := of_slice rfl rfl Bool.and_elim_left
theorem capOffer (a : Arrival) : Statement (.capOffer a) := of_message rfl rfl id
theorem memData (m : MemArrival) : Statement (.memData m) := of_none rfl rfl
theorem memCmp (m : MemArrival) : Statement (.memCmp m) := of_none rfl rfl
theorem snoopContractExpiry (slice : Nat) (tag : Nat) (agent : Nat) (line : Nat) : Statement (.snoopContractExpiry slice tag agent line) := of_slice rfl rfl fun h => Bool.and_elim_left (Bool.and_elim_left (Bool.and_elim_left h))
theorem resendExpiry (slice : Nat) (tag : Nat) (agent : Nat) (line : Nat) : Statement (.resendExpiry slice tag agent line) := of_slice rfl rfl fun h => Bool.and_elim_left (Bool.and_elim_left (Bool.and_elim_left h))
theorem finalWaitExpiry (slice : Nat) (tag : Nat) (agent : Nat) (line : Nat) : Statement (.finalWaitExpiry slice tag agent line) := of_slice rfl rfl fun h => Bool.and_elim_left (Bool.and_elim_left (Bool.and_elim_left h))
theorem ackgoWaitExpiry (slice : Nat) (tag : Nat) : Statement (.ackgoWaitExpiry slice tag) := of_slice rfl rfl Bool.and_elim_left
theorem wbdirtyWaitExpiry (slice : Nat) (tag : Nat) (agent : Nat) (line : Nat) : Statement (.wbdirtyWaitExpiry slice tag agent line) := of_slice rfl rfl fun h => Bool.and_elim_left (Bool.and_elim_left (Bool.and_elim_left h))
theorem crossingWaitExpiry (slice : Nat) (tag : Nat) (agent : Nat) (line : Nat) : Statement (.crossingWaitExpiry slice tag agent line) := of_slice rfl rfl fun h => Bool.and_elim_left (Bool.and_elim_left (Bool.and_elim_left h))
theorem flushContractExpiry (slice : Nat) (agent : Nat) : Statement (.flushContractExpiry slice agent) := of_slice rfl rfl Bool.and_elim_left
theorem gatherWindowClose (slice : Nat) (tag : Nat) : Statement (.gatherWindowClose slice tag) := of_slice rfl rfl Bool.and_elim_left
theorem mergeEntryTake (slice : Nat) (tag : Nat) : Statement (.mergeEntryTake slice tag) := of_slice rfl rfl Bool.and_elim_left
theorem aluExecute (slice : Nat) (tag : Nat) : Statement (.aluExecute slice tag) := of_slice rfl rfl Bool.and_elim_left
theorem watchdogFire (slice : Nat) (tag : Nat) : Statement (.watchdogFire slice tag) := of_slice rfl rfl Bool.and_elim_left
theorem takeoverMapWrite (failed : Nat) : Statement (.takeoverMapWrite failed) := of_slice rfl rfl id
theorem takeoverScan (failed : Nat) : Statement (.takeoverScan failed) := of_slice rfl rfl id
theorem takeoverOpen (failed : Nat) : Statement (.takeoverOpen failed) := of_slice rfl rfl id
theorem takeoverReplay (pass : Pass) (slot : Nat) : Statement (.takeoverReplay pass slot) := of_slice rfl rfl Bool.and_elim_left
theorem zeroingWalkStep (failed : Nat) : Statement (.zeroingWalkStep failed) := of_slice rfl rfl id
theorem sweepEnd (slice : Nat) : Statement (.sweepEnd slice) := of_slice rfl rfl id
theorem bypassLaneChange (router : Nat) (lane : Nat) (hclk : Nat) : Statement (.bypassLaneChange router lane hclk) := of_none rfl rfl
theorem journalRecordReceive (slice : Nat) (ecc : Ecc) : Statement (.journalRecordReceive slice ecc) := of_slice rfl rfl id
theorem streamReadyReport (slice : Nat) (tag : Nat) : Statement (.streamReadyReport slice tag) := of_slice rfl rfl Bool.and_elim_left
theorem streamReleaseNotice (slice : Nat) (tag : Nat) : Statement (.streamReleaseNotice slice tag) := of_slice rfl rfl Bool.and_elim_left
theorem fenceNotice (slice : Nat) (tag : Nat) : Statement (.fenceNotice slice tag) := of_slice rfl rfl Bool.and_elim_left
theorem laneCreditReturn (lane : Nat) (slice : Nat) (c0 : Bool) : Statement (.laneCreditReturn lane slice c0) := of_slice rfl rfl Bool.and_elim_right
theorem flitHopRetry (src : Nat) (dst : Nat) (again : Bool) : Statement (.flitHopRetry src dst again) := of_none rfl rfl
theorem rinvStart (w : RegAccess) : Statement (.rinvStart w) := of_none rfl rfl
theorem rinvSetRead (slice : Nat) : Statement (.rinvSetRead slice) := of_slice rfl rfl id
theorem rinvTransaction (pass : Pass) : Statement (.rinvTransaction pass) := of_slice rfl rfl id
theorem scrubStart (w : RegAccess) : Statement (.scrubStart w) := of_none rfl rfl
theorem scrubSetRead (slice : Nat) : Statement (.scrubSetRead slice) := of_slice rfl rfl id
theorem scrubRecovery (pass : Pass) : Statement (.scrubRecovery pass) := of_slice rfl rfl id
theorem orphanRecovery (pass : Pass) : Statement (.orphanRecovery pass) := of_slice rfl rfl id
theorem recountSetRead (slice : Nat) : Statement (.recountSetRead slice) := of_slice rfl rfl id
theorem agentwalkStart (w : RegAccess) : Statement (.agentwalkStart w) := of_none rfl rfl
theorem agentwalkSetRead (slice : Nat) : Statement (.agentwalkSetRead slice) := of_slice rfl rfl id
theorem agentwalkTransaction (pass : Pass) : Statement (.agentwalkTransaction pass) := of_slice rfl rfl id
theorem lossSweepSetRead (slice : Nat) : Statement (.lossSweepSetRead slice) := of_slice rfl rfl id
theorem lossSweepTransaction (pass : Pass) : Statement (.lossSweepTransaction pass) := of_slice rfl rfl id
theorem lossDone (agent : Nat) : Statement (.lossDone agent) := of_none rfl rfl
theorem meminitStart (w : RegAccess) : Statement (.meminitStart w) := of_none rfl rfl
theorem meminitTransaction (pass : Pass) : Statement (.meminitTransaction pass) := of_slice rfl rfl id
theorem debugRead (slice : Nat) : Statement (.debugRead slice) := of_slice rfl rfl id
theorem filterDisable (w : RegAccess) : Statement (.filterDisable w) := of_none rfl rfl
theorem filterStaleEnable (w : RegAccess) : Statement (.filterStaleEnable w) := of_none rfl rfl
theorem filterRebuild (w : RegAccess) : Statement (.filterRebuild w) := of_none rfl rfl
theorem flipArm (w : RegAccess) : Statement (.flipArm w) := of_none rfl rfl
theorem takeoverForce (w : RegAccess) : Statement (.takeoverForce w) := of_none rfl rfl
theorem sliceReturn (w : RegAccess) : Statement (.sliceReturn w) := of_none rfl rfl
theorem returnComplete (slice : Nat) (testOk : Bool) : Statement (.returnComplete slice testOk) := of_slice rfl rfl id
theorem cfgBegin (init : Nat) : Statement (.cfgBegin init) := of_none rfl rfl
theorem cfgCommit (init : Nat) : Statement (.cfgCommit init) := of_none rfl rfl
theorem cfgRollback (init : Nat) : Statement (.cfgRollback init) := of_none rfl rfl
theorem cfgTimeout (init : Nat) : Statement (.cfgTimeout init) := of_none rfl rfl
theorem rwlWrite (w : RegAccess) : Statement (.rwlWrite w) := of_none rfl rfl
theorem drainMaskWrite (w : RegAccess) : Statement (.drainMaskWrite w) := of_none rfl rfl
theorem logRdWrite (w : RegAccess) : Statement (.logRdWrite w) := of_none rfl rfl
theorem evtPendClear (w : RegAccess) : Statement (.evtPendClear w) := of_none rfl rfl
theorem pmcSnap (w : RegAccess) : Statement (.pmcSnap w) := of_none rfl rfl
theorem pmcFreeze (w : RegAccess) : Statement (.pmcFreeze w) := of_none rfl rfl
theorem cisternSave (w : RegAccess) : Statement (.cisternSave w) := of_none rfl rfl
theorem calendarWrite (w : RegAccess) : Statement (.calendarWrite w) := of_none rfl rfl
theorem nvmRead (w : RegAccess) : Statement (.nvmRead w) := of_none rfl rfl
theorem nvmProgram (w : RegAccess) : Statement (.nvmProgram w) := of_none rfl rfl
theorem nvmErase (w : RegAccess) : Statement (.nvmErase w) := of_none rfl rfl
theorem nvmReload (w : RegAccess) : Statement (.nvmReload w) := of_none rfl rfl
theorem nvmItemStart : Statement .nvmItemStart := of_none rfl rfl
theorem flashOpComplete (data : List Byte) : Statement (.flashOpComplete data) := of_none rfl rfl
theorem flashOpTimeout : Statement .flashOpTimeout := of_none rfl rfl
theorem busTransferGrant (boundary : Nat) (completes : Bool) : Statement (.busTransferGrant boundary completes) := of_none rfl rfl
theorem busTimeout : Statement .busTimeout := of_none rfl rfl
theorem logCollect : Statement .logCollect := of_none rfl rfl
theorem registerWrite (w : RegAccess) : Statement (.registerWrite w) := of_none rfl rfl
theorem hpPermitFall (agent : Nat) : Statement (.hpPermitFall agent) := of_none rfl rfl

end Laws.Parts

end Sys2Proof
end

