-- ==== Sys2Proof/Tests/Slice0.lean ====
section
/-! SUPPORT. Tests: the checks of WellFormed refuse their ill-formed commands; the worked examples of the spec; and for every statement
with hypotheses a concrete state and operands that meet them. -/

namespace Sys2Proof.Machine.Tests

set_option Elab.async false

/-! Small states. -/

/-- The block in service at frame 100, with nothing in it. -/
def up : State := { State.reset with inReset := false, ready := true, frame := 100 }

/-- The block before service, in a phase of start-up. -/
def boot (n : Nat) : State := { State.reset with inReset := false, frame := 5000 }.setPhase n

/-- In service with memory route 0 valid over all GiBs to port 0, and the links of the hubs up. -/
def routed : State := { up.setReg (oRoute 0) 0x3FFF000000000011 with hubUp := 0xF }

/-- The same with an agent in service. -/
def joined (a : Nat) : State := routed.setAgSt a agService

/-- A message on a lane: its header, then its payload, with their parity. -/
def msg (lane : Nat) (l : List Flit) : Arrival := { lane := lane, vc := bits (l.headD 0) 4 2, flits := l.map fun f => (f, parOf f) }

/-- The header of a request in class C1 of tenant 0. -/
def ask (op : ReqOp) (src : Nat) (a : WireAddr) : Header := put 0 op.code ||| put 8 (BitVec.ofNat 10 src) ||| put 34 (1 : BitVec 2) ||| put 36 a

/-- The header of a response to slice 0, tag 5. -/
def reply (op : RspOp) (a : Nat) (l : WireAddr) : Header := put 0 op.code ||| put 8 (BitVec.ofNat 5 a) ||| put 18 (5 : BitVec 10) ||| put 36 l

/-- The header of an answer of memory to slice 0, tag 5. -/
def answer (op : BitVec 6) : Header := put 0 op ||| put 28 (5 : BitVec 10)

/-- A state with a transaction in slice 0 under tag 5. -/
def holding (s : State) (x : Txn) : State := s.setTxn 0 5 x

/-- The test state with the Evgan tier present. -/
def tiered : State := up.setFlag oFilter 0 true

/-! WellFormed: one ill-formed command for each check. -/

theorem test_wf_slice : (Instr.reportApply 16).wf = false := by decide
theorem test_wf_port : (Instr.memoryPortUp 12).wf = false := by decide
theorem test_wf_agent : (Instr.linkUp 24).wf = false := by decide
theorem test_wf_io_agent : (Instr.hpPermitRise 15).wf = false := by decide
theorem test_wf_compute_agent : (Instr.sleepGrantRise 16).wf = false := by decide
theorem test_wf_tag : (Instr.holdEnd 0 1024).wf = false := by decide
theorem test_wf_slot : (Instr.slotIssue ⟨0, false⟩ 16 ⟨.clean, .clean, .clean⟩).wf = false := by decide
theorem test_wf_watch : (Instr.watchEntryExpiry 0 32).wf = false := by decide
theorem test_wf_counter : (Instr.pmcWrap 129).wf = false := by decide
theorem test_wf_lane : (Instr.requestSample 0 24).wf = false := by decide
theorem test_wf_no_header : (Instr.rdOwn ⟨0, 0, []⟩).wf = false := by decide
theorem test_wf_seven_flits : (Instr.wrPart (msg 17 [0, 0, 0, 0, 0, 0, 0])).wf = false := by decide
theorem test_wf_memory_flits : (Instr.memData ⟨0, [(0, 0), (0, 0)]⟩).wf = false := by decide
theorem test_wf_initiator : (Instr.registerWrite ⟨16, 0, 8, 0, false⟩).wf = false := by decide
theorem test_wf_cfg_initiator : (Instr.cfgBegin 16).wf = false := by decide
theorem test_wf_row : (Instr.selftestDone [.row 0 false 4096]).wf = false := by decide
theorem test_wf_spare : (Instr.selftestDone [.spare 0 true 32]).wf = false := by decide
theorem test_wf_decoder : (Instr.selftestDone [.decoder 0 12]).wf = false := by decide
theorem test_wf_store : (Instr.selftestDone [.store 0 13]).wf = false := by decide
theorem test_wf_router : (Instr.selftestDone [.router 24]).wf = false := by decide
theorem test_wf_line : (Instr.finalWaitExpiry 0 0 0 4).wf = false := by decide
theorem test_wf_router_lane : (Instr.bypassLaneChange 0 20 0).wf = false := by decide
theorem test_wf_hop : (Instr.flitHopRetry 0 24 false).wf = false := by decide
theorem test_wf_boundary : (Instr.busTransferGrant 8 true).wf = false := by decide
theorem test_wf_header_bytes : (Instr.imageHeaderReadDone false [0]).wf = false := by decide
theorem test_wf_cistern_slot : (Instr.cisternReadDone [⟨256, []⟩]).wf = false := by decide

/-! The worked examples of the spec. -/

/-- 01_block_in_the_package.md: the line at PA 0x02A4_7F3C_1D40 belongs to slice 7. -/
theorem test_hash_example : State.reset.hash 0xA91FCF075 = 7 := by decide +kernel
/-- 02_krauth_protocol.md: the parity of the example's header. -/
theorem test_parity_example : parOf 0xA91FCF0750330C0501 = 0b0001 := by decide
/-- 12_internal_network.md: the longest path (R477), and the example's request and completion, which cross the same routers. -/
theorem test_routes_example : (route 16 15).length = 10 ∧ crossing 16 15 6 = 27 ∧ route 18 7 = [18, 1, 2, 3, 4, 5, 6, 7] ∧
    route 7 18 = (route 18 7).reverse ∧ (Port.agent 5).place = (18, 1) := by decide
/-- 05_snoop_filter.md: the set indices and the tag parity of the example's sector. -/
theorem test_sets_example : setD 0x2A47F3C1D = 0xC9D ∧ setE 0x2A47F3C1D = 0x25DD ∧ tagPar (tagOf 0x2A47F3C1D) = 0b01 := by decide
/-- 05_snoop_filter.md: the check codes of Owned {5} and Owned {9}. -/
theorem test_check_example : checkCode 0b10 (vecOf 5) = 0x12 ∧ checkCode 0b10 (vecOf 9) = 0x28 := by decide
/-- 05_snoop_filter.md: the threshold after the four windows of the example. -/
theorem test_threshold_example :
    thetaNext 85 52000 7000 4 = 5 ∧ thetaNext 85 41000 9000 5 = 4 ∧ thetaNext 85 38000 10000 4 = 3 ∧ thetaNext 85 42000 7000 3 = 4 := by decide
/-- The table of R235. -/
theorem test_budget_table : (List.range 12).map (fun i => budgetFor (BitVec.ofNat 8 (95 + i))) =
    [128, 119, 110, 101, 93, 84, 75, 66, 58, 49, 40, 32] := by decide
/-- 07_the_weir.md: the stale finish time of the example is before V, and the waking one is not. -/
theorem test_finish_example : before32 0x80001080 1768 = true ∧ before32 1768 1896 = true ∧ before32 1896 1768 = false := by decide
/-- 07_the_weir.md: Δ of the example's tenants 5 and 6. -/
theorem test_delta_example :
    ((up.setFld (oTn 5 0x20) 0 8 16).setFld (oTn 6 0x20) 0 8 128).delta 5 1 8 = 128 ∧
    ((up.setFld (oTn 5 0x20) 0 8 16).setFld (oTn 6 0x20) 0 8 128).delta 6 3 8 = 256 := by decide
/-- 07_the_weir.md: of ten `RdShared` of the example's tenant 6, six are green and the others yellow, and its buckets end at 0 and 16. -/
theorem test_meter_example :
    let s := ((up.setFlag (oTn 6 0x20) 12 true).setReg (oTn 6 0x18) 0x0060003000400020).setBuckets 3 6 48 96
    let r := (List.range 10).foldl (fun (p : List Color × State) _ => let q := p.2.colorReq 3 6 8; (p.1 ++ [q.1], q.2)) ([], s)
    r.1 = List.replicate 6 .green ++ List.replicate 4 .yellow ∧ r.2.cBucket 3 6 = 0 ∧ r.2.pBucket 3 6 = 16 := by decide +kernel
/-- The check value of the CRC-32 that R501 names, over the ASCII digits 1 to 9. -/
theorem test_crc_check : crc32 [0x31, 0x32, 0x33, 0x34, 0x35, 0x36, 0x37, 0x38, 0x39] = 0xCBF43926 := by decide +kernel
/-- R254: the slots of four C0 slots, as the example of 07_the_weir.md lists them. -/
theorem test_c0_slots : c0Map 4 = [0, 4, 8, 12] := by decide

/-! Witnesses: for each statement with hypotheses, a state and operands that meet them, for each of its clauses. -/

theorem witness_stepRuns : State.reset.pending = [] := rfl
theorem witness_completes : Instr.blockReady.wf = true ∧ (boot 1).fusing = .kr16 ∧ ({ up with fusing := .kr16x8 } : State).fusing = .kr16x8 := by
  decide
theorem witness_resetHolds : State.reset.inReset = true ∧ Instr.blockReady ≠ .resetAssert ∧ Instr.blockReady ≠ .resetDeassert := by decide
theorem witness_commandKeeps : exec .blockReady State.reset = .next State.reset ∧ (∀ l, Instr.blockReady ≠ .frameEdge l) ∧
    (∀ k a b, Instr.blockReady ≠ .tempReading k a b) := ⟨rfl, fun _ => Instr.noConfusion, fun _ _ _ => Instr.noConfusion⟩
theorem witness_resetPins : State.reset.ResetPins ∧ step State.reset = .next State.reset := ⟨fun _ => by decide, rfl⟩
theorem witness_registers : State.reset.RegsWf ∧ 32 + 32 ≤ 64 ∧ oBoot ≠ oFill := ⟨⟨.nil, by simp [State.reset]⟩, by decide⟩
theorem witness_recordReads : (3 : Nat) < 4 ∧ (LineState.shared 0x800000).Legal ∧ (LineState.owned 23).Legal ∧ LineState.untracked.Legal :=
  ⟨by decide, show (0x800000 : Agents) ≠ 0 by decide, show 23 < 24 by decide, trivial⟩
theorem witness_recordErrors : 32 + 33 * 3 ≤ 131 ∧ (131 : Nat) < 163 ∧ 163 < 65 + 33 * 3 := by decide
theorem witness_victims : ([15] : List Nat) ≠ [] ∧ (∀ w ∈ [15], w < 16) ∧ (List.range 16).Perm (List.range 16) := ⟨by decide, by decide, .refl _⟩
theorem witness_parity : (3 : Nat) < 4 ∧ (127 : Nat) < 128 ∧ ((1 : Flit), (0 : Par)).2 ≠ parOf ((1 : Flit), (0 : Par)).1 := by decide
theorem witness_headers : (1023 : Nat) < 1024 ∧ (15 : Nat) < 16 ∧ (31 : Nat) < 32 ∧ (3 : Nat) < 4 := by decide
theorem witness_budget : (-64 : Int) ≤ 95 ∧ (95 : Int) ≤ 106 ∧ (106 : Int) ≤ 127 := by decide
/-- An offer of revisions 2 to 3, one of 2 alone, and one of 1 alone. -/
theorem witness_revision : chooseRev 0x7320000 = 3 ∧ chooseRev 0x7220000 = 2 ∧ chooseRev 0x7110000 = 0 := by decide
theorem witness_before : before32 0xFFFFFFFF 0 = true ∧ before32 0 0x7FFFFFFF = true ∧ before32 0 0x80000000 = false := by decide
/-- Tenant 0 without a meter, and red, yellow and green. -/
theorem witness_meter :
    let m := up.setFlag (oTn 0 0x20) 12 true
    up.meterEn 0 = false ∧ (m.meterEn 0 = true ∧ m.pBucket 0 0 ≤ 0) ∧ (m.meterEn 0 = true ∧ 0 < (m.setBuckets 0 0 0 9).pBucket 0 0 ∧
    (m.setBuckets 0 0 0 9).cBucket 0 0 ≤ 0) ∧ 0 < (m.setBuckets 0 0 9 9).cBucket 0 0 := by decide +kernel
theorem witness_allowance : (up.setFld oSlot 0 4 0).c0Slots = 0 ∧ (up.c0Slots ≠ 0 ∧ 64 ≤ up.c0Credit 0 0) ∧ up.c0Credit 0 1 < 64 := by
  decide +kernel
theorem witness_raise : (127 : Nat) < 128 ∧ (71 : Nat) < 72 := by decide
theorem witness_log : ([0] : List (BitVec 128)).length = 1 ∧ ([0, 0] : List (BitVec 128)).length = 2 ∧ ({ up with ring := { wr := 4096 } } : State).logUsed ≤ 4096 ∧ State.reset.logUsed ≤ 4096 := by
  decide +kernel
theorem witness_edgeBit : (63 : Nat) < 64 ∧ oBoot ≠ oFill := by decide
/-- The four results of a COMMIT. -/
theorem witness_commit :
    let clash : CfgView := { shadow := [(oHome, 0x3F, 1)] }
    let sums : CfgView := { shadow := [(oTn 0 0x10, 0xFFF, 0xFFF)] }
    ((4096 : Nat) < ({ writes := 4097 } : CfgView).writes) ∧ ({ up with committed := [(oHome, 1)] }.conflict clash).isSome = true ∧
    (up.shadowed sums).r260 = false ∧ (up.shadowed clash).r260 = true ∧ ((up.conflict clash).isSome = false ∧ (clash.shadow.map Prod.fst).Nodup ∧
      sliceOff oHome = none ∧ (0x3F : Reg).getLsbD 5 = true ∧ (rwlMask oHome).getLsbD 5 = true) ∧
    ((rwlMask oHome).getLsbD 8 = true ∧ (0x3F : Reg).getLsbD 8 = false) := by decide +kernel
theorem witness_resetPin : State.reset.inReset = true ∧ up.inReset = false := by decide

/-! An image copy (R499 to R502) with the three required sections, and a cistern record (R549). -/

/-- The section bytes: PART, MASKS and ROUTES. -/
def demoSections : List Byte :=
  (leBytes 1 1 ++ leBytes 1 0 ++ leBytes 2 2 ++ List.replicate 12 0) ++
  ((List.range 4).flatMap fun i => leBytes 8 (0x1111111111 * 2 ^ i)) ++ (leBytes 8 0x3FFF000000000011 ++ List.replicate 120 0)

/-- A section table entry. -/
def demoEntry (type off size : Nat) : List Byte :=
  leBytes 4 type ++ leBytes 4 off ++ leBytes 4 size ++ leBytes 4 (crc32 (cut demoSections (off - 0x70) size)).toNat

/-- The section table. -/
def demoTable : List Byte := demoEntry 1 0x70 16 ++ demoEntry 2 0x80 32 ++ demoEntry 3 0xA0 128

/-- The first 60 bytes of the header of a copy with a revision and COMMIT bytes. -/
def demoHead (revision commit : Nat) : List Byte :=
  [0x4C, 0x5A, 0x49, 0x31] ++ leBytes 2 1 ++ leBytes 1 0x10 ++ leBytes 1 3 ++ leBytes 4 revision ++ leBytes 4 0x120 ++ List.replicate 16 0 ++
  leBytes 4 commit ++ List.replicate 20 0 ++ leBytes 4 (crc32 demoTable).toNat

/-- The 64 header bytes. -/
def demoHeader (revision commit : Nat) : List Byte := demoHead revision commit ++ leBytes 4 (crc32 (demoHead revision 0xFFFFFFFF)).toNat

/-- A copy of revision 1. -/
def demoImage : List Byte := demoHeader 1 0 ++ demoTable ++ demoSections

/-- A committed record in slot 7. -/
def demoRecord : SlotImage :=
  let body := up.recordBody []
  let head := up.recordHead .checkpoint 0 1 5 body
  ⟨7, head ++ leBytes 4 (crc32 head).toNat ++ body ++ [0, 0, 0, 0]⟩

theorem witness_flashWait : (boot 1).inReset = false ∧ (boot 1).phase = 1 ∧ 4160 ≤ (boot 1).frame := by decide +kernel
/-- The state before each header: with one candidate, and with none. -/
theorem witness_headers_read :
    let s := { boot 1 with boot := { waited := true } }
    s.phase = 1 ∧ s.boot.waited = true ∧ s.boot.hdrA = none ∧ tryOrder s.fusing (demoHeader 1 0) (demoHeader 2 0) = [true, false] ∧
    tryOrder s.fusing (demoHeader 1 0xFFFFFFFF) [] = [] := by decide +kernel
/-- A copy that is accepted, one that is not, and whether another candidate is left. -/
theorem witness_copy :
    let s := { boot 2 with boot := { hdrB := some (demoHeader 1 0), hdrA := some (demoHeader 1 0), toTry := [true, false] } }
    s.phase = 2 ∧ s.boot.toTry = true :: [false] ∧ copyReject s.fusing demoImage = 0 ∧ copyReject s.fusing (demoHeader 1 0) = 2 ∧
    ({ s with boot := { s.boot with toTry := [false] } }.boot.toTry = false :: []) := by decide +kernel
/-- The load edge of a copy without TUNING and CONTRACTS, and a register that it leaves alone. -/
theorem witness_load :
    let s := { boot 2 with boot := { accepted := some demoImage } }
    s.boot.accepted = some demoImage ∧ s.phase = 2 ∧ sectionBytes demoImage 4 = none ∧ (sectionBytes demoImage 2).isSome = true ∧
    oDrain ∉ [oBoot, oFilter, oFlip, oTakeover] ∧ (0 : Nat) < s.nSlices := by decide +kernel
theorem witness_cistern : (boot 3).phase = 3 ∧ restorable 0 [] = none ∧
    (restorable 1 ([demoRecord].filter fun x => slotCandidate x.bytes)).isSome = true := by decide +kernel
/-- Before each failure of start-up. -/
theorem witness_startFailures :
    let s := { boot 5 with boot := { loadAt := some 904, memWait := 4, engines := [(0, { waiting := [(0, 0, 0)] })] }, frame := 70000 }
    let u := (s.setFlag oFilter 0 true).setReg (oRoute 0) 0x3FFF000000000011
    (u.phase ≠ 8 ∧ u.phase ≠ 15 ∧ u.evganPresent = true ∧ 904 + 64 ≤ u.frame) ∧ (3 ≤ u.phase ∧ u.phase ≤ 6 ∧ 904 + 1024 * u.boot.memWait ≤ u.frame ∧
    u.portsUp = false) ∧ ((u.setPhase 7).phase = 7 ∧ (u.fillEngine 0).waiting.any (fun w => w.2.2 + 65536 ≤ u.frame) = true) ∧
    u.ready = false ∧ ((u.frame - 368) % 1024 = 0 ∧ readingOf (some 110) none = some 110) ∧
    { u with lapsed := [.probe] }.lapsed = Lapse.probe :: [] := by decide +kernel
/-- At the ends of the phases: a clean self-test, a lost pair, a failed router; a port up; BLOCK_READY; both sends of a fill engine. -/
theorem witness_phases :
    let r := (boot 6).setReg (oRoute 0) 0x3FFF000000000011
    let z := { (boot 7).setReg (oRoute 0) 0x3FFF000000000011 with boot := { fills := [(0, 0)] } }
    ((boot 4).phase = 4 ∧ (boot 4).fld oTakeover 16 8 = 0) ∧ (boot 5).phase = 5 ∧ (r.phase = 6 ∧ (r.setFlag oFill 40 true).portsUp = true) ∧
    ((boot 7).phase = 7 ∧ (boot 7).boot.zeroAt < (boot 7).frame ∧ (boot 7).usedPorts.all (boot 7).fillDone = true) ∧
    (z.phase = 7 ∧ (z.fillEngine 0).offered.1 < z.frame ∧ (z.fillEngine 0).resend.find? (fun w => w.2.2 < z.frame) = none ∧ z.fillNext 0 = some (0, 0) ∧
    (List.range 256).find? (fun t => !((z.fillEngine 0).waiting.any fun w => w.1 == t)) = some 0) ∧
    ([((3 : Nat), (0 : Nat), (9 : Nat))].find? fun w => w.2.2 < z.frame) = some (3, 0, 9) ∧ (boot 7).fillNext 0 = none ∧
    (let y : State := { z with boot := { z.boot with engines := [(0, { offered := (5000, 24) })] } }
     (y.fillEngine 0).offered = (y.frame, 24)) ∧
    ((List.all [] fun f => match selfSlice f with | some h => decide (h < (boot 4).nSlices) | none => true) = true ∧
      (selfSlice (.router 3)).isNone = true) := by decide +kernel
theorem witness_links : up.inReset = false ∧ (23 : Nat) < 24 ∧ (joined 23).sluice 23 = true ∧ up.agSt 23 = agDown := by decide +kernel
theorem witness_pins : up.inReset = false ∧ up.ready = true ∧ up.memFailed.getLsbD 11 = false ∧ (joined 23).sluice 23 = true ∧
    (joined 23).agSt 23 = agService := by decide +kernel
/-- Before each grant and each step of a retirement. -/
theorem witness_grants :
    let z := { up.setAgSt 3 agSleeping with pmSleepReq := 8 }.updAg 3 fun g => { g with sleepGo := some 90 }
    let d := (up.setAgSt 20 agRetired).updAg 20 fun g => { g with retire := .closed }
    let r := (up.setAgSt 20 agRetiring).updAg 20 fun g => { g with retire := .drain, intakeClosed := true }
    let w := r.updAg 20 fun g => { g with retire := .walk }
    ((z.ag 3).sleepGo = some 90 ∧ 90 < z.frame ∧ z.agSt 3 = agSleeping ∧ z.egress 3 = false ∧ z.pmSleepReq.getLsbD 3 = true) ∧
    (d.agSt 20 = agRetired ∧ (d.ag 20).retire = .closed ∧ { d with hpRetireReq := 16 }.hpRetireReq.getLsbD (20 - 16) = true ∧ d.egress 20 = false) ∧
    (r.agSt 20 = agRetiring ∧ (r.ag 20).retire = .drain ∧ (r.ag 20).intakeClosed = true ∧ r.holdsReq 20 (fun r => !r.evict) = false) ∧
    (w.agSt 20 = agRetiring ∧ (w.ag 20).retire = .walk) ∧
    (let l : State := { joined 20 with hpRetireReq := 16 }
     l.inService = true ∧ l.agSt 20 = agService ∧ l.hpRetireReq.getLsbD (20 - 16) = true ∧ r.hpRetireReq.getLsbD (20 - 16) = false ∧
     (let c := ({ w with hpRetireReq := 16 } : State).updAg 20 fun g => { g with retire := .closed }
      c.agSt 20 = agRetiring ∧ c.hpRetireReq.getLsbD (20 - 16) = true ∧ (c.ag 20).retire = .closed ∧ c.mayRetire 20 = true)) := by
  decide +kernel

/-- An `AgentSleep` of agent 3 before its decision, which the level on its pin decides, and after each; a request that the loss of its agent meets. -/
theorem witness_sleep :
    let s (g : Option Bool) := holding (joined 3) { req := { op := .agentSleep, src := 3 }, st := .gather, granted := g }
    let x := (s none).txn 0 5
    (x.cmpSent = false ∧ (s none).tagOpen 0 5 = true ∧ x.reqLost = false ∧ (s none).agSt 3 ≠ agLost ∧ x.granted = none ∧
      (s none).maySleep 0 5 3 8 = true ∧ (s none).maySleep 0 5 3 0 = false) ∧
    (((s (some false)).txn 0 5).granted = some false ∧ ((s (some true)).txn 0 5).granted = some true) ∧
    (let y : Txn := { req := { src := 3 }, st := .alu, mems := [{ op := .rd }] }
     y.home = none ∧ y.req.ofAgent 3 = true ∧ y.req.evict = false ∧ y.st ≠ .free ∧ y.st ≠ .waiting ∧ y.cmpSent = false ∧ ∃ m ∈ y.mems, m.op = .rd) ∧
    ({ agent := 3, kind := .ackGo, start := 90, len := 8 } : Wait).kind = .ackGo := by
  refine ⟨by decide +kernel, by decide +kernel, ⟨by decide, by decide, by decide, by decide, by decide, by decide, ⟨_, .head _, rfl⟩⟩, rfl⟩
theorem witness_lossDone :
    let s := (up.setAgSt 3 agLost).updAg 3 fun g => { g with lossAt := 99 }
    s.lossOver 3 = true ∧ (s.ag 3).offer = none := by decide +kernel
/-- An offer of revisions 2 to 3 by agent 3 in AWAIT, and one that is refused. -/
theorem witness_offer :
    let s := up.setAgSt 3 agAwait
    let f : Flit := put 0 (0x2F : BitVec 6) ||| put 8 (3 : BitVec 5) ||| put 16 (0x32 : BitVec 8)
    hOp f = 0x2F ∧ s.ingress (msg 3 [f]) = 0 ∧ hAgent f = 3 ∧ s.agSt 3 = agAwait ∧ chooseRev f = 3 ∧
    chooseRev (put 0 (0x2F : BitVec 6) ||| put 8 (3 : BitVec 5) ||| put 16 (0x11 : BitVec 8)) = 0 := by decide +kernel
theorem witness_temperature :
    let s := { up with boot := { loadAt := some 100 } }
    s.boot.loadAt = some 100 ∧ (s.frame - 100) % 1024 = 0 ∧ readingOf none none = none ∧ readingOf (some 109) (some 20) = some 109 ∧
    readingOf (some 110) none = some 110 ∧ tiered.evganPresent = true := by decide +kernel
/-- At the edge: a timer that lapses, a write to a window that works and to one of a failed slice, a map change, a slice that fails with a buddy
that can take it over, and without one. -/
theorem witness_frameEdge :
    let w : RegAccess := { init := 15, off := oSl 3 0xA8, size := 8, val := 1 }
    let d := up.setFld (oSl 3 0x90) 0 2 1
    let b := up.setFld (oSl 1 0x90) 0 2 1
    up.inReset = false ∧ ({ up with lapsed := [.flash] } : State).lapsed = Lapse.flash :: [] ∧
    (up.unnamed w = false ∧ up.deadWindow w = false ∧ d.unnamed w = false ∧ d.deadWindow w = true) ∧
    (EdgeOp.write w).toLog = false ∧ (EdgeOp.write { w with off := oLogCtl }).toLog = true ∧
    ({ up with routers := { mapDue := [(3, 2)] } } : State).routers.mapDue = [(3, 2)] ∧
    (({ up with failDue := [(0, 15)] } : State).failDue = [(0, 15)] ∧ up.sliceFailed 0 = false ∧ up.pairLost 0 = false ∧
      up.sliceFailed (buddy 0) = false ∧ up.journalUnfit 0 = false) ∧
    (b.sliceFailed 0 = false ∧ b.pairLost 0 = false ∧ b.sliceFailed (buddy 0) = true) := by decide +kernel
theorem witness_timers :
    let f (n : Nat) : State := { up with frame := n }
    ((f 128).frame % 64 = 0 ∧ (f 128).refillAt < 128) ∧
    up.meterOff.getLsbD 63 = false ∧
    ((f (0x3BA * 65536)).frame % (f 0).leakPeriod = 0 ∧ (f 0).leakAt < 0x3BA * 65536) ∧
    ((f 62500000).frame % framesPerSecond = 0 ∧ (f 0).secondAt < 62500000 ∧ (f 62500000).cistern.seededAt = none) ∧
    ({ f 62500000 with cistern := { seededAt := some (62500000, 0, 0xFFFFFFFF00000000) } } : State).cistern.seededAt = some (62500000, 0, 0xFFFFFFFF00000000) ∧
    ((up.setReg oPowered 900).fld oCistern 0 8 ≠ 0 ∧ up.cistern.ckptAt + 60 * (up.setReg oPowered 900).fld oCistern 0 8 ≤
      ((up.setReg oPowered 900).reg oPowered).toNat) := by decide +kernel
theorem witness_placement :
    let s := tiered.setFlag oFilter 2 true
    let m : Move := { sector := 5, start := 98, evSet := 0, evWay := 0, onSet := 5, onWay := some 0, demote := none }
    (s.inReset = false ∧ s.ready = true ∧ s.rangeOpen 15 = true ∧ s.placing 15 = true) ∧
    ({ s with frame := 4095 }.frame % 4096 = 4095 ∧ (s.sl 15).windows ≤ 4095 / 4096 ∧ s.sliceFailed 15 = false) ∧ ((s.sl 15).decayDue ≤ s.frame ∧ s.placeRoom 15 1 = true) ∧
    (((s.updSl 15 fun x => { x with promote := [5] }).sl 15).promote = 5 :: [] ∧ (s.sl 15).move = none ∧ s.placeRoom 15 4 = true) ∧
    (((s.updSl 15 fun x => { x with move := some m }).sl 15).move = some m ∧ m.start + 2 ≤ s.frame) ∧
    ({ m with ending := true } : Move).ending = true := by decide +kernel
theorem witness_expiriesOfTables :
    let s := up.updAg 16 fun g => { g with idle := 64 }
    let w := up.updSl 0 fun x => { x with watch := [(31, ⟨7, 3, 99⟩)] }
    s.streamGap ≤ (s.ag 16).idle ∧ ((w.sl 0).watch.find? fun e => e.1 == 31) = some (31, ⟨7, 3, 99⟩) ∧ 99 < w.frame ∧
    (127 : Nat) < 8 * up.nSlices ∧ 127 ∈ ({ up with pmc := { wraps := [127, 128] } } : State).pmc.wraps ∧
    128 ∈ ({ up with pmc := { wraps := [127, 128] } } : State).pmc.wraps ∧ up.flag oPmcCtl 0 = false ∧
    (up.fld oCycles 0 48 + 32 < 2 ^ 48 ∧ 2 ^ 48 ≤ (up.setReg oCycles 0xFFFFFFFFFFE0).fld oCycles 0 48 + 32) := by decide +kernel
/-- A homed `RdOwn` of agent 3, and one to an address that is not homed. -/
theorem witness_request : (joined 3).Enters .rdOwn (msg 3 [ask .rdOwn 3 7]) ∧ (joined 3).unhomed (parseReq .rdOwn (msg 3 [ask .rdOwn 3 7]) 100) = false ∧
    (joined 3).unhomed (parseReq .rdOwn (msg 3 [ask .rdOwn 3 0x200000000000]) 100) = true :=
  ⟨by constructor <;> decide +kernel, by decide +kernel, by decide +kernel⟩
theorem witness_unhomed : (joined 3).Enters .rdOwn (msg 3 [ask .rdOwn 3 0x200000000000]) := by constructor <;> decide +kernel
theorem witness_injectFrom : 0 < up.laneGen 3 0 ∧ 0 < up.laneC0 3 0 ∧ (([] : List NetReq).any fun m => m.home == 0) = false := by decide +kernel
theorem witness_pool : (joined 3).PoolFree 3 ((joined 3).homeOf (parseReq .rdOwn (msg 3 [ask .rdOwn 3 7]) 100)) false :=
  show _ ∧ _ from by decide +kernel
/-- A request and a response that fail check 3, and the non-caching lane's condition. -/
theorem witness_failed :
    (up.ingress (msg 3 [ask .rdOwn 4 7]) ≠ 0 ∧ hOp (headOf (msg 3 [ask .rdOwn 4 7]).flits) = ReqOp.rdOwn.code) ∧
    (up.ingress (msg 3 [reply .rspI 4 7]) ≠ 0 ∧ hOp (headOf (msg 3 [reply .rspI 4 7]).flits) = RspOp.rspI.code) ∧
    (up.ingress (msg 17 [ask .fence 256 0]) ≠ 0 ∧ isNcLane 17 = true ∧ (up.hub (hubOf 17)).stall = none) := by decide +kernel
/-- Hub 0 with a stream of requester 9 that expects sequence number 0. -/
def streamed : State := routed.setHub 0 { streams := [{ req := 9, next := 0, frontier := 0 }] }
theorem witness_stream : streamed.Enters .wrStream (msg 17 [ask .wrStream 9 7, 0, 0, 0, 0]) := by constructor <;> decide +kernel
theorem witness_streamNext :
    let r := parseReq .wrStream (msg 17 [ask .wrStream 9 7, 0, 0, 0, 0]) 100
    (streamed.hub 0).stream r.src = some { req := 9, next := 0, frontier := 0 } ∧ r.seq = 0 ∧ ({ req := 9, next := 0, frontier := 0 } : Stream).inflight.length < 1024 ∧ streamed.unhomed r = false ∧
    0 < streamed.laneGen 17 (streamed.homeOf r) ∧ (streamed.lane 17).waitGen = [] := by decide +kernel
theorem witness_fence : routed.Enters .fence (msg 17 [ask .fence 9 0]) ∧ (routed.hub 0).stream 9 = none ∧
    0 < routed.laneGen 17 (routed.homeOf (parseReq .fence (msg 17 [ask .fence 9 0]) 100)) ∧ (routed.lane 17).waitGen = [] :=
  ⟨by constructor <;> decide +kernel, by decide +kernel⟩
theorem witness_wbDirty : (joined 3).Enters .wbDirty (msg 3 [ask .wbDirty 3 7, 0, 0, 0, 0]) := by constructor <;> decide +kernel
theorem witness_wbRoom :
    let r := parseReq .wbDirty (msg 3 [ask .wbDirty 3 7, 0, 0, 0, 0]) 100
    isNcLane 3 = false ∧ (joined 3).unhomed r = false := by decide +kernel
/-- A request that reached its slice in frame 99, of an agent whose sluice is open and of one whose sluice is closed; a `WbDirty`, with room
in the store and without; a credit on its way. -/
theorem witness_sampled :
    let n (op : ReqOp) : NetReq := { dest := 0, home := 0, req := { op := op, lane := 3, src := 3 }, sent := true, reached := some 99 }
    let s (op : ReqOp) : State := { joined 3 with net := [n op] }
    let full := (s .wbDirty).updSl 0 fun x => { x with queued := List.replicate 8 { req := { op := .wbDirty, lane := 3, src := 3 } } }
    let taken (op : ReqOp) : State := { s op with net := (s op).net.erase (n op) }
    ([ReqOp.rdOwn, .wbDirty].all fun op => (taken op).fits false ((taken op).sample ((s op).weirOf (n op)) 0 (n op).req)) = true ∧
    (s .rdOwn).nextSample 0 = some (n .rdOwn) ∧ (s .rdOwn).refillDue = false ∧ (s .rdOwn).sluice 3 = true ∧ (s .wbDirty).wbFull 0 3 = false ∧
    (full.nextSample 0 = some (n .wbDirty) ∧ full.wbFull 0 3 = true) ∧
    (let c : State := { up with net := [n .rdOwn] }; c.nextSample 0 = some (n .rdOwn) ∧ c.sluice 3 = false) ∧
    (let r := up.updSl 0 fun x => { x with returning := [(23, true)] }
     (23, true) ∈ (r.sl 0).returning ∧ (r.lane 23).waitC0 = [] ∧ (r.lane 23).blocked = none) := by decide +kernel

/-- Every word of a store entry decodes clean, and both copies of its header fail. -/
def cleanRead : StoreRead := ⟨.clean, .clean, .clean⟩
@[inherit_doc cleanRead] def lostRead : StoreRead := ⟨.uncorrectable, .uncorrectable, .clean⟩

/-- Slice 0 with a request of class C1 in its queue, and with a waiter whose line was released to it; the records of both fit. -/
theorem witness_slots :
    let q : QReq := { req := { lane := 3, src := 3 } }
    let a := up.updSl 0 fun x => { x with queued := [q] }
    let b := holding up { req := { lane := 3, src := 3 }, cls := 1, st := .waiting, resumeAt := some 99 }
    let m (s : State) (n : Nat) := (s.beforeSlot 0).useSlot 0 n
    (a.slotFree 0 1 = true ∧ (a.beforeSlot 0).pick 0 1 = .head q 0 ∧ ((m a 1).readStore q cleanRead).2 = some (q.req, false) ∧
      (m a 1).fits (q.cls == 0) ((((m a 1).readStore q cleanRead).1.issueReq 0 1 0 q q.req false).passHeader true 0 0) = true ∧
      ((m a 1).readStore q lostRead).2 = none ∧ (m a 1).sliceFailed q.home = false) ∧
    (let d := ((a.setFld (oSl 1 0x90) 0 2 1).updSl 0 fun x => { x with queued := [{ q with home := 1 }] }).updSl 1 fun x => { x with tk := { opened := true } }
     d.slotFree 0 1 = true ∧ (d.beforeSlot 0).pick 0 1 = .head { q with home := 1 } 0 ∧ d.sliceFailed 1 = true) ∧
    (b.slotFree 0 14 = true ∧ (b.beforeSlot 0).pick 0 14 = .resume 0 5 ∧
      (m b 14).fits false ((((((m b 14).count 0 2 (some (0, 1))).leaveChain 0 5 0).upd 0 5 fun x => { x with locked := 1, resumeAt := none }).beginRun 0 5).passHeader
        false 0 5) = true) ∧
    (let c := up.updSl 0 fun x => { x with c0q := [{ q with cls := 0 }] }
     c.slotFree 0 0 = true ∧ (c.beforeSlot 0).pick 0 0 = .c0 { q with cls := 0 } 0) := by decide +kernel
/-- A transaction to replay, a home waiter whose line was released to it, and a replay of a takeover in the selvedge slot and in slot 1. -/
theorem witness_replays :
    let a := holding (up.updSl 0 fun x => { x with replayQ := [5] }) { st := .probing }
    let b := holding up { home := some .rinv, want := 4, st := .waiting, resumeAt := some 99 }
    let c := holding (up.updSl 0 fun x => { x with tk := { replays := [5] } }) { st := .orderwait }
    let next (v : State) := ((v.incFld (oSl 0 0x90) 18 11 1).updSl 0 fun sl => { sl with tk := { sl.tk with replays := [] } }).replayFrom 0 5
    ((a.sl 0).replayQ = 5 :: [] ∧ a.rangeOpen 0 = true ∧ a.selvTurn 0 (.replay 5) = true ∧
      (a.useSelvedge 0).fits (a.isC0 0 5) ((((a.useSelvedge 0).updSl 0 fun sl => { sl with replayQ := [] }).replay 0 5).passHeader false 0 5) = true) ∧
    ((b.txn 0 5).home = some .rinv ∧ (b.txn 0 5).homeReady b.frame = true ∧ b.rangeOpen 0 = true ∧ b.selvTurn 0 (.waiter 5 HomeKind.rinv.rank) = true ∧
      (b.useSelvedge 0).fits false (((((b.useSelvedge 0).leaveChain 0 5 0).upd 0 5 fun x => { x with st := .home, locked := x.locked + 1, resumeAt := none }).takeLines
        0 5 5).passHeader false 0 5) = true) ∧
    (c.oldestReplay (c.engine 0) = some (0, 5) ∧ c.selvTurn 0 .takeover = true ∧ c.pick 0 1 = .replay 0 5 ∧ c.slotFree 0 1 = true ∧
      (next (c.useSelvedge 0)).isSome = true ∧ (next (c.useSlot 0 1)).isSome = true) := by decide +kernel
/-- A staged entry with a victim in a set full of one sector's entries, a sector to initialize, a lost line. -/
theorem witness_homeStarts :
    let e := setRec (newEntry 64) 0 (.owned 3)
    let full := up.updSl 0 fun x => { x with ondie := (List.range 16).map fun w => (16 * setD 64 + w, setRec (newEntry (sectorFrom (BitVec.ofNat 30 (65 * w + 1)) 0)) 0 (.owned 3))
                                             stage := [(0, { used := true, word := e, evgan := false, set := setD 64 })], spillQ := [0] }
    let i := up.updSl 0 fun x => { x with initFound := [64] }
    let l := up.updSl 0 fun x => { x with maint := { lostAt := [64] } }
    let fits (s r : State) (k : HomeKind) (x : LineAddr) := (s.useSelvedge 0).fits false (r.homeIssue true 0 k x 4 none) = true
    ((full.spillNext 0).isSome = true ∧ full.filtered 0 = true ∧ full.selvTurn 0 (.spill 0) = true ∧ full.rangeOpen 0 = true ∧ full.homeTag 0 = some 1008 ∧
      ∀ p ∈ full.spillNext 0, (full.useSelvedge 0).fits false (((full.useSelvedge 0).updSl 0 fun sl => { sl with spillQ := [] }).homeIssue false 0 (.spill p.1)
        (lineIn (full.sectorAt 0 p.2) 0) 4 (some p.2)) = true) ∧
    ((i.sl 0).initFound = 64 :: [] ∧ i.selvTurn 0 (.init 64) = true ∧ fits i ((i.useSelvedge 0).updSl 0 fun sl => { sl with initFound := [] }) .meminit (lineIn 64 0)) ∧
    (let k := l.skipLocked 0;
      k.rangeOpen 0 = true ∧ k.homeTag 0 = some 1008 ∧ (k.sl 0).maint.lostAt = 64 :: [] ∧ k.selvTurn 0 (.lost 64) = true ∧ (k.sl 0).maint.running ≠ some .scrub ∧
      fits l ((l.useSelvedge 0).updSl 0 fun sl => { sl with maint := {} }) (.scrub 0) 64) ∧
    (let k := (up.updSl 0 fun x => { x with maint := { running := some .scrub, lostAt := [64] } }).skipLocked 0
     (k.sl 0).maint.lostAt = 64 :: [] ∧ k.selvTurn 0 (.lost 64) = true ∧ (k.sl 0).maint.running = some .scrub) := by
  refine ⟨by decide +kernel, by decide +kernel, by decide +kernel, by decide +kernel⟩
/-- An orphaned entry of the stage with its candidates, and one of which no candidate is left. -/
theorem witness_orphans :
    let bad : Entry := setRec (newEntry 64) 0 (.owned 3) ^^^ 1
    let o := up.updSl 0 fun x => { x with ondie := [(0, bad)], orphans := [.ondie 0 0] }
    let e := up.updSl 0 fun x => { x with orphanRest := [(.ondie 0 0, [])] }
    (o.orphanReady 0 = true ∧ o.nextOrphan 0 = some (.ondie 0 0, o.orphanCandidates 0 (.ondie 0 0), true) ∧ o.orphanCandidates 0 (.ondie 0 0) ≠ [] ∧
      o.selvTurn 0 (.orphan (.ondie 0 0)) = true ∧ o.rangeOpen 0 = true) ∧
    (e.orphanReady 0 = true ∧ e.nextOrphan 0 = some (.ondie 0 0, [], false) ∧ e.selvTurn 0 (.orphan (.ondie 0 0)) = true) := by decide +kernel
theorem witness_maintStarts :
    let f (op : MaintOp) := up.updSl 0 fun x => { x with maint := { running := some op, found := [64] } }
    ((f .rinv).maintTidy 0).homeTag 0 = some 1008 ∧ (((f .rinv).maintTidy 0).startable 0 MaintOp.isRinv = some (.rinv, 64)) ∧
    (let u := (f .rinv).maintTidy 0
     (u.useSelvedge 0).fits false (((u.useSelvedge 0).updSl 0 fun sl => { sl with maint := { sl.maint with found := [] } }).homeIssue false 0 .rinv (lineIn 64 0) 4 none) =
       true) ∧
    (((f (.agentWalk 3)).maintTidy 0).startable 0 MaintOp.isWalk = some (.agentWalk 3, 64)) ∧
    (((f (.lossSweep 8)).maintTidy 0).startable 0 MaintOp.isLoss = some (.lossSweep 8, 64)) := by decide +kernel
theorem witness_setReads :
    let f (op : MaintOp) := (up.updSl 0 fun x => { x with maint := { running := some op } }).maintTidy 0
    (((f .rinv).sl 0).maint.running = some .rinv ∧ (f .rinv).nextPos .rinv ((f .rinv).sl 0).maint.pos < stagePos ∧ (f .rinv).readReady 0 MaintOp.isRinv = true) ∧ (f .scrub).readReady 0 MaintOp.isScrub = true ∧
    (f .recount).readReady 0 MaintOp.isRecount = true ∧
    (((f (.agentWalk 3)).sl 0).maint.running = some (.agentWalk 3) ∧ (f (.agentWalk 3)).readReady 0 MaintOp.isWalk = true) ∧
    (((f (.lossSweep 8)).sl 0).maint.running = some (.lossSweep 8) ∧ (f (.lossSweep 8)).readReady 0 MaintOp.isLoss = true) := by decide +kernel
/-- A debug read of each of the four arrays of slice 0. -/
theorem witness_debug :
    let f (n : Nat) := { up.setFld oDbg 4 2 n with bus := { dbgStart := true } }
    ((f 0).bus.dbgStart = true ∧ (f 0).fld oDbg 0 4 = 0 ∧ (f 0).selvedge ((f 0).engine 0) 6 = true ∧ (f 0).evRoom 0 0 = true ∧ (f 1).evRoom 0 1 = true) ∧
    (f 0).fld oDbg 4 2 = 0 ∧ (f 1).fld oDbg 4 2 = 1 ∧ (f 2).fld oDbg 4 2 = 2 ∧ (f 3).fld oDbg 4 2 = 3 := by decide +kernel
/-- A transaction before each end of a flow. -/
theorem witness_flowEnds :
    let w (x : Txn) := holding up x
    let part : Txn := { req := { op := .wrPart, mask := 1 }, st := .gather, locked := 1 }
    let home := w { waitWbuf := true, waitAt := 99, home := some .rinv }
    let d := up.updSl 0 fun x => { x with wbuf := [(7, 9, 99)] }
    ((w { waitStage := true, waitAt := 99 }).tagOpen 0 5 = true ∧ ((w { waitStage := true, waitAt := 99 }).txn 0 5).waitStage = true ∧ (99 : Nat) < up.frame) ∧
    (((w { waitWbuf := true, waitAt := 99 }).txn 0 5).waitWbuf = true ∧ ((w { waitWbuf := true, waitAt := 99 }).txn 0 5).home = none ∧ up.wbufRoom 0 0 = true) ∧
    ((home.txn 0 5).home.isSome = true ∧ home.wbufRoom (home.homePlace 0 (home.txn 0 5)).1 3 = true) ∧
    ((d.sl 0).wbuf = (7, 9, 99) :: [] ∧ d.drainRoom 0 = true ∧ d.flag oFlip 0 = false) ∧
    (((w part).txn 0 5).gathers = true ∧ ((w part).txn 0 5).locked = 1 ∧ ((w part).txn 0 5).st ≠ .free ∧ ((w part).txn 0 5).st ≠ .waiting ∧
      ((w part).txn 0 5).merge = none ∧ ((w part).txn 0 5).cmpSent = false ∧ ((w part).txn 0 5).memDone = false ∧
      ((w part).mergeFree 0 false).isSome = true ∧
      (let u := ((w part).takeMerge 0 5).upd 0 5 fun x => { x with st := if x.probed then x.stNow else .probing }
       (w part).fits ((w part).isC0 0 5) (u.plan (up.frame + 1) 0 5 .probe) = true ∧
       (u.agenda.any fun d => d.slice == 0 && d.tag == 5 && d.act == .probe) = false)) ∧
    (let g := w { part with window := some 100 }
     (g.txn 0 5).window = some 100 ∧ (g.txn 0 5).winClosed = false ∧ 100 ≤ g.frame) := by decide +kernel
/-- A near atomic with its line, clean and poisoned, and with a poisoned operand. -/
theorem witness_nearAtomic :
    let s (p q : Bool) := holding up { req := { op := .atomNear, src := 3, poison := q }, st := .alu, memData := some (7, p), dAt := 99, locked := 1,
                                       probed := true, known := [.found .untracked] }
    let v (p q : Bool) := (s p q).readBuffers 0 5
    (s false false).aluReady 0 5 = true ∧ (s true false).aluReady 0 5 = true ∧ (s false true).aluReady 0 5 = true ∧
    ((v false false).txn 0 5).memData = some (7, false) ∧ ((v true false).txn 0 5).memData = some (7, true) ∧ ((v false true).txn 0 5).req.poison = true ∧
    ((v false false).mergeFree 0 true).isSome = true ∧ ((v false false).recordDone 0 5).1 = true ∧ ((v true false).recordDone 0 5).1 = true := by
  decide +kernel
/-- A correction of a read and one of a scrub, a word to reread, whole and with an error, a row of each tier to remap, with a remap word and
without, and a copy in progress. -/
theorem witness_words :
    let c := up.updSl 0 fun x => { x with correct := [(99, .ondie 0 0)] }
    let x := up.updSl 0 fun x => { x with maint := { running := some .scrub, fixes := [.ondie 0 0] } }
    let r := up.updSl 0 fun x => { x with reread := [.evgan 0 0] }
    let h (ev : Bool) := up.updSl 0 fun x => { x with hardRows := [(ev, 0)] }
    let used (ev : Bool) := (List.range 32).foldl (fun (s : State) i => s.setReg (oSl 0 ((if ev then 0x400 else 0x300) + 8 * i)) 1) (h ev)
    let p (ev : Bool) := up.updSl 0 fun x => { x with copies := [⟨ev, 0, 0, 2, 99, false⟩] }
    ((c.sl 0).correct.find? fun p => p.1 < c.frame && c.backRoom 0 p.2) = some (99, .ondie 0 0) ∧
    (let u := x.skipLocked 0
     (x.sl 0).correct = [] ∧ ((u.sl 0).maint.fixes.find? fun l => !u.placeLocked 0 l && u.backRoom 0 l) = some (.ondie 0 0) ∧
       u.rangeOpen 0 = true ∧ u.selvTurn 0 (.fix (.ondie 0 0)) = true) ∧
    ((r.sl 0).reread = .evgan 0 0 :: [] ∧ r.rangeOpen 0 = true ∧ r.selvTurn 0 (.reread (.evgan 0 0)) = true ∧ r.evRoom 0 1 = true ∧
      rowOf (.evgan 0 0) = some (true, 0) ∧ anyFixed (r.entry 0 (.evgan 0 0)) = false ∧ anyBad (r.entry 0 (.evgan 0 0)) = false ∧
      isFree (r.entry 0 (.evgan 0 0)) = true) ∧
    (∀ ev, ((h ev).sl 0).hardRows = (ev, 0) :: [] ∧ (h ev).selvTurn 0 (.remap ev 0) = true ∧ (h ev).evRoom 0 1 = true ∧
      (h ev).freeRemap 0 ev = some 0 ∧ (used ev).freeRemap 0 ev = none ∧ (used ev).selvTurn 0 (.remap ev 0) = true) ∧
    (((p false).sl 0).copies = [⟨false, 0, 0, 2, 99, false⟩] ∧ (99 : Nat) + 0 ≤ (p false).frame ∧ (p true).frame < 99 + 2 ∧ (0 : Nat) < 16) := by
  refine ⟨by decide +kernel, by decide +kernel, by decide +kernel, fun ev => by cases ev <;> decide +kernel, by decide +kernel⟩
/-- A transaction of agent 4 that awaits the answer of agent 3, in service, about line 7. -/
def asked : State := holding (((up.setAgSt 3 agService).setFlag (oAg 3 0) 8 true).setFlag (oAg 3 0) 10 true)
  { req := { src := 4 }, line := 7, st := .snooping, locked := 1, probed := true, known := [.found (.owned 3)]
    waits := [{ agent := 3, kind := .first, start := 90, len := 8 }] }
theorem witness_meets : asked.Meets .rspI (msg 3 [reply .rspI 3 7]) 0 5 { agent := 3, kind := .first, start := 90, len := 8 } ∧
    asked.Meets .rspS (msg 3 [reply .rspS 3 7]) 0 5 { agent := 3, kind := .first, start := 90, len := 8 } ∧
    asked.Meets .rspCross (msg 3 [reply .rspCross 3 7]) 0 5 { agent := 3, kind := .first, start := 90, len := 8 } ∧
    asked.Meets .rspIData (msg 3 [reply .rspIData 3 7, 0, 0, 0, 0]) 0 5 { agent := 3, kind := .first, start := 90, len := 8 } := by
  refine ⟨?_, ?_, ?_, ?_⟩ <;> constructor <;> decide +kernel
theorem witness_answersFit : asked.fits (asked.isC0 0 5) (asked.answerI 0 5 { agent := 3, kind := .first, start := 90, len := 8 }) = true := by decide +kernel
theorem witness_notDuplicate : (reply .rspI 3 7).getLsbD 7 = false := by decide +kernel
/-- A response at its port, in the block before and after it has reached its slice, and what its slice discards. -/
theorem witness_answers :
    let s := up.setAgSt 3 agService
    let a := msg 3 [reply .rspI 3 7]
    let n (f : Option Nat) : Inbound := { dest := 0, place := lanePlace 3, msg := .response .rspI a, reached := f }
    s.Answers .rspI a ∧ ({ s with inbound := [n (some 99)] } : State).inbound = [n (some 99)] ∧ s.late = [] ∧ (99 : Nat) < s.frame ∧
    (s.sluice (hAgent (headOf a.flits)) = true ∧ rHslice (headOf a.flits) < s.nSlices ∧ s.pairLost 0 = false ∧ s.matches 0 5 0 = false) ∧
    up.sluice (hAgent (headOf a.flits)) = false := by
  refine ⟨by constructor <;> decide +kernel, rfl, by decide +kernel, by decide, by decide +kernel, by decide +kernel⟩
/-- A transaction of agent 3 that awaits its AckGo, and one that is held to the end of frame 100. -/
theorem witness_ackGo :
    let s := holding (up.setAgSt 3 agService) { req := { src := 3 }, line := 7, st := .ackwait, waits := [{ agent := 3, kind := .ackGo, start := 90, len := 8 }] }
    let f := reply .ackGo 3 7
    (s.sluice (hAgent f) = true ∧ s.fits (s.isC0 0 5) (s.respond .ackGo (msg 3 [f])) = true ∧ s.matches 0 5 (rEpoch f) = true ∧
      (s.txn 0 5).hasLine (rAddr f) = true ∧ (s.txn 0 5).st = .ackwait ∧ (s.txn 0 5).req.src = hAgent f ∧
      ((s.txn 0 5).waits.any fun w => w.kind == .ackGo) = true) ∧
    (let h := holding up { st := .holding, holdEnd := some 100 }
     (h.txn 0 5).holdEnd = some 100 ∧ (h.txn 0 5).st = .holding ∧ 100 ≤ h.frame ∧ h.tagOpen 0 5 = true) := by decide +kernel
/-- Answers that a read, a write and a staged write await, and one that nothing awaits. -/
theorem witness_memory :
    let m (op : BitVec 6) : MemArrival := { port := 11, flits := (msg 0 [answer op]).flits }
    let rd := holding up { st := .memory, mems := [{ op := .rd }] }
    let wr := holding up { st := .memory, mems := [{ op := .wr }] }
    let sg : State := up.updSl 0 fun x => { x with merges := [(0, { used := true, tag := 5, staged := true })] }
    let bad (op : BitVec 6) : MemArrival := { port := 11, flits := [(answer op, parOf (answer op) ^^^ 1)] }
    let part : MemArrival := { port := 11, flits := [(answer 0x30, parOf (answer 0x30)), (0, 1), (0, 0), (0, 0), (0, 0)] }
    (flitsOk ((m 0x30).flits.take 1) = true ∧ flitsOk ((bad 0x30).flits.take 1) = false ∧ flitsOk (m 0x30).flits = true ∧ flitsOk part.flits = false ∧
      hOp (answer 0x30) = 0x30 ∧ hOp (answer 0x20) = 0x20 ∧ up.memFailed.getLsbD 11 = false ∧ mHslice (answer 0x30) < up.nSlices) ∧
    (rd.matches 0 5 0 = true ∧ (rd.txn 0 5).dataWait = some { op := .rd } ∧ ({ op := .rd } : MemWait).again = false ∧
      ({ op := .rd, again := true } : MemWait).again = true) ∧ up.matches 0 5 0 = false ∧ up.pairLost 0 = false ∧ up.ready = true ∧
    (wr.matches 0 5 0 = true ∧ ((wr.txn 0 5).mems.find? fun w => w.op == .wr || w.op == .wrPoison) = some { op := .wr }) ∧
    (sg.matches 0 5 0 = false ∧ sg.pairLost 0 = false ∧ ((sg.sl 0).merges.find? fun p => p.2.used && p.2.staged && !p.2.done && p.2.tag == 5 && p.2.ep == 0).isSome = true) ∧
    (∀ r, r = rd.takeData 0 5 { op := .rd } 0 false false ∨ r = (rd.memParity 0).againMem 0 5 { op := .rd } → rd.fits (rd.isC0 0 5) r = true) ∧
    ({ up with memFailed := 0x800 } : State).memFailed.getLsbD 11 = true := by
  refine ⟨by decide +kernel, by decide +kernel, by decide +kernel, by decide +kernel, by decide +kernel, by decide +kernel, by decide +kernel, ?_, by decide +kernel⟩
  rintro r (rfl | rfl) <;> decide +kernel

/-- A wait of each kind that is due. -/
theorem witness_waits :
    let w (k : WaitKind) (n : Nat) : Wait := { agent := 3, kind := k, start := 90, len := 8, count := n }
    let s (k : WaitKind) (n : Nat) := holding up { req := { src := 3 }, st := .snooping, waits := [w k n] }
    (((s .first 0).txn 0 5).waitOf .first 3 0 = some (w .first 0) ∧ (w .first 0).due 100 = true ∧ (s .first 0).tagOpen 0 5 = true ∧ (w .first 0).count < 3) ∧
    ((s .resent 1).txn 0 5).waitOf .resent 3 0 = some (w .resent 1) ∧ ((s .final 2).txn 0 5).waitOf .final 3 0 = some (w .final 2) ∧
    (((s .ackGo 1).txn 0 5).waitOf .ackGo 3 0 = some (w .ackGo 1) ∧ ((s .ackGo 1).txn 0 5).req.src = 3 ∧ (w .ackGo 1).count < 2) ∧
    (((s .wbCross 0).txn 0 5).waitOf .wbCross 3 0 = some (w .wbCross 0) ∧ (w .wbCross 0).count < 2) ∧ ((s .wbRspI 0).txn 0 5).waitOf .wbRspI 3 0 = some (w .wbRspI 0) := by
  decide +kernel
theorem witness_rangeWait :
    let w : Wait := { agent := 3, kind := .range, start := 0, len := 100 }
    let s := (holding up { home := some .sweep, st := .home, waits := [w] }).updSl 0 fun x => { x with sweep := some { tag := 5 } }
    (s.sl 0).sweep = some { tag := 5 } ∧ (s.txn 0 5).waitOf .range 3 0 = some w ∧ w.due s.frame = true ∧ w.count < 3 ∧
    s.tagOpen 0 5 = true ∧ (s.ag 3).lossDue.contains 2 = false ∧
    s.late = [] ∧ ({ s with expired := [.wait 0 5 3 0 .range] } : State).expired = [.wait 0 5 3 0 .range] ∧
    s.fits (s.isC0 0 5) (s.expire (.wait 0 5 3 0 .range)) = true := by decide +kernel
/-- An expiry whose record does not fit in its frame, and an answer that waits for room and ends the wait of agent 3. -/
theorem witness_lateExpiry :
    let w : Wait := { agent := 3, kind := .first, start := 90, len := 8 }
    let x : Txn := { st := .snooping, waits := [w], line := 7 }
    let s := (holding up x).updSl 0 fun sl => { sl with recsSent := 128 }
    s.fits (s.isC0 0 5) (s.expire (.wait 0 5 3 0 .first)) = false ∧
    (Late.answer (.response .rspI (msg 3 [reply .rspI 3 7]))).ends x 0 5 3 0 .first = true := by decide +kernel
theorem witness_watchdog :
    let s := holding { up with frame := 5000 } { st := .snooping, wdStart := some 100 }
    s.wdCount (s.txn 0 5) = some 4901 ∧ s.wdLimit ≤ 4901 ∧ (s.txn 0 5).st ≠ .free ∧ (s.txn 0 5).st ≠ .waiting ∧
    (s.txn 0 5).home ≠ some .sweep ∧ s.tagOpen 0 5 = true := by decide +kernel
/-- Slice 0 failed, at each step of its takeover and of its return. -/
theorem witness_takeover :
    let f (n : Nat) (t : Takeover) : State := (({ up with frame := n } : State).setFld (oSl 0 0x90) 0 2 1).updSl 0 fun x => { x with tk := t }
    (((f 101 { active := true, frame0 := 100 }).sl 0).tk.mapped = false ∧ (f 101 {}).pairLost 0 = false) ∧
    ((f 102 { active := true, mapped := true, frame0 := 100 }).sl 0).tk.scanPos < 1024 ∧
    (((f 102 { scanPos := 4, zeroPos := 4094 }).sl 0).tk.zeroPos < 20480 ∧ ((f 102 { zeroPos := 4096 }).evRoom 0 1 = true ∧
      ((f 102 { zeroPos := 4096 }).sl 0).unzeroed true 0 = true ∧ (f 102 {}).flag oFlip 0 = false)) ∧
    (((f 358 { active := true, frame0 := 100, scanPos := 1024 }).sl 0).tk.opened = false ∧ (f 358 {}).sliceFailed 0 = true ∧ (100 : Nat) + 258 ≤ 358) ∧
    (let r (t : Bool) := f 400 { returning := true, opened := true, tested := t }
     (r false).selvTurn 0 .selftest = true ∧ ((r false).sl 0).tk.returning = true ∧ (r false).pairLost 0 = false ∧
     (∀ k, k < 16 → k ≠ 0 → ((r false).sl k).tk.returning = false) ∧ ((r true).sl 0).tk.tested = true ∧ ((r true).sl 0).txns = [] ∧
     (r true).routers.mapDue.contains (0, 0) = false ∧ ({ r true with routers := { mapDue := [(0, 0)] } } : State).routers.mapDue = [(0, 0)]) := by
  decide +kernel
/-- A sweep with a report to apply, an agent to ask again, and one that is done. -/
theorem witness_sweep :
    let f (sw : Sweep) := up.updSl 0 fun x => { x with sweep := some sw, rebuildOn := true, reports := if sw.cut = 0 then [] else [(3, [0])] }
    (((f { tag := 5, cut := 8 }).sl 0).sweep = some { tag := 5, cut := 8 } ∧ ((f { tag := 5, cut := 8 }).sl 0).reports ≠ [] ∧
      ((f { tag := 5, cut := 8 }).sl 0).applied = false) ∧
    (({ tag := 5, cut := 8, lastSeen := 8 } : Sweep).lastSeen.getLsbD 3 = true ∧ ((f { tag := 5, cut := 8 }).sl 0).reports.length ≤ 128 ∧ (joined 3).sluice 3 = true) ∧
    ((f { tag := 5 }).sweepDone 0 { tag := 5 } = true ∧ (f { tag := 5 }).rangeOpen 0 = true ∧ ((f { tag := 5 }).sl 0).rebuildOn = true ∧
      (((f { tag := 5 }).updSl 0 fun x => { x with rebuildOn := false }).sl 0).rebuildOn = false ∧
      ¬ ((f { tag := 5 }).engine (buddy 0) = (f { tag := 5 }).engine 0 ∧ (f { tag := 5 }).sweeping (buddy 0) = true)) ∧
    (let j := (joined 3).setFlag (oAg 3 0) 1 true
     j.homeTag 0 = some 1008 ∧ j.flag (oAg 3 0) 1 = true ∧ j.sluice 3 = true) := by decide +kernel
/-- A report of agent 3 that the sweep of slice 0 awaits, the last of its messages and one before. -/
theorem witness_report :
    let w : Wait := { agent := 3, kind := .range, snp := .report, start := 90, len := 256 }
    let s := (holding (up.setAgSt 3 agService) { home := some .sweep, st := .home, waits := [w] }).updSl 0 fun x => { x with sweep := some { tag := 5 } }
    let f := reply .rspReport 3 0
    s.sluice (hAgent f) = true ∧ s.matches 0 5 (rEpoch f) = true ∧
    ((s.txn 0 5).waits.find? fun w => w.agent == hAgent f && w.kind == .range && w.snp == .report) = some w ∧
    (s.sl 0).sweep = some { tag := 5 } ∧ (s.sl 0).reports.length < 256 ∧ s.fits (s.isC0 0 5) (s.takeReport (msg 3 [f, 0, 0, 0, 0])) = true ∧
    f.getLsbD 86 = false ∧ (f ||| (1 <<< 86)).getLsbD 86 = true := by decide +kernel
/-- A router with one lane left and with two, the eighth refusal in a row, a record on the runnel of slice 1's buddy. -/
theorem witness_network :
    let s : State := { up with routers := { changing := [(1, [19]), (2, [0, 19])], refused := [(32 * 23 + 14, 7)] } }
    let j := up.updSl (buddy 1) fun x => { x with runnel := [(100, 1023, 0)] }
    ((tget [] s.routers.changing 1).contains 19 = true ∧ ((tget [] s.routers.changing 1).filter fun m => m != 19) = []) ∧
    ((tget [] s.routers.changing 2).contains 19 = true ∧ ((tget [] s.routers.changing 2).filter fun m => m != 19) ≠ []) ∧
    (linked 23 14 = true ∧ tget 0 s.routers.refused (32 * 23 + 14) = 7 ∧ s.routers.laneEmpty 1 19 = true ∧ s.routers.laneEmpty 2 19 = true) ∧
    ((j.sl (buddy 1)).runnel = (100, 1023, 0) :: [] ∧ 100 ≤ j.frame ∧ j.flag (oSl 1 0x88) 1 = false ∧ j.flag oFlip 0 = false) := by decide +kernel
/-- A flit at the head of a lane with bad parity, and one that the next hop refuses. -/
theorem witness_hop :
    let g : NetFlit := { flit := 1, side := 0 }
    let h : NetFlit := { flit := 0, side := 0 }
    let x (g : NetFlit) : NetStep := { net := { bufs := [(7, [g])], refuse := [(kRouter 7, 3)] } }
    tget [] (x g).net.bufs 7 = g :: [] ∧ g.ok = false ∧ tget [] (x h).net.bufs 7 = h :: [] ∧ (x h).net.refuse.contains (kRouter 7, 3) = true := by
  decide +kernel
/-- A slice whose filter counts the holders of line 0 of sector 0, one whose filter is disabled, and the states of a journal. -/
theorem witness_presence :
    let s := up.updSl 0 fun x => { x with ondie := [(0, setRec (newEntry 0) 0 (.owned 3))] }
    let d := up.setFlag (oSl 0 0x28) 0 false
    (up.flag (oSl 0 0x28) 0 = true ∧ decodeRec (s.entry 0 (.ondie 0 0)) 0 = .good (.found (.owned 3))) ∧
    (d.flag (oSl 0 0x28) 0 = false ∧ d.flag (oSl 0 0x28) 4 = false ∧ (d.sl 0).sweep = none) ∧
    (up.flag oFlip 0 = false ∧ up.flag (oSl (buddy 0) 0x88) 1 = false ∧ (up.setFlag (oSl 1 0x88) 1 true).flag (oSl (buddy 0) 0x88) 1 = true ∧
      up.sliceFailed 0 = false ∧ (up.setFld (oSl 0 0x90) 0 2 1).sliceFailed 0 = true) ∧
    ((up.txn 0 5).st = .free ∧ (asked.txn 0 5).st ≠ .free ∧ (asked.txn 0 5).home = none) := by decide +kernel
theorem witness_streamNotices :
    let s (op : ReqOp) (n : Bool) := holding up { req := { op := op, lane := 17, nc := true, src := 9 }, st := .orderwait, dAt := 99, noticed := n, want := 1,
                                                  locked := 1, probed := true, known := [.found .untracked] }
    let w := s .wrStream true
    let v := w.released (hubOf (w.txn 0 5).req.lane) (w.txn 0 5).req.src (w.txn 0 5).req.seq w.frame
    (((s .wrStream false).txn 0 5).home = none ∧ ((s .wrStream false).txn 0 5).st = .orderwait ∧ ((s .wrStream false).txn 0 5).dAt < up.frame ∧
      ((s .wrStream false).txn 0 5).noticed = false) ∧
    ((w.txn 0 5).cmpSent = false ∧ (w.txn 0 5).waitStage = false ∧ (w.txn 0 5).waitWbuf = false ∧ w.tagOpen 0 5 = true ∧
      w.fits (w.isC0 0 5) (v.endWrite 0 5) = true ∧ (v.recordDone 0 5).1 = true) ∧
    (((s .fence true).txn 0 5).req.op = .fence ∧ ((s .fence true).txn 0 5).noticed = true ∧ (s .fence true).tagOpen 0 5 = true) := by decide +kernel
/-- A write of each row of the block's registers, and one of each row to a slice window. -/
theorem witness_writes :
    let w (o : Nat) (v : Reg) : RegAccess := { init := 15, off := o, size := 8, val := v }
    let l := [w oRinv 0x10000, w oScrub 0x40000, w oWalk 0x100, w oMeminit 1, w oFlip 1, w oTakeover 0x10, w oTakeover 0x20, w oDrain 1, w oLogPtr 0,
              w (oEvtPend 1) 1, w oPmcCtl 2, w oPmcCtl 1, w oCistern 0x100, w oCalendar 0, w oNvm 1, w oNvm 2, w oNvm 3, w oNvm 4, w oCe 0]
    ((writeRows.zip l).all fun p => p.1.2 p.2) = true ∧ writeRows.length = l.length ∧
    (l.all fun w => w.init < 16 && w.accepted && up.toSlice w == none && !up.unnamed w) = true ∧ up.bus.port = [] := by decide +kernel
theorem witness_sliceWrites :
    let w (o : Nat) (v : Reg) : RegAccess := { init := 15, off := oSl 15 o, size := 8, val := v }
    (sliceOff (w 0x28 0).slot = some (15, 0x28) ∧ up.toSlice (w 0x28 0) = some 15 ∧ (w 0x28 0).accepted = true ∧ (w 0x28 0).read = false) ∧
    ((w 0x28 0).mask.getLsbD 0 = true ∧ (w 0x28 0).value.getLsbD 0 = false) ∧ (w 0x28 1).value.getLsbD 0 = true ∧ (w 0x28 8).starts 3 = true ∧
    (sliceOff (w 0xA8 0).slot = some (15, 0xA8) ∧ sliceOff (w 0xB0 0).slot = some (15, 0xB0) ∧ up.toSlice (w 0xA8 0) = some 15 ∧
      up.toSlice (w 0xB0 0) = some 15) := by decide +kernel
/-- Reads: one that is not accepted, of a block register, of a slice register and behind it; of both sizes; of each register that the values name. -/
theorem witness_reads :
    let r (o n : Nat) : RegAccess := { init := 15, off := o, size := n, val := 0, read := true }
    let s : State := { up with bus := { port := [r (oSl 15 0xA8) 8] } }
    ((r 8 3).accepted = false ∧ (r 4 8).accepted = false ∧ (r 0x200000 8).accepted = false) ∧
    ((r 8 8).accepted = true ∧ up.toSlice (r 8 8) = none ∧ up.bus.port = [] ∧ (up.toSlice (r (oSl 15 0xA8) 8)).isSome = true ∧ s.bus.port ≠ [] ∧
      s.bus.port = [r (oSl 15 0xA8) 8]) ∧
    ((r 12 4).accepted = true ∧ (r 12 4).size = 4 ∧ (r 12 4).off % 8 = 4) ∧ (r oCfg 8).accepted = true ∧ (r oLogPtr 8).accepted = true ∧
    (r 0x23FF8 8).accepted = true ∧ (r (0x10008 + 16 * 4095) 8).accepted = true ∧ (oSl 15 0x1B8 = oSl 15 (0x100 + 8 * 23) ∧ (r (oSl 15 0x1B8) 8).accepted = true) ∧
    (({ up with fusing := .kr16x8 } : State).nSlices ≤ 8 ∧ (up.setFld (oSl 3 0x90) 0 2 1).sliceFailed 3 = true) := by decide +kernel
/-- Before each start, with and without what it needs. -/
theorem witness_starts :
    let r := ((up.setFld (oSl 0 0x90) 0 2 1).updSl 0 fun x => { x with tk := { opened := true } })
    let n := up.setFlag oTakeover 8 true
    (up.setFlag oRinv 17 true).flag oRinv 17 = true ∧ (up.flag oRinv 17 = false ∧ up.selected oRinv = [] ∧ (up.setFlag oRinv 0 true).selected oRinv = [0] ∧
      up.flag oScrub 19 = false ∧ up.selected oScrub = [] ∧ (up.setFlag oScrub 15 true).selected oScrub = [15]) ∧
    (up.sluice (up.fld oWalk 0 5) = false ∧ up.flag oWalk 9 = false ∧ (joined 0).sluice ((joined 0).fld oWalk 0 5) = true) ∧
    (up.setFlag oMeminit 1 true).flag oMeminit 1 = true ∧ up.flag oMeminit 1 = false ∧
    ((up.setFlag oFlip 2 true).flag oFlip 2 = true ∧ flipFits (up.fld oFlip 8 4) (up.fld oFlip 12 2) = true) ∧
    (n.flag oTakeover 8 = true ∧ n.fld oTakeover 0 4 < n.nSlices ∧ n.sliceFailed (buddy (n.fld oTakeover 0 4)) = false ∧ n.failDue = [] ∧
      up.flag oTakeover 8 = false) ∧
    (r.mayReturn (r.fld oTakeover 0 4) = true ∧ up.mayReturn (up.fld oTakeover 0 4) = false) ∧
    (up.bus.sampling = none ∧ ({ up with bus := { sampling := some 3 } } : State).bus.sampling = some 3) ∧
    (up.flag oNvm 3 = false ∧ up.nvmAllowed 4 = true ∧ up.nvmAllowed 1 = true ∧ (up.setFld oNvm 16 32 0x800000).nvmAllowed 1 = false ∧
      (up.setFlag oNvm 3 true).flag oNvm 3 = true) ∧
    (up.flag (oSl 0 0x28) 0 = true ∧ (up.setFlag (oSl 0 0x28) 0 false).flag (oSl 0 0x28) 0 = false ∧ up.flag (oSl 0 0x28) 4 = false ∧
      up.flag oFlip 0 = false) := by decide +kernel
/-- The changes of ENABLE, a frozen counter, a drained request, and writes of RD that the ring takes and does not. -/
theorem witness_edgeWrites :
    let d := up.setFlag (oSl 0 0x28) 0 false
    let q : Req := { lane := 3, src := 3, tenant := 63 }
    let e := up.setFlag oDrain 63 true
    let w (o : Nat) : RegAccess := { init := 15, off := o, size := 8, val := 0x10000000 }
    (up.flag (oSl 0 0x28) 0 = true ∧ d.flag (oSl 0 0x28) 0 = false ∧ (up.setFlag (oSl 0 0x28) 1 true).flag (oSl 0 0x28) 1 = true) ∧
    (up.setFlag oPmcCtl 0 true).flag oPmcCtl 0 = true ∧
    (e.intakeClosed q = false ∧ (e.reg oDrain).getLsbD 63 = true ∧ q.op ≠ .wbDirty ∧ q.op ≠ .evictClean ∧ q.op ≠ .wrStream ∧ q.op ≠ .fence) ∧
    (((0 : BitVec 13) - 0x1000).toNat ≤ 4096 ∧ 4096 < ((0 : BitVec 13) - 1).toNat) ∧
    ([oSl 15 0x28, oRinv, oScrub, oWalk, oMeminit, oFlip, oTakeover, oDbg, oPmcCtl, oCistern, oCalendar, oNvm, oLogPtr].all fun o => (w o).slot == o) = true ∧
    (w oFlip).mask.getLsbD 0 = true := by decide +kernel
theorem witness_config :
    let s := { up.setView 15 { isOpen := true } with frame := 70000 * 1024 }
    (up.view 15).isOpen = false ∧ (s.view 15).isOpen = true ∧ (s.view 15).begunAt + 1024 * max 1 (s.fld oCfgCtl 0 16) ≤ s.frame ∧ s.bus.port = [] ∧
    (let w : RegAccess := { init := 15, off := oHome, size := 8, val := 5 }
     w.accepted = true ∧ w.read = false ∧ sliceOff w.slot = none ∧ w.mask &&& rwlMask w.slot ≠ 0 ∧ w.slot ≠ oAgentCtl ∧ rwMask w.slot ||| w1cMask w.slot ||| woMask w.slot = 0) := by
  decide +kernel
/-- The flash port free with two items pending, and at each step of an item. -/
theorem witness_flash :
    let s (b : Option (NvmItem × FlashStep)) : State := { up with frame := 62500000, cistern := { busy := b, due := [.lifetime, .fault] } }
    ((s none).cistern.busy = none ∧ (s none).nextItem = some .fault ∧ ((s none).setPhase 8).phase = 8) ∧ (s (some (.fault, .erase))).cistern.busy = some (.fault, .erase) ∧
    (s (some (.fault, .program 15))).cistern.busy = some (.fault, .program 15) ∧ (7 : Nat) < 8 ∧ (0x7FFFFF : Nat) < 0x800000 ∧ (s (some (.fault, .commit))).cistern.busy = some (.fault, .commit) ∧
    (s (some (.firmware, .fwErase))).cistern.busy = some (.firmware, .fwErase) ∧ (s (some (.firmware, .fwRead))).cistern.busy = some (.firmware, .fwRead) ∧
    (s (some (.firmware, .reload))).cistern.busy = some (.firmware, .reload) ∧
    ((s (some (.fault, .erase))).cistern.since + framesPerSecond ≤ (s none).frame ∧ FlashStep.erase ≠ .gather ∧ NvmItem.fault ≠ .firmware) ∧
    ((s (some (.firmware, .fwErase))).cistern.since + framesPerSecond ≤ (s none).frame) := by
  decide +kernel
theorem witness_bus :
    let s : State := { up with bus := { port := [⟨15, oSl 3 0xA8, 8, 1, false⟩] } }
    let c : State := { up.updSl 3 fun x => { x with evq := [7] } with bus := { owner := some (.collector, 3, 90) } }
    (s.bus.owner = none ∧ s.bus.nextAt ≤ 8 * s.frame + 7 ∧ s.requesters 7 = .regPort :: [] ∧ Master.regPort ≠ .collector) ∧
    (c.bus.owner = some (.collector, 3, 90) ∧ 90 + c.busWd ≤ { c with frame := 106 }.frame) ∧ ((c.sl 3).evq = 7 :: [] ∧ c.logNew = [] ∧ c.logUsed < 4096) ∧
    (let g : State := { c with bus := {} }
     g.requesters 6 = .collector :: [] ∧ g.bus.owner = none ∧ g.bus.nextAt ≤ 8 * g.frame + 6) ∧
    (let x (n : Nat) (d : Nat) : State := { up with bus := { sampling := some n, debug := some (3, [], d) } }
     (x 62 0).bus.sampling = some 62 ∧ 62 + 1 < 4 * (x 62 0).nSlices ∧ (x 62 0).bus.debug = some (3, [], 0) ∧ (x 62 1).bus.debug = some (3, [], 1)) ∧
    ({ up with logNew := [(127, [7])] } : State).logNew = [(127, [7])] := by
  decide +kernel

/-- The table gives its rows no bits. -/
theorem test_noWord : decodeTableWord 8 0 = none ∧ State.withFetchWord up 8 0 = up := ⟨rfl, rfl⟩

end Sys2Proof.Machine.Tests
end

section
/-! SUPPORT. The statements about reset, the frame edge, start-up, the flash port and configuration transactions, and what the model's
operations leave that their proofs need. -/

namespace Sys2Proof.Machine

/-! ## The state right after reset, and the reset pin -/

/-- A table that lists only the default reads as the default everywhere. -/
theorem tget_map_default {α : Type} (d : α) (l : List Nat) (k : Nat) : tget d (l.map fun j => (j, d)) k = d := by
  induction l with
  | nil => rfl
  | cons j l ih => simp [tget, ih]

/-- Right after reset a register reads its value of R566. -/
theorem reset_reg (o : Nat) : State.reset.reg o = resetWord .kr16 o := rfl

theorem reset_sl (k : Nat) : State.reset.sl k = {} := tget_map_default _ _ k

theorem resetWord_agent_state {a : Nat} (f : Fusing) (h : a < 24) : resetWord f (oAg a 0x18) = 0 := by
  have h1 : ¬ oAg a 0x18 < 0x10000 := by simp only [oAg]; omega
  have h2 : ¬ oAg a 0x18 < 0x20000 := by simp only [oAg]; omega
  have h3 : ¬ oAg a 0x18 < 0x24000 := by simp only [oAg]; omega
  have h4 : oAg a 0x18 < 0x25000 := by simp only [oAg]; omega
  have h5 : ¬ (oAg a 0x18 - 0x24000) % 0x80 = 8 := by simp only [oAg]; omega
  simp only [resetWord, if_neg h1, if_neg h2, if_neg h3, if_pos h4, h5, false_and, if_false]

theorem reset_agSt {a : Nat} (h : a < 24) : State.reset.agSt a = agDown := by
  simp [State.agSt, State.fld, reset_reg, resetWord_agent_state _ h, bits, agDown]

/-- Settles O6: the registers have their values of R566, and nothing is in any store. -/
theorem resetState : Obligations.ResetState := by
  refine ⟨fun _ => ⟨rfl, rfl, rfl, rfl⟩, ⟨List.Pairwise.nil, fun p hp => absurd hp List.not_mem_nil⟩, rfl, rfl, rfl, reset_reg,
    fun a h => reset_agSt h, reset_sl, ?_, rfl, rfl, rfl, ?_⟩
  · decide
  · decide

/-- Settles O25: each is one state by definition. -/
theorem resetPinCommands : Obligations.ResetPinCommands := by
  refine ⟨fun s => rfl, fun s h => ?_, fun s h => ?_⟩
  · simp [exec, execResetDeassert, h]
  · simp [exec, execResetDeassert, h]

/-! ## What the answer of a command can be -/

/-- The command completes, or it stops at a part that the block lacks (R5), which it does not do while `p` holds. -/
def StopsUnless (p : Prop) (r : Outcome) : Prop := (∃ t, r = .next t) ∨ (r = .fault .noSuchPart ∧ ¬p)

theorem stopsUnless_next {p : Prop} (t : State) : StopsUnless p (.next t) := .inl ⟨t, rfl⟩

theorem stopsUnless_live {p : Prop} {s : State} {r : Outcome} (h : StopsUnless p r) : StopsUnless p (live s r) := by
  cases hr : s.inReset
  · rcases h with ⟨t, rfl⟩ | ⟨rfl, hp⟩
    · exact .inl ⟨_, live_next hr t⟩
    · exact .inr ⟨by simp [live, hr], hp⟩
  · exact .inl ⟨s, live_inReset hr r⟩

theorem stopsUnless_liveAtEdge {p : Prop} {s : State} {r : Outcome} (h : StopsUnless p r) : StopsUnless p (liveAtEdge s r) := by
  cases hr : s.inReset
  · rcases h with ⟨t, rfl⟩ | ⟨rfl, hp⟩
    · exact .inl ⟨{ s.held t with ring := t.ring }, by simp [liveAtEdge, hr]⟩
    · exact .inr ⟨by simp [liveAtEdge, hr], hp⟩
  · exact .inl ⟨s, by simp [liveAtEdge, hr]⟩

theorem stopsUnless_need {p : Prop} {g : Bool} {r : Outcome} (hg : p → g = true) (h : StopsUnless p r) : StopsUnless p (need g r) := by
  cases g
  · exact .inr ⟨rfl, fun hp => nomatch hg hp⟩
  · exact h

/-- A row that names a part: it goes on if the part exists, and then it completes. -/
theorem stopsUnless_row {p : Prop} {s : State} {g : Bool} {r : Outcome} (hg : p → g = true) (h : StopsUnless p r) :
    StopsUnless p (live s (need g r)) :=
  stopsUnless_live (stopsUnless_need hg h)

section
variable {s : State} {p : Prop} {g : Bool}

/-! The rows that several commands share. -/

theorem stopsUnless_requestRow {op : ReqOp} {a : Arrival} (h : p → a.lane < 24) : StopsUnless p (requestRow op a s) := by
  refine stopsUnless_row (fun hp => decide_eq_true (h hp)) ?_
  dsimp only
  repeat' split
  all_goals exact stopsUnless_next _

theorem stopsUnless_respondRow {op : RspOp} {a : Arrival} (h : p → a.lane < 24) : StopsUnless p (respondRow op a s) := by
  refine stopsUnless_row (fun hp => decide_eq_true (h hp)) ?_
  dsimp only
  repeat' split
  all_goals exact stopsUnless_next _

theorem stopsUnless_readRow {k : Nat} {q : MaintOp → Bool} {f : MaintOp → State → List Loc → State}
    (h : p → decide (k < s.nSlices) = true) : StopsUnless p (readRow k q f s) := by
  refine stopsUnless_row h ?_
  dsimp only
  split <;> exact stopsUnless_next _

theorem stopsUnless_maintRow {k : Nat} {q : MaintOp → Bool} {b : Bool} (h : p → decide (k < s.nSlices) = true) :
    StopsUnless p (maintRow k q b s) := by
  refine stopsUnless_row h ?_
  dsimp only
  split <;> exact stopsUnless_next _

/-! The parts that a well-formed command names exist on KR16. -/

theorem slice_exists {k : Nat} (h : okSlice k = true ∧ s.nSlices = 16) : decide (k < s.nSlices) = true := by rw [h.2]; exact h.1

theorem slice_and_exist {k : Nat} (h : (okSlice k && g) = true ∧ s.nSlices = 16) : (decide (k < s.nSlices) && g) = true := by
  rw [h.2]; exact h.1

theorem slices_of_selftest_exist {l : List SelfFail} (h : l.all SelfFail.wf = true ∧ s.nSlices = 16) :
    (l.all fun f => match selfSlice f with | some k => decide (k < s.nSlices) | none => true) = true := by
  obtain ⟨h, hn⟩ := h
  rw [List.all_eq_true] at h ⊢
  intro f hf
  have := h f hf
  cases f <;> simp_all [SelfFail.wf, selfSlice, okSlice]

theorem wait_exists {k t a j : Nat} (h : (okSlice k && okTag t && okAgent a && decide (j < 4)) = true ∧ s.nSlices = 16) :
    (decide (k < s.nSlices) && decide (t < 1024) && (decide (a < 24) && decide (j < 4))) = true := by
  simp_all [okSlice, okTag, okAgent]

theorem lane_of_message_exists {a : Arrival} {q : Prop} (h : a.wf = true ∧ q) : a.lane < 24 := by
  have := h.1
  simp_all [Arrival.wf, okLane]

end

/-- Every command completes or stops at a part that the block lacks; on the larger part a well-formed one names only parts that exist. -/
theorem exec_stopsUnless (i : Instr) (s : State) : StopsUnless (i.wf = true ∧ s.nSlices = 16) (exec i s) := by
  cases i with
  | resetAssert | resetDeassert | frameEdge => exact stopsUnless_next _
  | flashResetWaitEnd | memWaitExpiry | blockReady | evclkLoss | meterRefill | leakEdge | secondTick | checkpointDue | flashOpTimeout =>
    exact stopsUnless_live (stopsUnless_next _)
  | flashOpComplete =>
    refine stopsUnless_live ?_
    repeat' split
    all_goals exact stopsUnless_next _
  | arrayFillDone | busTimeout | cisternReadDone | imageCopyReadDone | imageHeaderReadDone | logCollect | nvmItemStart =>
    refine stopsUnless_live ?_
    dsimp only
    repeat' split
    all_goals exact stopsUnless_next _
  | evganProbeTimeout | debugRead | decayVisit | placementWindowClose | reportApply | takeoverMapWrite | takeoverOpen | takeoverScan
  | zeroingWalkStep =>
    exact stopsUnless_row slice_exists (stopsUnless_next _)
  | evganWriteEnter | fenceNotice | mergeEntryTake | stageEntryObtain | streamReadyReport | streamReleaseNotice | watchdogFire =>
    exact stopsUnless_row slice_and_exist (stopsUnless_next _)
  | fillWriteTimeout | flitHopRetry | hpPermitFall | hpPermitRise | hpRetireCancel | hpRetireReq | hpSurprise | linkDown | linkRetrainPause
  | linkUp | lossDone | memoryPortDown | memoryPortUp | pmSleepReqFall | retireRequestsDrained | retireSluiceClose | streamGapExpiry
  | cfgBegin | cfgCommit | cfgRollback | cfgTimeout | rinvStart | scrubStart | agentwalkStart | meminitStart | filterDisable
  | filterStaleEnable | filterRebuild | flipArm | takeoverForce | sliceReturn | rwlWrite | drainMaskWrite | logRdWrite | evtPendClear
  | pmcSnap | pmcFreeze | cisternSave | calendarWrite | nvmRead | nvmProgram | nvmErase | nvmReload | registerWrite =>
    exact stopsUnless_row And.left (stopsUnless_next _)
  | snoopContractExpiry | resendExpiry | finalWaitExpiry | wbdirtyWaitExpiry | crossingWaitExpiry =>
    exact stopsUnless_row wait_exists (stopsUnless_next _)
  | ackgoWaitExpiry =>
    exact stopsUnless_row (fun h => (Bool.and_true _).trans (slice_and_exist h)) (stopsUnless_next _)
  | memData | memCmp => exact stopsUnless_row (fun h => Bool.and_elim_left h.1) (stopsUnless_next _)
  | laneCreditReturn => exact stopsUnless_row (fun h => by simp_all [Instr.wf, okLane, okSlice]) (stopsUnless_next _)
  | bypassLaneChange => exact stopsUnless_row (fun h => by simp_all [Instr.wf]) (stopsUnless_next _)
  | pmcWrap =>
    refine stopsUnless_row (fun h => ?_) (stopsUnless_next _)
    simp only [Instr.wf, decide_eq_true_eq] at h
    simp [h.2]; omega
  | rdShared | rdOwn | upgrade | rdCur | claim | atomNear | atomFar | evictClean | agentSleep | wrFull | wrPart | wrStream | fence =>
    exact stopsUnless_requestRow lane_of_message_exists
  | rspI | rspS | rspCross | rspIData | rspReport | ackGo => exact stopsUnless_respondRow lane_of_message_exists
  | rinvSetRead | scrubSetRead | recountSetRead | agentwalkSetRead | lossSweepSetRead => exact stopsUnless_readRow slice_exists
  | rinvTransaction | agentwalkTransaction | lossSweepTransaction => exact stopsUnless_maintRow slice_exists
  | tempReading =>
    refine stopsUnless_liveAtEdge (stopsUnless_need slice_exists ?_)
    repeat' split
    all_goals exact stopsUnless_next _
  | journalRecordReceive | placementMoveCommit | sweepEnd =>
    refine stopsUnless_row slice_exists ?_
    repeat' split
    all_goals exact stopsUnless_next _
  | correctionWriteback | evganWriteDrain | meminitTransaction | orphanRecovery | placementMoveStart | replayIssue | returnComplete
  | rowRemap | scrubRecovery | spillwayIssue | wordReread =>
    refine stopsUnless_row slice_exists ?_
    dsimp only
    repeat' split
    all_goals exact stopsUnless_next _
  | flushContractExpiry | requestSample | watchEntryExpiry =>
    refine stopsUnless_row slice_and_exist ?_
    repeat' split
    all_goals exact stopsUnless_next _
  | aluExecute | gatherWindowClose | holdEnd | homeWaiterResume | reportRepeat | slotIssue | takeoverReplay | waiterResume =>
    refine stopsUnless_row slice_and_exist ?_
    dsimp only
    repeat' split
    all_goals exact stopsUnless_next _
  | sleepGrantRise =>
    refine stopsUnless_row And.left ?_
    split <;> exact stopsUnless_next _
  | busTransferGrant | fillWriteSend =>
    refine stopsUnless_row And.left ?_
    dsimp only
    repeat' split
    all_goals exact stopsUnless_next _
  | capOffer | wbDirty =>
    refine stopsUnless_row (fun h => decide_eq_true (lane_of_message_exists h)) ?_
    dsimp only
    repeat' split
    all_goals exact stopsUnless_next _
  | selftestDone =>
    refine stopsUnless_row slices_of_selftest_exist ?_
    dsimp only
    repeat' split
    all_goals exact stopsUnless_next _

/-- Settles O2: `exec_stopsUnless` for the part at hand. -/
theorem everyWellFormedCommandCompletes : Obligations.EveryWellFormedCommandCompletes := by
  refine ⟨fun i s hw => ⟨fun hf => ?_, fun _ => ?_⟩, fun i s r h => ?_⟩
  · have hn : s.nSlices = 16 := by simp [State.nSlices, hf]
    exact (exec_stopsUnless i s).resolve_right fun h => h.2 ⟨hw, hn⟩
  · exact (exec_stopsUnless i s).imp_right And.left
  · rcases exec_stopsUnless i s with ⟨t, ht⟩ | ⟨hf, -⟩
    · rw [h] at ht; cases ht
    · rw [h] at hf; cases hf

/-- Every command is `live`, but for the reset pin, the edge, and a reading, which stands at an edge. -/
theorem exec_live (i : Instr) (s : State) (ha : i ≠ .resetAssert) (hd : i ≠ .resetDeassert) (he : ∀ l, i ≠ .frameEdge l)
    (ht : ∀ k a b, i ≠ .tempReading k a b) : ∃ r, exec i s = live s r := by
  cases i with
  | resetAssert => exact absurd rfl ha
  | resetDeassert => exact absurd rfl hd
  | frameEdge l => exact absurd rfl (he l)
  | tempReading k a b => exact absurd rfl (ht k a b)
  | flashResetWaitEnd | memWaitExpiry | blockReady | evclkLoss | meterRefill | leakEdge | secondTick | checkpointDue | flashOpTimeout =>
    exact ⟨when' _ s _, rfl⟩
  | _ => exact ⟨_, rfl⟩

/-- Settles O4: only the reset pin, the edge and a reading are not `live`. -/
theorem commandsKeepFusesQueueAndResetPin : Obligations.CommandsKeepFusesQueueAndResetPin := by
  intro i s t h
  by_cases ha : i = .resetAssert
  · subst ha; cases h; exact ⟨rfl, rfl, fun hne => absurd rfl hne⟩
  by_cases hd : i = .resetDeassert
  · subst hd; cases h
    refine ⟨?_, ?_, fun _ hne => absurd rfl hne⟩ <;> split <;> rfl
  by_cases he : ∃ l, i = .frameEdge l
  · obtain ⟨l, rfl⟩ := he; cases h
    refine ⟨?_, ?_, fun _ _ => ⟨?_, fun hne => absurd rfl (hne l)⟩⟩ <;> split <;> rfl
  by_cases ht : ∃ k a b, i = .tempReading k a b
  · obtain ⟨k, a, b, rfl⟩ := ht
    rcases liveAtEdge_cases h with ⟨-, rfl⟩ | ⟨-, u, -, rfl⟩
    · exact ⟨rfl, rfl, fun _ _ => ⟨rfl, fun _ => ⟨rfl, fun _ => rfl⟩⟩⟩
    · exact ⟨rfl, rfl, fun _ _ => ⟨rfl, fun _ => ⟨rfl, fun hne => absurd rfl (hne k a b)⟩⟩⟩
  · obtain ⟨r, hr⟩ := exec_live i s ha hd (fun l e => he ⟨l, e⟩) fun k a b e => ht ⟨k, a, b, e⟩
    obtain ⟨hin, hfu, hpe, hfr, hri⟩ := live_keeps (hr.symm.trans h)
    exact ⟨hfu, hpe, fun _ _ => ⟨hin, fun _ => ⟨hfr, fun _ => hri⟩⟩⟩

/-! ## A row whose part exists and whose event is due -/

theorem live_due {s t : State} {c : Bool} (hin : s.inReset = false) (hc : c = true) : live s (when' c s t) = .next (s.held t) := by
  rw [when'_of s hc, live_next hin]

theorem row_due {s t : State} {g c : Bool} (hin : s.inReset = false) (hg : g = true) (hc : c = true) :
    live s (need g (when' c s t)) = .next (s.held t) := by
  rw [need_of hg, live_due hin hc]

theorem lapseAt_form (s : State) (x : Lapse) : ∃ l, s.lapseAt x = { s with lapsed := l } := by
  unfold State.lapseAt; split
  · exact ⟨s.lapsed, rfl⟩
  · exact ⟨_, rfl⟩

/-- A noted timer leaves what no command drives. -/
theorem held_lapseAt (s : State) (x : Lapse) : s.held (s.lapseAt x) = s.lapseAt x := by
  obtain ⟨l, h⟩ := lapseAt_form s x; rw [h]; rfl

/-! ## Configuration transactions -/

/-- Raising a block source sets its pending bit (R535). -/
theorem raise_flag (s : State) (j code : Nat) (d : BitVec 64) : (s.raise j code d).flag (oEvtPend (j / 64)) (j % 64) = true := by
  have hp : (s.pendBlk j).flag (oEvtPend (j / 64)) (j % 64) = true := flag_setFlag_same _ _ _ _ (by omega)
  unfold State.raise
  dsimp only
  split
  · exact hp
  · exact hp

theorem raise_view (s : State) (j code : Nat) (d : BitVec 64) (i : Nat) : (s.raise j code d).view i = s.view i := by
  obtain ⟨r, m, l, n, h⟩ := raise_same s j code d; rw [h]; rfl

theorem raise_edgeQ (s : State) (j code : Nat) (d : BitVec 64) : (s.raise j code d).edgeQ = s.edgeQ := by
  obtain ⟨r, m, l, n, h⟩ := raise_same s j code d; rw [h]

/-- The slice windows hold whole slots: an access outside them by its slot is outside them. -/
theorem toSlice_of_sliceOff {s : State} {w : RegAccess} (h : sliceOff w.slot = none) : s.toSlice w = none := by
  have ho : sliceOff w.off = none := by
    have hs : ¬ (0x100000 ≤ w.off / 8 * 8 ∧ w.off / 8 * 8 < 0x200000) := fun hin => by simp [sliceOff, RegAccess.slot, hin] at h
    exact if_neg (by omega)
  simp [State.toSlice, ho]

/-- An access that the port accepts, in service, to a register outside the slice windows is served at once (R562). -/
theorem portAccess_served {s : State} {w : RegAccess} (hr : s.ready = true) (hp : s.bus.port = []) (ha : w.accepted = true)
    (ho : sliceOff w.slot = none) : s.portAccess w = s.serve w := by
  simp [State.portAccess, ha, hr, hp, toSlice_of_sliceOff ho]

/-- A write that its row names, out of reset, is answered by what the port does with it. -/
theorem writeRow_next {s : State} {w : RegAccess} {p : Bool} (hin : s.inReset = false) (hp : p = true) (hi : w.init < 16)
    (hw : w.read = false) : writeRow p w s = .next (s.held (s.portAccess w)) := by
  simp [writeRow, accessRow, live_next hin, hp, hi, hw]

theorem sliceOff_cfg : sliceOff oCfg = none := by decide
theorem slot_cfg (i : Nat) (cmd : Reg) : RegAccess.slot ⟨i, oCfg, 4, cmd, false⟩ = oCfg := by simp [RegAccess.slot, oCfg]

/-- CMD of LZ_CFG (R520): the command of a 32-bit write. -/
theorem serve_cfg (s : State) (i : Nat) (cmd : Reg) :
    s.serve ⟨i, oCfg, 4, cmd, false⟩ = s.cfgCmd i ((cmd &&& 0xFFFFFFFF).toNat % 4) := by
  have hs : RegAccess.slot ⟨i, oCfg, 4, cmd, false⟩ = oCfg := slot_cfg i cmd
  have hu : s.unnamed ⟨i, oCfg, 4, cmd, false⟩ = false := by simp [State.unnamed, hs, sliceOff_cfg]
  simp [State.serve, hu, hs, RegAccess.mask, RegAccess.value, show ¬ oCfg % 8 = 4 by decide]

/-- One of the three rows of CMD. -/
theorem cfgRow_next {s : State} {i : Nat} {cmd : Reg} (hin : s.inReset = false) (hr : s.ready = true) (hi : i < 16) (hp : s.bus.port = []) :
    writeRow true ⟨i, oCfg, 4, cmd, false⟩ s = .next (s.held (s.cfgCmd i ((cmd &&& 0xFFFFFFFF).toNat % 4))) := by
  rw [writeRow_next hin rfl hi rfl, portAccess_served hr hp (by simp [RegAccess.accepted, oCfg]) (by rw [slot_cfg, sliceOff_cfg]), serve_cfg]

/-- Of a word that meets a write's bits, either half is covered or the upper half holds bits. -/
theorem half_covered {m r : Reg} (h : m &&& r ≠ 0) : m &&& 0xFFFFFFFF ≠ 0 ∨ r >>> 32 ≠ 0 := by
  by_contra hc
  obtain ⟨hm, hr⟩ : m &&& 0xFFFFFFFF = 0 ∧ r >>> 32 = 0 := by simpa using hc
  refine h (BitVec.eq_of_getLsbD_eq fun i hi => ?_)
  rw [show (0 : Reg).getLsbD i = false from BitVec.getLsbD_zero, BitVec.getLsbD_and, Bool.and_eq_false_iff]
  by_cases h32 : i < 32
  · have hl : (0xFFFFFFFF : Reg).getLsbD i = true := (by decide : ∀ j < 32, (0xFFFFFFFF : Reg).getLsbD j = true) i h32
    have hb := congrArg (BitVec.getLsbD · i) hm
    rw [BitVec.getLsbD_and, hl, Bool.and_true] at hb
    exact .inl (hb.trans BitVec.getLsbD_zero)
  · have hb := congrArg (BitVec.getLsbD · (i - 32)) hr
    rw [BitVec.getLsbD_ushiftRight, show 32 + (i - 32) = i by omega] at hb
    exact .inr (hb.trans BitVec.getLsbD_zero)

/-- A write that covers an RWL field and nothing else goes to the transaction of its initiator, or is rejected (R518). -/
theorem serve_rwl {s : State} {w : RegAccess} (hw : w.read = false) (ho : sliceOff w.slot = none) (hm : w.mask &&& rwlMask w.slot ≠ 0)
    (hn : rwMask w.slot ||| w1cMask w.slot ||| woMask w.slot = 0) : s.serve w = s.rwl w := by
  have hz : rwlMask w.slot ≠ 0 := fun h => hm (by rw [h]; exact BitVec.and_zero)
  have hc : w.slot ≠ oCfg := fun h => hz (by rw [h]; decide)
  have hs : s.toSlice w = none := toSlice_of_sliceOff ho
  have hr : s.isRwl w = true := by
    simpa [State.isRwl, State.unnamed, ho, State.deadWindow, hs] using And.intro hz (half_covered hm)
  simp [State.serve, hw, State.unnamed, ho, hc, hr, hn]

/-- Settles O58: each row is `cfgCmd`, `rwl` or, at the end of the frame, `configLapse`. -/
theorem configurationTransactions : Obligations.ConfigurationTransactions := by
  intro s i hin hr hi hp
  have hcmd (cmd : Reg) := cfgRow_next (cmd := cmd) hin hr hi hp
  refine ⟨fun ho => ?_, fun ho => ?_, fun ho => ?_, fun ho => ?_, fun ho => ⟨?_, ?_⟩, fun ho hd => ⟨?_, ?_⟩,
    fun w hw ha hrd hs hm _ hn => ?_⟩
  · exact (hcmd 1).trans (by simp only [State.cfgCmd, ho]; rfl)
  · exact (hcmd 1).trans (by simp only [State.cfgCmd, ho]; rfl)
  · exact (hcmd 2).trans (by simp only [State.cfgCmd, ho]; rfl)
  · exact (hcmd 3).trans (by simp only [State.cfgCmd, ho]; rfl)
  · exact (hcmd 2).trans (by simp only [State.cfgCmd, ho]; rfl)
  · exact (hcmd 3).trans (by simp only [State.cfgCmd, ho]; rfl)
  · have hdue : s.configDue i = true := by simp [State.configDue, ho, hd]
    exact (row_due hin (decide_eq_true hi) hdue).trans (by rw [held_lapseAt])
  · have hdue : s.configDue i = true := by simp [State.configDue, ho, hd]
    simp only [State.lapse, hdue, if_true, State.configLapse, State.cfgRefused, raise_view, raise_edgeQ, State.setView_view_same]
    exact ⟨trivial, trivial, trivial, raise_flag _ 36 _ _, rfl⟩
  · have hz : rwlMask w.slot ≠ 0 := fun h => hm (by rw [h]; exact BitVec.and_zero)
    have hx : exec (.rwlWrite w) s = .next (s.held (s.rwl w)) := by
      rw [← serve_rwl hrd hs hm hn, ← portAccess_served hr hp ha hs]
      exact writeRow_next hin (by simpa using hz) (hw ▸ hi) hrd
    subst hw
    exact ⟨fun ho => hx.trans (by simp only [State.rwl, ho]; rfl), fun ho => hx.trans (by simp only [State.rwl, ho]; rfl)⟩

/-! ## Readings of a register -/

theorem fld_congr {s t : State} {o : Nat} (h : t.reg o = s.reg o) (lo w : Nat) : t.fld o lo w = s.fld o lo w := by
  rw [State.fld, State.fld, h]

theorem flag_congr {s t : State} {o : Nat} (h : t.reg o = s.reg o) (b : Nat) : t.flag o b = s.flag o b := by
  rw [State.flag, State.flag, h]

theorem reg_eq_of_regs {s t : State} (hf : t.fusing = s.fusing) (hr : t.regs = s.regs) (o : Nat) : t.reg o = s.reg o := by
  rw [State.reg, State.reg, hf, hr]

/-! ## The failures of start-up -/

/-- Start-up has failed with a code, and no other block register differs (R514). -/
def State.StartFailed (s t : State) (code : Nat) : Prop :=
  t.phase = 15 ∧ t.flag oBoot 5 = true ∧ t.fld oBoot 16 5 = code ∧ ∀ p, p ≠ oBoot → p < 0x100000 → t.reg p = s.reg p

theorem State.StartFailed.congr {s s' t t' : State} {code : Nat} (h : s.StartFailed t code) (ht : ∀ p, t'.reg p = t.reg p)
    (hs : ∀ p, p < 0x100000 → s.reg p = s'.reg p) : s'.StartFailed t' code := by
  obtain ⟨hph, hfl, hco, hre⟩ := h
  refine ⟨(fld_congr (ht _) _ _).trans hph, (flag_congr (ht _) _).trans hfl, (fld_congr (ht _) _ _).trans hco, fun p hp hl => ?_⟩
  rw [ht, hre p hp hl, hs p hl]

theorem failNow_failed (s : State) {code : Nat} (h : code < 32) : s.StartFailed (s.failNow code) code := by
  refine ⟨?_, ?_, ?_, fun p hp _ => ?_⟩
  · rw [State.phase, State.failNow, fld_setFld_apart _ _ _ _ _ _ _ (by omega), fld_setFlag_apart _ _ _ _ _ _ (by omega), State.setPhase,
      fld_setFld_same _ _ _ _ _ (by omega)]
    rfl
  · rw [State.failNow, flag_setFld_apart _ _ _ _ _ _ (by omega), flag_setFlag_same _ _ _ _ (by omega)]
  · rw [State.failNow, fld_setFld_same _ _ _ _ _ (by omega)]
    exact Nat.mod_eq_of_lt h
  · rw [State.failNow, reg_setFld_other _ _ _ _ hp, reg_setFlag_other _ _ _ hp, State.setPhase, reg_setFld_other _ _ _ _ hp]

/-- Before service, and unless it has failed already, start-up fails (R514). -/
theorem startFail_failed {s : State} {code : Nat} (h8 : s.phase ≠ 8) (h15 : s.phase ≠ 15) (h : code < 32) :
    s.StartFailed (s.startFail code) code := by
  simpa [State.startFail, h8, h15] using failNow_failed s h

/-- A timer of start-up that ends in `startFail`. -/
theorem lapse_failed {s : State} {x : Lapse} {code : Nat} (hx : s.lapse x = s.startFail code) (h8 : s.phase ≠ 8) (h15 : s.phase ≠ 15)
    (h : code < 32) : s.StartFailed (s.lapse x) code :=
  hx ▸ startFail_failed h8 h15 h

theorem lapseAll_single {s : State} {x : Lapse} (h : s.lapsed = [x]) : s.lapseAll = State.lapse { s with lapsed := [] } x := by
  rw [State.lapseAll, h]; rfl

/-! ## A reading of a slice -/

/-- TEMP and the budget of a reading with the code `v` (R8, R234, R235): the register of the slice alone. -/
def State.withReading (s : State) (k v : Nat) : State := (s.setFld (oSl k 0x48) 0 8 v).rebudget k

theorem withReading_same (s : State) (k v : Nat) : s.SameButRegs (s.withReading k v) := (setFld_same _ _ _ _ _).trans (setFld_same _ _ _ _ _)

theorem withReading_ready (s : State) (k v : Nat) : (s.withReading k v).ready = s.ready := by
  obtain ⟨r, m, h⟩ := withReading_same s k v; rw [h]

theorem withReading_reg_other (s : State) (k v : Nat) {p : Nat} (h : p ≠ oSl k 0x48) : (s.withReading k v).reg p = s.reg p := by
  unfold State.withReading State.rebudget
  dsimp only
  rw [reg_setFld_other _ _ _ _ h, reg_setFld_other _ _ _ _ h]

theorem withReading_temp (s : State) (k v : Nat) : (s.withReading k v).fld (oSl k 0x48) 0 8 = v % 2 ^ 8 := by
  unfold State.withReading State.rebudget
  dsimp only
  rw [fld_setFld_apart _ _ _ _ _ _ _ (by omega), fld_setFld_same _ _ _ _ _ (by omega)]

/-- The budget: what R235 gives for the reading, below BUDGET_CAP. -/
theorem withReading_budget (s : State) (k v : Nat) :
    (s.withReading k v).fld (oSl k 0x48) 8 8 =
      if s.evganPresent then min (budgetFor (BitVec.ofNat 8 v)) (min 128 (max 32 (s.fld oEvgan 0 8)))
      else min 128 (max 32 (s.fld oEvgan 0 8)) := by
  have hb : oEvgan ≠ oSl k 0x48 := by simp only [oEvgan, oSl]; omega
  have hf : oFilter ≠ oSl k 0x48 := by simp only [oFilter, oSl]; omega
  have hc : (s.setFld (oSl k 0x48) 0 8 v).fld oEvgan 0 8 = s.fld oEvgan 0 8 := fld_setFld_other s _ _ _ _ _ hb
  have he : (s.setFld (oSl k 0x48) 0 8 v).evganPresent = s.evganPresent := flag_congr (reg_setFld_other s _ _ _ hf) _
  have ht : bits ((s.setFld (oSl k 0x48) 0 8 v).reg (oSl k 0x48)) 0 8 = BitVec.ofNat 8 v := by
    rw [State.setFld, reg_setReg_same, bits_setBits_same _ _ _ _ (by omega)]
  unfold State.withReading State.rebudget
  dsimp only
  rw [fld_setFld_same _ _ _ _ _ (by omega), hc, he, ht]
  split <;> omega

/-- What a reading does (R234, R574, R575). -/
theorem takeReading_none (s : State) (k : Nat) : s.takeReading k none = s.withReading k 0x80 := rfl

theorem takeReading_some (s : State) (k : Nat) (c : Int) :
    s.takeReading k (some c) =
      let t := s.withReading k (BitVec.ofInt 8 c).toNat
      let u := if c < 108 then { t with hotSlices := t.hotSlices.filter fun h => h != k } else t
      if 110 ≤ c then u.tooHot k c else u := rfl

/-- At 110 °C or more the slice is not re-armed. -/
theorem takeReading_hot (s : State) (k : Nat) {c : Int} (h : 110 ≤ c) :
    s.takeReading k (some c) = (s.withReading k (BitVec.ofInt 8 c).toNat).tooHot k c := by
  have h108 : ¬ c < 108 := by omega
  rw [takeReading_some]
  simp only [h108, h, if_false, if_true]

theorem faultDue_form (s : State) (x c : Nat) (d : BitVec 64) :
    ∃ y, s.faultDue x c d = State.setFlag { s with cistern := y } oCisternStat 42 true :=
  ⟨_, rfl⟩

theorem atLastEdge_fusing {s : State} {f : State → State} (hf : ∀ u, (f u).fusing = u.fusing) : (s.atLastEdge f).fusing = s.fusing := by
  obtain ⟨r, m, l, n, h⟩ := logFlush_same (f { s with frame := s.frame - 1, logNew := [] })
  exact (congrArg State.fusing h).trans (hf _)

theorem atLastEdge_hotSlices {s : State} {f : State → State} (hf : ∀ u, (f u).hotSlices = u.hotSlices) :
    (s.atLastEdge f).hotSlices = s.hotSlices := by
  obtain ⟨r, m, l, n, h⟩ := logFlush_same (f { s with frame := s.frame - 1, logNew := [] })
  exact (congrArg State.hotSlices h).trans (hf _)

/-- The event and the fault record of a block source change neither the fuses nor the slices that are not re-armed. -/
theorem raise_faultDue_keeps (s : State) (j c x e : Nat) (d : BitVec 64) :
    ((s.raise j c d).faultDue x e d).fusing = s.fusing ∧ ((s.raise j c d).faultDue x e d).hotSlices = s.hotSlices := by
  obtain ⟨r, m, l, n, h⟩ := raise_same s j c d
  obtain ⟨y, hy⟩ := faultDue_form (s.raise j c d) x e d
  rw [hy, h]; simp

theorem tooHot_fusing (s : State) (k : Nat) (c : Int) : (s.tooHot k c).fusing = s.fusing := by
  unfold State.tooHot
  split
  · obtain ⟨r, m, h⟩ := startFail_same s 0x16; rw [h]
  · split
    · rfl
    · exact atLastEdge_fusing fun u => (raise_faultDue_keeps u _ _ _ _ _).1

theorem tooHot_mem (s : State) {k : Nat} (c : Int) (h : s.ready = true) : k ∈ (s.tooHot k c).hotSlices := by
  simp only [State.tooHot, h, Bool.not_true, Bool.false_eq_true, if_false]
  split
  · assumption
  · rw [atLastEdge_hotSlices fun u => (raise_faultDue_keeps u _ _ _ _ _).2]
    simp

theorem takeReading_fusing (s : State) (k : Nat) (r : Option Int) : (s.takeReading k r).fusing = s.fusing := by
  cases r with
  | none => rfl
  | some c =>
    rw [takeReading_some]
    dsimp only
    split
    · rw [tooHot_fusing]; split <;> rfl
    · split <;> rfl

/-- TEMP_READING at a reading edge completes; what it leaves. -/
theorem tempReading_next {s : State} {k f : Nat} {a b : Option Int} (hin : s.inReset = false) (hk : k < s.nSlices) (hl : s.boot.loadAt = some f)
    (hf : (s.frame - f) % 1024 = 0) :
    ∃ t, exec (.tempReading k a b) s = .next t ∧ (∀ o, t.reg o = (s.takeReading k (readingOf a b)).reg o) ∧
      t.out = (s.takeReading k (readingOf a b)).out ∧ t.hotSlices = (s.takeReading k (readingOf a b)).hotSlices := by
  refine ⟨{ s.held (s.edgeDo fun s => s.takeReading k (readingOf a b)) with ring := (s.takeReading k (readingOf a b)).ring }, ?_,
    reg_eq_of_regs (takeReading_fusing s k _).symm rfl, rfl, rfl⟩
  change execTempReading k a b s = _
  simp only [execTempReading, liveAtEdge, hin, hk, hl, hf, decide_true, need_true, when'_true, Bool.false_eq_true, if_false]
  rfl

/-- Before BLOCK_READY a reading of 110 °C or more fails start-up (R494). -/
theorem takeReading_failed {s : State} {k : Nat} {c : Int} (h8 : s.phase ≠ 8) (h15 : s.phase ≠ 15) (hr : s.ready = false) (hc : 110 ≤ c) :
    s.StartFailed (s.takeReading k (some c)) 0x16 := by
  have hv : ∀ p, p < 0x100000 → (s.withReading k (BitVec.ofInt 8 c).toNat).reg p = s.reg p := fun p hp =>
    withReading_reg_other s k _ (by simp only [oSl]; omega)
  have hph : (s.withReading k (BitVec.ofInt 8 c).toNat).phase = s.phase := fld_congr (hv _ (by decide)) _ _
  have hx : s.takeReading k (some c) = (s.withReading k (BitVec.ofInt 8 c).toNat).startFail 0x16 := by
    rw [takeReading_hot s k hc]
    exact if_pos (by rw [withReading_ready, hr]; rfl)
  rw [← hph] at h8 h15
  rw [hx]
  exact State.StartFailed.congr (code := 0x16) (startFail_failed h8 h15 (by omega)) (fun _ => rfl) hv

/-- Settles O27: every row ends in `startFail`. -/
theorem startUpFailures : Obligations.StartUpFailures := by
  intro s hin h8 h15
  refine ⟨fun k f hk hl he hf => ?_, fun f hl h3 h6 hf hp => ?_, fun p hp h7 hw => ?_, fun x hx => lapseAll_single hx, fun he hr => ?_,
    fun k f a b c hk hr hl hf hc h110 => ?_⟩
  · have hd : s.probeDue = true := by simp [State.probeDue, hl, he, hf]
    exact ⟨(row_due hin (decide_eq_true hk) hd).trans (by rw [held_lapseAt]), lapse_failed (if_pos hd) h8 h15 (by omega)⟩
  · have hd : s.memWaitDue = true := by simp [State.memWaitDue, hl, h3, h6, hf, hp]
    exact ⟨(live_due hin hd).trans (by rw [held_lapseAt]), lapse_failed (if_pos hd) h8 h15 (by omega)⟩
  · have hd : s.fillLate p = true := by simp [State.fillLate, h7, hw]
    exact ⟨(row_due hin (decide_eq_true hp) hd).trans (by rw [held_lapseAt]), lapse_failed (if_pos hd) h8 h15 (by omega)⟩
  · have hs : s.inService = false := by simp [State.inService, hr]
    have hx : (if s.inService then s.evclkFail else s.startFail 0x11) = s.startFail 0x11 := by simp [hs]
    refine ⟨_, live_due hin he, ?_⟩
    rw [hx]
    have hf : (s.startFail 0x11).fusing = s.fusing := by obtain ⟨r, m, h⟩ := startFail_same s 0x11; rw [h]
    exact State.StartFailed.congr (code := 0x11) (startFail_failed h8 h15 (by omega)) (State.held_reg s hf) fun _ _ => rfl
  · obtain ⟨u, hu, hreg, -, -⟩ := tempReading_next (a := a) (b := b) hin hk hl hf
    rw [hc] at hreg
    exact ⟨u, hu, State.StartFailed.congr (takeReading_failed h8 h15 hr h110) hreg fun _ _ => rfl⟩

/-! ## Temperature and the loss of EVCLK in service -/

/-- A slice that is to fail is noted with its cause; what is noted stays. -/
theorem failSlice_mem {s : State} {k c : Nat} {p : Nat × Nat} (h : p ∈ s.failDue) : p ∈ (s.failSlice k c).failDue := by
  unfold State.failSlice; split
  · exact h
  · exact List.mem_append_left _ h

theorem failSlice_noted {s : State} {k c : Nat} (h : ∀ p ∈ s.failDue, p.2 = c) :
    (k, c) ∈ (s.failSlice k c).failDue ∧ ∀ p ∈ (s.failSlice k c).failDue, p.2 = c := by
  unfold State.failSlice; split
  next hk =>
    obtain ⟨p, hp, hpk⟩ := List.any_eq_true.mp hk
    have : p = (k, c) := Prod.ext (by simpa using hpk) (h p hp)
    exact ⟨this ▸ hp, h⟩
  next => exact ⟨by simp, by simpa [or_imp, forall_and] using h⟩

/-- Every slice of a list is noted with the one cause. -/
theorem foldSt_failSlice_noted {c : Nat} (l : List Nat) {s : State} (h : ∀ p ∈ s.failDue, p.2 = c) :
    (∀ p ∈ s.failDue, p ∈ (foldSt l (fun s k => s.failSlice k c) s).failDue) ∧
    (∀ k ∈ l, (k, c) ∈ (foldSt l (fun s k => s.failSlice k c) s).failDue) ∧
    ∀ p ∈ (foldSt l (fun s k => s.failSlice k c) s).failDue, p.2 = c := by
  induction l generalizing s with
  | nil => exact ⟨fun _ hp => hp, fun _ hk => absurd hk List.not_mem_nil, h⟩
  | cons k l ih =>
    obtain ⟨hk, hc⟩ := failSlice_noted (k := k) h
    obtain ⟨hkeep, hall, hcause⟩ := ih hc
    refine ⟨fun p hp => hkeep p (failSlice_mem hp), fun j hj => ?_, hcause⟩
    rcases List.mem_cons.mp hj with rfl | hj
    · exact hkeep _ hk
    · exact hall j hj

theorem foldSt_failSlice_form (c : Nat) (l : List Nat) (s : State) :
    ∃ d, foldSt l (fun s k => s.failSlice k c) s = { s with failDue := d } :=
  foldSt_keeps (P := fun u => ∃ d, u = { s with failDue := d })
    (fun u k ⟨d, hu⟩ => by obtain ⟨d', h⟩ := failSlice_form u k c; exact ⟨d', by rw [h, hu]⟩) l ⟨s.failDue, rfl⟩

/-- The loss of EVCLK in service changes only the slices that are to fail: all of them, each with CAUSE 0x5 (R569). -/
theorem evclkFail_regs (s : State) : s.evclkFail.regs = s.regs ∧ s.evclkFail.slices = s.slices := by
  obtain ⟨d, hd⟩ := foldSt_failSlice_form 5 (List.range s.nSlices) { s with failDue := s.failDue.map fun p => (p.1, 5) }
  rw [State.evclkFail, hd]
  exact ⟨rfl, rfl⟩

theorem evclkFail_noted (s : State) : (∀ k, k < s.nSlices → (k, 5) ∈ s.evclkFail.failDue) ∧ ∀ p ∈ s.evclkFail.failDue, p.2 = 5 := by
  have h : ∀ p ∈ ({ s with failDue := s.failDue.map fun p => (p.1, 5) } : State).failDue, p.2 = 5 := fun p hp => by
    obtain ⟨q, -, rfl⟩ := List.mem_map.mp hp; rfl
  obtain ⟨-, hall, hcause⟩ := foldSt_failSlice_noted (List.range s.nSlices) h
  exact ⟨fun k hk => hall k (List.mem_range.mpr hk), hcause⟩

/-- Settles O32: `withReading` for the readings, `failSlice` of every slice for the clock. -/
theorem temperatureAndEvclk : Obligations.TemperatureAndEvclk := by
  refine ⟨fun s k f a b hin hk hl hf => ?_, fun s hin hr he => ?_⟩
  · obtain ⟨t, ht, hreg, hout, hhot⟩ := tempReading_next (a := a) (b := b) hin hk hl hf
    refine ⟨fun hn => ⟨t, ht, ?_⟩, fun c hc h110 => ⟨t, ht, ?_⟩, fun c hc h110 hr => ⟨t, ht, ?_⟩⟩
    · rw [hn, takeReading_none] at hreg hout
      refine ⟨(fld_congr (hreg _) _ _).trans (withReading_temp s k _), ?_, fun p hp => (hreg p).trans (withReading_reg_other s k _ hp), hout⟩
      rw [fld_congr (hreg _), withReading_budget]
      have hb : budgetFor (BitVec.ofNat 8 0x80) = 32 := rfl
      rw [hb]
      split <;> omega
    · have hx : s.takeReading k (some c) = if c < 108 then { s.withReading k (BitVec.ofInt 8 c).toNat with
          hotSlices := s.hotSlices.filter fun h => h != k } else s.withReading k (BitVec.ofInt 8 c).toNat := by
        rw [takeReading_some]
        exact if_neg (by omega)
      have hregs : ∀ p, (s.takeReading k (some c)).reg p = (s.withReading k (BitVec.ofInt 8 c).toNat).reg p := fun p => by
        rw [hx]; split <;> rfl
      have houts : (s.takeReading k (some c)).out = s.out := by rw [hx]; split <;> rfl
      rw [hc] at hreg hout
      have hto := fun p => (hreg p).trans (hregs p)
      have hv : BitVec.ofNat 8 (BitVec.ofInt 8 c).toNat = BitVec.ofInt 8 c := BitVec.ofNat_toNat _ _
      refine ⟨?_, ?_, fun p hp => (hto p).trans (withReading_reg_other s k _ hp), hout.trans houts⟩
      · rw [fld_congr (hto _), withReading_temp, Nat.mod_eq_of_lt (BitVec.isLt _)]
      · rw [fld_congr (hto _), withReading_budget, hv]
    · rw [hhot, hc, takeReading_hot s k h110]
      exact tooHot_mem _ c (by rw [withReading_ready, hr])
  · have hs : (if s.inService then s.evclkFail else s.startFail 0x11) = s.evclkFail := by simp [State.inService, hin, hr]
    obtain ⟨hregs, hslices⟩ := evclkFail_regs s
    obtain ⟨hall, hcause⟩ := evclkFail_noted s
    refine ⟨_, live_due hin he, ?_⟩
    rw [hs]
    exact ⟨hregs, hslices, hall, fun k c => hcause (k, c)⟩

/-! ## The frame edge -/

theorem exec_frameEdge {s : State} (l : BitVec 16) (hin : s.inReset = false) :
    exec (.frameEdge l) s = .next (s.begun (s.edge l s.edgeQ) l) := by
  change Host.Outcome.next (if s.inReset then s else _) = _
  rw [hin]; rfl

/-- The end of a frame and the edge, by the parts of what `edgeChanges` gives. -/
theorem edge_eq (s : State) (l : BitVec 16) (q : List EdgeOp) :
    s.edge l q =
      let c := (s.frameEnd l).edgeChanges l q
      let u := c.2.2.edgeLog s.ring q
      { u.pinsOut.frameStart c.1 c.2.1 with ring := u.ring } := by
  unfold State.edge
  rcases (s.frameEnd l).edgeChanges l q with ⟨lost, failed, t⟩
  rfl

theorem edgeChanges_eq (s : State) (l : BitVec 16) (q : List EdgeOp) :
    s.edgeChanges l q =
      let a := foldSt (List.range 24) State.consecEdge s
      let b := foldSt ((List.range 8).map fun i => 16 + i) State.retireEdge a.lossEdge.2
      let c := ((((b.pinEdge l).cycleEdge).applyEdge q).mapSwitch).portEdge
      (a.lossEdge.1, c.failDue, c.failEdge) := by
  unfold State.edgeChanges
  dsimp only

theorem tget_map {α β : Type} (f : α → β) (d : α) (t : Tbl α) (k : Nat) :
    tget (f d) (t.map fun p => (p.1, f p.2)) k = f (tget d t k) := by
  induction t with
  | nil => rfl
  | cons p t ih => simp only [List.map_cons, tget]; split <;> simp_all

/-- No slot of the frame that begins is used (R254). -/
theorem begun_slots (s t : State) (l : BitVec 16) (e : Nat) : ((s.begun t l).sl e).slots = 0 := by
  have h := tget_map (fun x : Slice => { x with slots := 0 }) {} t.slices e
  exact congrArg Slice.slots h

/-! What waits for the edge. -/

theorem applyEdge_append (s : State) (q : List EdgeOp) (x : EdgeOp) :
    s.applyEdge (q ++ [x]) = if x.toLog then s.applyEdge q else (s.applyEdge q).applyOp x := by
  cases hx : x.toLog <;> simp [State.applyEdge, List.filter_append, hx]

theorem applyLog_append (s : State) (q : List EdgeOp) (x : EdgeOp) :
    s.applyLog (q ++ [x]) = if x.toLog then (s.applyLog q).applyOp x else s.applyLog q := by
  cases hx : x.toLog <;> simp [State.applyLog, List.filter_append, hx]

/-! A served write: it changes no register but its own, and of that only the bits that can be written. -/

theorem putRw_form (s : State) (w : RegAccess) : ∃ r, s.putRw w = { s with regs := r } := by
  unfold State.putRw; dsimp only; split
  · exact ⟨s.regs, rfl⟩
  · exact ⟨_, rfl⟩

theorem putRw_reg {s : State} {w : RegAccess} {o : Nat} (h : o = w.slot → rwMask o = 0) : (s.putRw w).reg o = s.reg o := by
  unfold State.putRw; dsimp only
  split
  · rfl
  next hm => exact reg_setReg_other _ _ fun ho => hm (by rw [← ho, h ho]; exact BitVec.zero_and)

theorem putW1c_keeps {P : State → Prop} {s : State} {w : RegAccess} (hP : ∀ u b, P u → P (u.setFlag w.slot b false)) (h : P s) :
    P (s.putW1c w) :=
  foldSt_keeps (fun u b => hP u b) _ h

theorem putW1c_fusing (s : State) (w : RegAccess) : (s.putW1c w).fusing = s.fusing :=
  putW1c_keeps (P := fun u => u.fusing = s.fusing) (fun u b hu => by rw [State.setFlag_fusing, hu]) rfl

theorem putW1c_reg {s : State} {w : RegAccess} {o : Nat} (h : o = w.slot → w1cMask o = 0) : (s.putW1c w).reg o = s.reg o := by
  by_cases ho : o = w.slot
  · have hm : w1cMask w.slot = 0 := ho ▸ h ho
    simp [State.putW1c, hm]
  · exact putW1c_keeps (P := fun u => u.reg o = s.reg o) (fun u b hu => by rw [reg_setFlag_other _ _ _ ho, hu]) rfl

/-- What every step of a fold keeps, the fold keeps. -/
theorem foldl_keeps {α : Type} {P : State → Prop} {f : State → α → State} (l : List α) {s : State} (h : P s)
    (hf : ∀ u, ∀ a ∈ l, P u → P (f u a)) : P (l.foldl f s) := by
  induction l generalizing s with
  | nil => exact h
  | cons a l ih => exact ih (hf s a List.mem_cons_self h) fun u b hb => hf u b (List.mem_cons_of_mem a hb)

theorem putClear_keeps {P : State → Prop} {s : State} {w : RegAccess} (hP : ∀ u lo n v, P u → P (u.setFld w.slot lo n v)) (h : P s) :
    P (s.putClear w) := by
  unfold State.putClear
  split
  · exact h
  · dsimp only
    split
    · exact h
    · refine foldl_keeps _ (foldl_keeps _ h fun u f _ hu => hP u _ _ _ hu) fun u f _ hu => ?_
      split
      · exact hP u _ _ _ hu
      · exact hu

theorem putClear_fusing (s : State) (w : RegAccess) : (s.putClear w).fusing = s.fusing :=
  putClear_keeps (P := fun u => u.fusing = s.fusing) (fun _ _ _ _ hu => hu) rfl

theorem putClear_reg {s : State} {w : RegAccess} {o : Nat} (h : o = w.slot → clearOf o = none) : (s.putClear w).reg o = s.reg o := by
  by_cases ho : o = w.slot
  · have hc : clearOf w.slot = none := ho ▸ h ho
    simp [State.putClear, hc]
  · exact putClear_keeps (P := fun u => u.reg o = s.reg o) (fun u lo n v hu => by rw [reg_setFld_other _ _ _ _ ho, hu]) rfl

theorem seeding_form (s : State) (w : RegAccess) : ∃ c, s.seeding w = { s with cistern := c } := by
  unfold State.seeding
  split
  · exact ⟨s.cistern, rfl⟩
  · exact ⟨_, rfl⟩

/-- ROLE and CAUSE of a slice are read-only (R565). -/
theorem sliceOff_role {k : Nat} (h : k < 16) : sliceOff (oSl k 0x90) = some (k, 0x90) := by
  have ho : 0x100000 ≤ oSl k 0x90 ∧ oSl k 0x90 < 0x200000 := by simp only [oSl]; omega
  have hk : (oSl k 0x90 - 0x100000) / 0x10000 = k := by simp only [oSl]; omega
  have hp : (oSl k 0x90 - 0x100000) % 0x10000 = 0x90 := by simp only [oSl]; omega
  rw [sliceOff, if_pos ho, hk, hp]

theorem role_readOnly {k : Nat} (h : k < 16) : rwMask (oSl k 0x90) = 0 ∧ w1cMask (oSl k 0x90) = 0 ∧ clearOf (oSl k 0x90) = none := by
  simp [rwMask, w1cMask, clearOf, sliceOff_role h, rwSlice, clearSlice]

/-- The slice whose window an access goes to exists, and its slot lies in the window. -/
theorem toSlice_some {s : State} {w : RegAccess} {k : Nat} (h : s.toSlice w = some k) : k < 16 ∧ 0x100000 ≤ w.slot := by
  unfold State.toSlice at h
  split at h
  next k' p ho =>
    obtain ⟨hg, rfl⟩ : (decide (k' < s.nSlices) && sliceNamed p) = true ∧ k' = k := by
      split at h <;> simp_all
    have hn : s.nSlices ≤ 16 := by unfold State.nSlices; split <;> omega
    have hk : k' < s.nSlices := by simp only [Bool.and_eq_true, decide_eq_true_eq] at hg; exact hg.1
    have hw : 0x100000 ≤ w.off := by
      unfold sliceOff at ho
      split at ho
      next hin => exact hin.1
      · cases ho
    exact ⟨by omega, by simp only [RegAccess.slot]; omega⟩
  · cases h

theorem toSlice_congr {s t : State} (h : t.fusing = s.fusing) (w : RegAccess) : t.toSlice w = s.toSlice w := by
  have hn : t.nSlices = s.nSlices := by unfold State.nSlices; rw [h]
  unfold State.toSlice; rw [hn]

/-- Whether an access meets a dead window depends on the roles and the lost pairs. -/
theorem deadWindow_congr {s t : State} {w : RegAccess} (hf : t.fusing = s.fusing)
    (hr : ∀ k, s.toSlice w = some k → t.reg (oSl k 0x90) = s.reg (oSl k 0x90) ∧ t.reg oTakeover = s.reg oTakeover) :
    t.deadWindow w = s.deadWindow w := by
  unfold State.deadWindow
  rw [toSlice_congr hf]
  cases hk : s.toSlice w with
  | none => rfl
  | some k =>
    obtain ⟨hrole, htake⟩ := hr k hk
    simp only [State.sliceFailed, State.role, State.pairLost, fld_congr hrole, flag_congr htake]

theorem deadWindow_seeding (s : State) (w : RegAccess) : (s.seeding w).deadWindow w = s.deadWindow w := by
  obtain ⟨c, h⟩ := seeding_form s w
  rw [h]; exact deadWindow_congr rfl fun _ _ => ⟨rfl, rfl⟩

theorem oTakeover_ne_slot {w : RegAccess} (h : 0x100000 ≤ w.slot) : oTakeover ≠ w.slot := by simp only [oTakeover]; omega

/-- No part of a served write opens or closes a dead window. -/
theorem deadWindow_putRw (s : State) (w : RegAccess) : (s.putRw w).deadWindow w = s.deadWindow w := by
  obtain ⟨r, h⟩ := putRw_form s w
  refine deadWindow_congr (by rw [h]) fun k hk => ?_
  obtain ⟨h16, hw⟩ := toSlice_some hk
  exact ⟨putRw_reg fun _ => (role_readOnly h16).1, putRw_reg fun ho => absurd ho (oTakeover_ne_slot hw)⟩

theorem deadWindow_putW1c (s : State) (w : RegAccess) : (s.putW1c w).deadWindow w = s.deadWindow w := by
  refine deadWindow_congr (putW1c_fusing s w) fun k hk => ?_
  obtain ⟨h16, hw⟩ := toSlice_some hk
  exact ⟨putW1c_reg fun _ => (role_readOnly h16).2.1, putW1c_reg fun ho => absurd ho (oTakeover_ne_slot hw)⟩

theorem deadWindow_putClear (s : State) (w : RegAccess) : (s.putClear w).deadWindow w = s.deadWindow w := by
  refine deadWindow_congr (putClear_fusing s w) fun k hk => ?_
  obtain ⟨h16, hw⟩ := toSlice_some hk
  exact ⟨putClear_reg fun _ => (role_readOnly h16).2.2, putClear_reg fun ho => absurd ho (oTakeover_ne_slot hw)⟩

theorem applyWrite_open {s : State} {w : RegAccess} (hu : s.unnamed w = false) (hd : s.deadWindow w = false) :
    s.applyWrite w = ((((s.seeding w).putRw w).putW1c w).putClear w).putWo w := by
  simp [State.applyWrite, hu, deadWindow_putClear, deadWindow_putW1c, deadWindow_putRw, deadWindow_seeding, hd]

theorem applyWrite_dead {s : State} {w : RegAccess} (hu : s.unnamed w = false) (hd : s.deadWindow w = true) :
    s.applyWrite w = ((s.seeding w).putW1c w).putClear w := by
  simp [State.applyWrite, hu, deadWindow_putClear, deadWindow_putW1c, deadWindow_seeding, hd]

/-! The map epoch, the slices that fail, and the pins. -/

/-- The map-epoch switch of one slice that does not get its own range back (R42, R480). -/
theorem mapSwitch_single {s : State} {f k : Nat} (h : s.routers.mapDue = [(f, k)]) (hne : f ≠ k) :
    ∃ n, n.mapDue = [] ∧ s.mapSwitch = { (((s.setFld oNetStatus 32 8 ((s.fld oNetStatus 32 8 + 1) % 256)).setFld oMap (4 * f) 4 k).setFlag
      oNetStatus f true).setFlag oNetStatus (16 + f) true with routers := n } := by
  have hb : (f != k) = true := by simpa using hne
  unfold State.mapSwitch
  rw [h]
  dsimp only [List.foldl]
  rw [if_neg hne, hb]
  exact ⟨_, rfl, rfl⟩

/-- The bits that a set of routing bytes puts in the vectors (R537). -/
theorem getLsbD_vectors (l : List (BitVec 8)) (a : BitVec 8) {v : Nat} (hv : v < 8) :
    (l.foldl (fun (m : BitVec 8) b => m ||| (1 <<< (bits b 2 3).toNat)) a).getLsbD v =
      (a.getLsbD v || l.any fun b => (bits b 2 3).toNat == v) := by
  induction l generalizing a with
  | nil => simp
  | cons b l ih =>
    have hb : (((1 <<< (bits b 2 3).toNat : Nat)) : BitVec 8).getLsbD v = ((bits b 2 3).toNat == v) := by
      rw [BitVec.natCast_eq_ofNat, BitVec.getLsbD_ofNat, Nat.one_shiftLeft, Nat.testBit_two_pow]
      simp [hv, beq_eq_decide]
    rw [List.foldl_cons, ih, BitVec.getLsbD_or, hb, List.any_cons, Bool.or_assoc]

/-- A slice that fails keeps what its pipeline and its weir show; its ROLE and the block registers are not among that. -/
theorem freeze_keeps {P : State → Prop} {s : State} {k : Nat} (h : P s)
    (hP : ∀ u v, ∀ p ∈ [0x00, 0x20, 0x48, 0x60], P u → P (u.setReg (oSl k p) v)) : P (s.freeze k) := by
  unfold State.freeze
  split
  · exact h
  · exact foldl_keeps _ h fun u p hp hu => hP u _ p hp hu

theorem freeze_same (s : State) (k : Nat) : s.SameButRegs (s.freeze k) :=
  freeze_keeps (P := fun u => s.SameButRegs u) (.refl s) fun u v _ _ hu => hu.trans (setReg_same u _ v)

theorem freeze_reg {s : State} {k o : Nat} (h : ∀ p ∈ [0x00, 0x20, 0x48, 0x60], o ≠ oSl k p) : (s.freeze k).reg o = s.reg o :=
  freeze_keeps (P := fun u => u.reg o = s.reg o) rfl fun u v p hp hu => by rw [reg_setReg_other _ _ (h p hp), hu]

theorem freeze_role (s : State) (k j : Nat) : (s.freeze k).reg (oSl j 0x90) = s.reg (oSl j 0x90) :=
  freeze_reg fun p hp => by simp only [List.mem_cons, List.not_mem_nil, or_false] at hp; simp only [oSl]; omega

theorem freeze_block (s : State) (k : Nat) {o : Nat} (h : o < 0x100000) : (s.freeze k).reg o = s.reg o :=
  freeze_reg fun p _ => by simp only [oSl]; omega

theorem raise_reg_other (s : State) {j o : Nat} (code : Nat) (d : BitVec 64) (h : o ≠ oEvtPend (j / 64)) :
    (s.raise j code d).reg o = s.reg o := by
  have hp : (s.pendBlk j).reg o = s.reg o := reg_setFlag_other _ _ _ h
  unfold State.raise
  dsimp only
  split
  · exact hp
  · exact hp

theorem faultDue_reg_other (s : State) {o : Nat} (x c : Nat) (d : BitVec 64) (h : o ≠ oCisternStat) : (s.faultDue x c d).reg o = s.reg o :=
  reg_setFlag_other _ _ _ h

theorem faultDue_failDue (s : State) (x c : Nat) (d : BitVec 64) : (s.faultDue x c d).failDue = s.failDue := State.setFlag_failDue _ _ _ _

/-- ROLE 1 and the cause of a slice that is declared failed (R393, R394). -/
def State.markFailed (s : State) (f c : Nat) : State :=
  (((s.freeze f).setFld (oSl f 0x90) 0 2 1).setFld (oSl f 0x90) 2 4 c).setFld (oSl f 0x90) 6 1 0

theorem markFailed_same (s : State) (f c : Nat) : s.SameButRegs (s.markFailed f c) :=
  (freeze_same s f).trans ((setFld_same _ _ _ _ _).trans ((setFld_same _ _ _ _ _).trans (setFld_same _ _ _ _ _)))

theorem markFailed_role (s : State) (f c : Nat) : (s.markFailed f c).fld (oSl f 0x90) 0 2 = 1 := by
  rw [State.markFailed, fld_setFld_apart _ _ _ _ _ _ _ (by omega), fld_setFld_apart _ _ _ _ _ _ _ (by omega),
    fld_setFld_same _ _ _ _ _ (by omega)]
  rfl

theorem markFailed_cause (s : State) (f : Nat) {c : Nat} (h : c < 16) : (s.markFailed f c).fld (oSl f 0x90) 2 4 = c := by
  rw [State.markFailed, fld_setFld_apart _ _ _ _ _ _ _ (by omega), fld_setFld_same _ _ _ _ _ (by omega)]
  exact Nat.mod_eq_of_lt h

theorem markFailed_block (s : State) (f c : Nat) {o : Nat} (h : o < 0x100000) : (s.markFailed f c).reg o = s.reg o := by
  have ho : o ≠ oSl f 0x90 := by simp only [oSl]; omega
  rw [State.markFailed, reg_setFld_other _ _ _ _ ho, reg_setFld_other _ _ _ _ ho, reg_setFld_other _ _ _ _ ho, freeze_block s f h]

theorem pairLost_congr {s t : State} (h : t.reg oTakeover = s.reg oTakeover) (f : Nat) : t.pairLost f = s.pairLost f := flag_congr h _

theorem buddy_ne (f : Nat) : buddy f ≠ f := fun h => by simpa [buddy] using congrArg (· ^^^ f) h

/-- The buddy serves, and its journal serves a takeover: the takeover starts (R396, R398). -/
theorem declareFailed_takeover {s : State} {f : Nat} (c now : Nat) (hf : s.sliceFailed f = false) (hp : s.pairLost f = false)
    (hb : s.sliceFailed (buddy f) = false) (hj : s.journalUnfit f = false) :
    ∃ g : Slice → Slice, (∀ x, (g x).tk.active = true ∧ (g x).tk.frame0 = now) ∧
      s.declareFailed f c now = ((s.markFailed f c).setFld (oSl (buddy f) 0x90) 0 2 2).updSl f g := by
  simp only [State.declareFailed, hf, hp, hb, hj, Bool.false_eq_true, Bool.or_self, if_false]
  exact ⟨_, fun _ => ⟨rfl, rfl⟩, rfl⟩

/-- The pair is lost otherwise (R396): its bit, the fatal event, and a fault record. -/
theorem declareFailed_lost {s : State} {f : Nat} (c now : Nat) (hf : s.sliceFailed f = false) (hp : s.pairLost f = false)
    (hb : s.sliceFailed (buddy f) = true ∨ s.journalUnfit f = true) :
    s.declareFailed f c now = (((((s.markFailed f c).freeze f).freeze (buddy f)).setFlag oTakeover (16 + f / 2) true).raise 29 c
      (BitVec.ofNat 64 f)).faultDue (1152 + 29) c (BitVec.ofNat 64 f) := by
  have hl : (s.sliceFailed (buddy f) || s.journalUnfit f) = true := by simpa using hb
  have hm : (s.markFailed f c).pairLost f = false := by
    rw [pairLost_congr (markFailed_block s f c (by decide)), hp]
  unfold State.declareFailed
  simp only [hf, hp, hl, Bool.false_eq_true, if_false, if_true]
  exact (if_neg (by rw [hm]; exact Bool.false_ne_true) : State.losePair (s.markFailed f c) f c = _)

theorem failEdge_single {s : State} {f c : Nat} (h : s.failDue = [(f, c)]) :
    s.failEdge = State.declareFailed { s with failDue := [] } f c (s.frame + 1) := by
  rw [State.failEdge, h]; rfl

/-- What the map epoch leaves when one slice's range goes elsewhere (R42, R480). -/
theorem mapSwitch_reads {s : State} {f k : Nat} (h : s.routers.mapDue = [(f, k)]) (hne : f ≠ k) (hf : f < 16) (hk : k < 16) :
    s.mapSwitch.phys f = k ∧ (∀ g, g < 16 → g ≠ f → s.mapSwitch.phys g = s.phys g) ∧ s.mapSwitch.routers.mapDue = [] ∧
      s.mapSwitch.fld oNetStatus 32 8 = (s.fld oNetStatus 32 8 + 1) % 256 ∧ s.mapSwitch.flag oNetStatus f = true := by
  obtain ⟨n, hn, hm⟩ := mapSwitch_single h hne
  have hmap : oMap ≠ oNetStatus := by decide
  have hphys (g : Nat) : s.mapSwitch.phys g =
      ((s.setFld oNetStatus 32 8 ((s.fld oNetStatus 32 8 + 1) % 256)).setFld oMap (4 * f) 4 k).fld oMap (4 * g) 4 := by
    rw [hm]
    exact fld_congr ((reg_setFlag_other _ _ _ hmap).trans (reg_setFlag_other _ _ _ hmap)) _ _
  refine ⟨?_, fun g hg hgf => ?_, by rw [hm]; exact hn, ?_, ?_⟩
  · rw [hphys, fld_setFld_same _ _ _ _ _ (by omega)]
    exact Nat.mod_eq_of_lt hk
  · rw [hphys, fld_setFld_apart _ _ _ _ _ _ _ (by omega), fld_setFld_other _ _ _ _ _ _ hmap]
    rfl
  · rw [hm]
    refine (fld_setFlag_apart _ _ _ _ _ _ (by omega)).trans ((fld_setFlag_apart _ _ _ _ _ _ (by omega)).trans ?_)
    rw [fld_setFld_other _ _ _ _ _ _ hmap.symm, fld_setFld_same _ _ _ _ _ (by omega)]
    exact Nat.mod_mod _ _
  · rw [hm]
    exact (flag_setFlag_apart _ _ _ _ _ (by omega)).trans (flag_setFlag_same _ _ _ _ (by omega))

/-- A slice that is declared failed with its pair intact: ROLE 1 and its cause, whatever becomes of the pair (R393, R394). -/
theorem declareFailed_reads {s : State} {f c : Nat} (now : Nat) (hf : s.sliceFailed f = false) (hp : s.pairLost f = false) :
    (s.declareFailed f c now).reg (oSl f 0x90) = (s.markFailed f c).reg (oSl f 0x90) ∧ (s.declareFailed f c now).failDue = s.failDue := by
  obtain ⟨r, m, hz⟩ := markFailed_same s f c
  by_cases hb : s.sliceFailed (buddy f) = true ∨ s.journalUnfit f = true
  · rw [declareFailed_lost c now hf hp hb]
    have ht : oSl f 0x90 ≠ oTakeover := by simp only [oTakeover, oSl]; omega
    have he : oSl f 0x90 ≠ oEvtPend (29 / 64) := by simp only [oEvtPend, oSl]; omega
    have hc : oSl f 0x90 ≠ oCisternStat := by simp only [oCisternStat, oSl]; omega
    constructor
    · rw [faultDue_reg_other _ _ _ _ hc, raise_reg_other _ _ _ he, reg_setFlag_other _ _ _ ht, freeze_role, freeze_role]
    · obtain ⟨r, m, h⟩ := (markFailed_same s f c).trans ((freeze_same _ f).trans ((freeze_same _ (buddy f)).trans
        (setFlag_same _ oTakeover (16 + f / 2) true)))
      obtain ⟨r', m', l, n, hr⟩ := raise_same ((((s.markFailed f c).freeze f).freeze (buddy f)).setFlag oTakeover (16 + f / 2) true) 29 c
        (BitVec.ofNat 64 f)
      rw [faultDue_failDue, hr, h]
  · obtain ⟨hb, hj⟩ : s.sliceFailed (buddy f) = false ∧ s.journalUnfit f = false := by simpa [not_or] using hb
    obtain ⟨g, -, h⟩ := declareFailed_takeover c now hf hp hb hj
    have ho : oSl f 0x90 ≠ oSl (buddy f) 0x90 := fun h => buddy_ne f (by simp only [oSl] at h; omega)
    constructor
    · rw [h, State.updSl_reg, reg_setFld_other _ _ _ _ ho]
    · rw [h, State.updSl_failDue, State.setFld_failDue, hz]

/-- The takeover starts in the frame that begins (R398). -/
theorem declareFailed_starts {s : State} {f : Nat} (c now : Nat) (hf : s.sliceFailed f = false) (hp : s.pairLost f = false)
    (hb : s.sliceFailed (buddy f) = false) (hj : s.journalUnfit f = false) :
    (s.declareFailed f c now).role (buddy f) = 2 ∧ ((s.declareFailed f c now).sl f).tk.active = true ∧
      ((s.declareFailed f c now).sl f).tk.frame0 = now ∧ (s.declareFailed f c now).pairLost f = false := by
  obtain ⟨g, hg, hd⟩ := declareFailed_takeover c now hf hp hb hj
  have ho : oTakeover ≠ oSl (buddy f) 0x90 := by simp only [oTakeover, oSl]; omega
  rw [hd]
  refine ⟨?_, ?_, ?_, ?_⟩
  · rw [State.role, State.updSl_fld, fld_setFld_same _ _ _ _ _ (by omega)]
    rfl
  · rw [State.updSl_sl_same]; exact (hg _).1
  · rw [State.updSl_sl_same]; exact (hg _).2
  · rw [State.pairLost, State.updSl_flag, flag_congr (reg_setFld_other _ _ _ _ ho), flag_congr (markFailed_block s f c (by decide))]
    exact hp

/-- The pair is lost, and its fatal event raised (R396). -/
theorem declareFailed_loses {s : State} {f : Nat} (c now : Nat) (h16 : f < 16) (hf : s.sliceFailed f = false) (hp : s.pairLost f = false)
    (hb : s.sliceFailed (buddy f) = true ∨ s.journalUnfit f = true) :
    (s.declareFailed f c now).pairLost f = true ∧ (s.declareFailed f c now).flag (oEvtPend 0) 29 = true := by
  rw [declareFailed_lost c now hf hp hb]
  constructor
  · rw [State.pairLost, flag_congr (faultDue_reg_other _ _ _ _ (by decide)), flag_congr (raise_reg_other _ _ _ (by decide)),
      flag_setFlag_same _ _ _ _ (by omega)]
  · rw [flag_congr (faultDue_reg_other _ _ _ _ (by decide))]
    exact raise_flag _ 29 _ _

theorem sliceFailed_congr {s t : State} {k : Nat} (h : t.reg (oSl k 0x90) = s.reg (oSl k 0x90)) : t.sliceFailed k = s.sliceFailed k := by
  rw [State.sliceFailed, State.sliceFailed, State.role, State.role, fld_congr h]

theorem journalUnfit_congr {s t : State} (hr : ∀ o, t.reg o = s.reg o) (hs : ∀ k, t.sl k = s.sl k) (f : Nat) :
    t.journalUnfit f = s.journalUnfit f := by
  simp only [State.journalUnfit, flag_congr (hr _), hs]

theorem failEdge_reads {s : State} {f c : Nat} (h : s.failDue = [(f, c)]) (hf : f < 16) (hc : c < 16) (hs : s.sliceFailed f = false)
    (hp : s.pairLost f = false) :
    s.failEdge.sliceFailed f = true ∧ s.failEdge.fld (oSl f 0x90) 2 4 = c ∧ s.failEdge.failDue = [] ∧
      (s.sliceFailed (buddy f) = false → s.journalUnfit f = false →
        s.failEdge.role (buddy f) = 2 ∧ (s.failEdge.sl f).tk.active = true ∧ (s.failEdge.sl f).tk.frame0 = s.frame + 1 ∧
        s.failEdge.pairLost f = false) ∧
      (s.sliceFailed (buddy f) = true ∨ s.journalUnfit f = true →
        s.failEdge.pairLost f = true ∧ s.failEdge.flag (oEvtPend 0) 29 = true) := by
  rw [failEdge_single h]
  generalize hu : ({ s with failDue := [] } : State) = u
  have hreg (o : Nat) : u.reg o = s.reg o := by rw [← hu]; rfl
  have hsl (k : Nat) : u.sl k = s.sl k := by rw [← hu]; rfl
  have hd : u.failDue = [] := by rw [← hu]
  have hfail (k : Nat) : u.sliceFailed k = s.sliceFailed k := sliceFailed_congr (hreg _)
  rw [← pairLost_congr (hreg _)] at hp
  simp only [← hfail, ← journalUnfit_congr hreg hsl] at hs ⊢
  obtain ⟨hrole, hdue⟩ := declareFailed_reads (c := c) (s.frame + 1) hs hp
  refine ⟨?_, (fld_congr hrole _ _).trans (markFailed_cause _ _ hc), hdue.trans hd,
    declareFailed_starts _ _ hs hp, declareFailed_loses _ _ hf hs hp⟩
  rw [State.sliceFailed, State.role, fld_congr hrole, markFailed_role]; rfl

/-- Settles O33: the edge is what its definition composes; of each part its lemma above. -/
theorem frameEdgeBeginsTheNextFrame : Obligations.FrameEdgeBeginsTheNextFrame := by
  refine ⟨fun s l hin => ?_, ⟨fun s l => rfl, fun s l => rfl, fun s x rest h => ?_⟩, edgeChanges_eq, fun s q x => ?_, fun s r q => rfl,
    fun s w hu => ?_, fun s f k h hne hf hk => mapSwitch_reads h hne hf hk, fun s f c h hf hc hs hp => failEdge_reads h hf hc hs hp,
    fun s => ⟨rfl, rfl, fun v hv => ?_⟩⟩
  · have h := exec_frameEdge l hin
    rw [edge_eq] at h
    exact ⟨h, _, h, rfl, rfl, rfl, rfl, hin, rfl, rfl, begun_slots s _ l⟩
  · rw [State.lapseAll, h]; rfl
  · refine ⟨?_, ?_, fun w hx => ?_, fun i v hx => ?_⟩
    · rw [applyEdge_append]; cases x <;> rfl
    · rw [applyLog_append]; cases x <;> rfl
    · subst hx; simp [EdgeOp.toLog]
    · subst hx; rfl
  · obtain ⟨c, hc⟩ := seeding_form s w
    exact ⟨by rw [hc], by rw [hc], applyWrite_open hu, applyWrite_dead hu⟩
  · exact (getLsbD_vectors _ _ hv).trans (by simp)

/-! ## The expiries of waits -/

theorem waitOf_names {x : Txn} {k : WaitKind} {a j : Nat} {w : Wait} (h : x.waitOf k a j = some w) : w.kind = k ∧ w.agent = a ∧ w.j = j := by
  simpa [and_assoc] using List.find?_some h

theorem waitDue_some {s : State} {h t a j : Nat} {k : WaitKind} {w : Wait} (hw : (s.txn h t).waitOf k a j = some w) (hd : w.due s.frame = true)
    (hc : w.count < 3) (ho : s.tagOpen h t = true) (hl : ∀ l ∈ s.late, l.ends (s.txn h t) h t a j k = false) :
    s.waitDue h t a j k = some w := by
  have hany : (s.late.any fun l => l.ends (s.txn h t) h t a j k) = false := List.any_eq_false.mpr fun l hl' => by simp [hl l hl']
  simp [State.waitDue, hw, hd, hc, ho, hany]

/-- The answer has come in time and waits for room for its record (R14, R388). -/
theorem waitDue_none {s : State} {h t a j : Nat} {k : WaitKind} (hl : ∃ l ∈ s.late, l.ends (s.txn h t) h t a j k = true) :
    s.waitDue h t a j k = none := by
  have hany : (s.late.any fun l => l.ends (s.txn h t) h t a j k) = true := List.any_eq_true.mpr hl
  simp [State.waitDue, hany]

/-- An expiry row of a wait at its end: the timer is noted, and at the end of the frame it does what `expire` does; or the wait's answer has
come, and nothing changes. -/
theorem expiryRow_reads {s r : State} {h t a j : Nat} {p : Bool} {k : WaitKind} {w : Wait} (hin : s.inReset = false) (hh : h < s.nSlices)
    (ht : t < 1024) (hp : p = true) (ho : s.tagOpen h t = true) (hd : w.due s.frame = true) (hc : w.count < 3)
    (hw : (s.txn h t).waitOf k a j = some w) (hr : s.waitDue h t a j k = some w → s.expire (.wait h t a j k) = r) :
    ((∀ l ∈ s.late, l.ends (s.txn h t) h t a j k = false) →
      s.expiryRow h t p a j k = .next (s.held (s.expireAt (.wait h t a j k))) ∧ s.expire (.wait h t a j k) = r) ∧
    ((∃ l ∈ s.late, l.ends (s.txn h t) h t a j k = true) → s.expiryRow h t p a j k = .next s ∧ s.expire (.wait h t a j k) = s) := by
  have hg : (decide (h < s.nSlices) && decide (t < 1024) && p) = true := by simp [hh, ht, hp]
  refine ⟨fun hl => ?_, fun hl => ?_⟩
  · have hdue := waitDue_some hw hd hc ho hl
    exact ⟨row_due hin hg (by rw [hdue]; rfl), hr hdue⟩
  · have hnone := waitDue_none hl
    constructor
    · rw [State.expiryRow, need_of hg, hnone]
      exact live_next hin s
    · simp [State.expire, hnone]

/-- Two expiries at most have gone before: the wait starts again, and its work is planned (R165). -/
theorem waitAgain_eq {s : State} {h t : Nat} {w : Wait} {c : Act} (hc : w.count < 2) :
    s.waitAgain h t w c = ((s.upd h t fun x => x.reWait w { w with
      start := s.frame + 1, len := s.snoopContract w.agent, count := w.count + 1 }).countExpiry w.agent false).plan (s.frame + 1) h t c := by
  have h2 : ¬ w.count = 2 := by omega
  simp [State.waitAgain, h2]

theorem countExpiry_reads (s : State) (a : Nat) (b : Bool) :
    (s.countExpiry a b).fld (oAg a 0x10) 8 16 = min (s.fld (oAg a 0x10) 8 16 + 1) (2 ^ 16 - 1) ∧ ((s.countExpiry a b).ag a).expired = true ∧
      (b = true → 7 ∈ ((s.countExpiry a b).ag a).lossDue) ∧ (s.countExpiry a b).slices = s.slices ∧ (s.countExpiry a b).out = s.out := by
  refine ⟨?_, ?_, fun hb => ?_, rfl, rfl⟩
  · exact fld_incFld_same s _ 8 16 1 (by omega)
  · rw [State.countExpiry, State.updAg_ag_same]
  · rw [State.countExpiry, State.updAg_ag_same, hb]
    dsimp only
    split
    · simp
    next hc => simpa using hc

/-- What a single timer of the frame leaves: its expiry if the records fit, and otherwise the timer, for the next frame (R388). -/
theorem expireAll_single {s : State} {x : Expiry} (h : s.expired = [x]) :
    let u : State := { s with expired := [] }
    let fits := u.fits (u.isC0 x.owner.1 x.owner.2) (u.expire x)
    (fits = true → s.expireAll = u.expire x) ∧ (fits = false → x ∈ s.expireAll.expired) := by
  rw [State.expireAll, h]
  refine ⟨fun hf => ?_, fun hf => ?_⟩
  · simp only [List.foldl, hf, if_true, State.recordedFor]
  · simp only [List.foldl, hf, Bool.false_eq_true, if_false]
    exact List.mem_append_right _ (List.mem_singleton_self x)

/-- Settles O49: each row is `expiryRow`, each expiry the one that its kind of wait has. -/
theorem expiriesOfWaits : Obligations.ExpiriesOfWaits := by
  refine ⟨fun s h t a j w hin hh ht ha hj ho hd hc => ?_, countExpiry_reads, fun s h a sw w hin hh ha hs hw hd hc ho hl hn => ?_,
    fun s x hx => ?_⟩
  · have hp : (decide (a < 24) && decide (j < 4)) = true := by simp [ha, hj]
    refine ⟨fun hw => ?_, fun hw => ?_, fun hw => ?_, fun hsrc hj0 hw h2 => ?_, fun hw h2 => ?_, fun hw => ?_⟩
    · refine expiryRow_reads hin hh ht hp ho hd hc hw fun hdue => ?_
      obtain ⟨-, rfl, rfl⟩ := waitOf_names hw
      simp only [State.expire, hdue]; rfl
    · refine expiryRow_reads hin hh ht hp ho hd hc hw fun hdue => ?_
      obtain ⟨-, rfl, rfl⟩ := waitOf_names hw
      simp only [State.expire, hdue]; rfl
    · refine expiryRow_reads hin hh ht hp ho hd hc hw fun hdue => ?_
      obtain ⟨-, rfl, rfl⟩ := waitOf_names hw
      simp only [State.expire, hdue]; rfl
    · subst hsrc hj0
      refine expiryRow_reads hin hh ht rfl ho hd hc hw fun hdue => ?_
      obtain ⟨-, hag, -⟩ := waitOf_names hw
      simp only [State.expire, hdue, waitAgain_eq h2, hag]
    · refine expiryRow_reads hin hh ht hp ho hd hc hw fun hdue => ?_
      obtain ⟨-, rfl, rfl⟩ := waitOf_names hw
      simp only [State.expire, hdue, waitAgain_eq h2]
    · refine expiryRow_reads hin hh ht hp ho hd hc hw fun hdue => ?_
      obtain ⟨-, rfl, rfl⟩ := waitOf_names hw
      simp only [State.expire, hdue]; rfl
  · have hdue := waitDue_some hw hd hc ho hl
    have hx : execFlushContractExpiry h a s = .next (s.held (s.expireAt (.wait h sw.tag a 0 .range))) := by
      simp only [execFlushContractExpiry, hs, hdue]
      exact row_due hin (by simp [hh, ha]) rfl
    exact ⟨hx, by simp only [State.expire, hdue, hn]; rfl⟩
  · exact expireAll_single hx

/-! ## The flash port -/

theorem itemEnd_busy (s : State) (i : NvmItem) : (s.itemEnd i).cistern.busy = none := by cases i <;> simp [State.itemEnd]

/-- The end of an item changes of the cistern only that it is busy. -/
theorem itemEnd_cistern (s : State) (i : NvmItem) : (s.itemEnd i).cistern = { s.cistern with busy := none } := by
  cases i <;> simp [State.itemEnd]

/-- The end of an item writes at most the PENDING bits of LZ_CISTERN_STAT. -/
theorem itemEnd_fld (s : State) (i : NvmItem) : (s.itemEnd i).fld oCisternStat 44 12 = s.fld oCisternStat 44 12 := by
  cases i with
  | firmware => rfl
  | checkpoint => exact fld_setFlag_apart _ _ _ _ _ _ (by decide)
  | fault => exact fld_setFlag_apart _ _ _ _ _ _ (by decide)
  | lifetime => exact fld_setFlag_apart _ _ _ _ _ _ (by decide)

theorem raise_cistern (s : State) (j code : Nat) (d : BitVec 64) : (s.raise j code d).cistern = s.cistern := by
  obtain ⟨r, m, l, n, h⟩ := raise_same s j code d; rw [h]

/-- A committed record is the newest valid one (R550). -/
theorem recordEnd_reads (s : State) (i : NvmItem) :
    (s.recordEnd i).cistern.busy = none ∧ (s.recordEnd i).cistern.newest = some s.cistern.slot ∧
      (s.recordEnd i).cistern.seq = s.cistern.seq + 1 := by
  simp [State.recordEnd, itemEnd_cistern]

/-- The end of a firmware access: ERROR, BUSY and DONE of LZ_NVM_CTL, and its event (R554). -/
theorem fwEnd_reads (s : State) {e : Nat} (h : e < 8) :
    (s.fwEnd e).cistern.busy = none ∧ (s.fwEnd e).fld oNvm 5 3 = e ∧ (s.fwEnd e).flag oNvm 3 = false ∧ (s.fwEnd e).flag oNvm 4 = true ∧
      (s.fwEnd e).flag (oEvtPend 0) 43 = true := by
  have hreg : (s.fwEnd e).reg oNvm = (((s.setFld oNvm 5 3 e).setFlag oNvm 3 false).setFlag oNvm 4 true).reg oNvm :=
    raise_reg_other _ _ _ (by decide)
  refine ⟨?_, ?_, ?_, ?_, raise_flag _ 43 _ _⟩
  · rw [State.fwEnd, raise_cistern, itemEnd_busy]
  · rw [fld_congr hreg, fld_setFlag_apart _ _ _ _ _ _ (by omega), fld_setFlag_apart _ _ _ _ _ _ (by omega),
      fld_setFld_same _ _ _ _ _ (by omega)]
    exact Nat.mod_eq_of_lt h
  · rw [flag_congr hreg, flag_setFlag_apart _ _ _ _ _ (by omega), flag_setFlag_same _ _ _ _ (by omega)]
  · rw [flag_congr hreg, flag_setFlag_same _ _ _ _ (by omega)]

theorem flashLapse_record {s : State} {i : NvmItem} {st : FlashStep} (hb : s.cistern.busy = some (i, st)) (hi : i ≠ .firmware) :
    s.flashLapse = (((State.incFld { s with cistern := { s.cistern with skipTo := some ((s.cistern.slot + 1) % 256) } }
      oCisternStat 44 12 1).itemEnd i).raise 40 0 (BitVec.ofNat 64 s.cistern.slot)) := by
  unfold State.flashLapse
  rw [hb]
  cases i with
  | firmware => exact absurd rfl hi
  | checkpoint | fault | lifetime => rfl

/-- A record whose operation does not finish is given up: the next slot, the event, and the count (R551). -/
theorem flashLapse_reads {s : State} {i : NvmItem} {st : FlashStep} (hb : s.cistern.busy = some (i, st)) (hi : i ≠ .firmware) :
    s.flashLapse.cistern.busy = none ∧ s.flashLapse.cistern.skipTo = some ((s.cistern.slot + 1) % 256) ∧
      s.flashLapse.flag (oEvtPend 0) 40 = true ∧
      s.flashLapse.fld oCisternStat 44 12 = min (s.fld oCisternStat 44 12 + 1) (2 ^ 12 - 1) := by
  rw [flashLapse_record hb hi]
  refine ⟨?_, ?_, raise_flag _ 40 _ _, ?_⟩
  · rw [raise_cistern, itemEnd_busy]
  · rw [raise_cistern, itemEnd_cistern]; rfl
  · rw [fld_congr (raise_reg_other _ _ _ (by decide)), itemEnd_fld, fld_incFld_same _ _ _ _ _ (by omega)]
    rfl

/-- In service the block sends what the step of the item in progress sends. -/
theorem flashCmds_service {s : State} {i : NvmItem} {st : FlashStep} (hin : s.inReset = false) (h8 : s.phase = 8)
    (hb : s.cistern.busy = some (i, st)) : s.flashCmds = s.stepCmds st := by
  simp [State.flashCmds, hin, h8, hb]

/-- Below the cistern the copy whose settings an access uses is the one that the address lies in (R498). -/
theorem copyAt_image (s : State) {addr : Nat} (h : addr < 0x800000) : s.copyAt addr = decide (0x400000 ≤ addr) := by
  unfold State.copyAt
  by_cases hl : addr < 0x400000
  · have hn : ¬ 0x400000 ≤ addr := by omega
    simp [hl, hn]
  · have hn : 0x400000 ≤ addr := by omega
    simp [hl, hn, h]

/-- Settles O59: the rows of the port, `fwEnd`, `flashLapse` and the commands of a step. -/
theorem flashPort : Obligations.FlashPort := by
  intro s hin
  refine ⟨fun i hr hb hn => ?_, fun i d hb => ?_, fun i p d hb => ?_, fun i d hb => ?_, fun i d hb => ?_, fun i d hb => ?_, fun i d hb => ?_,
    fun e he => fwEnd_reads s he, fun i st hb hg hd => ⟨?_, ?_⟩, fun i h8 => ?_, fun addr n ha => ?_⟩
  · change execNvmItemStart s = _
    simp only [execNvmItemStart, hb, hn, hr, when'_true, live_next hin]; rfl
  · change execFlashOpComplete d s = _
    simp only [execFlashOpComplete, hb, live_next hin]; rfl
  · change execFlashOpComplete d s = _
    simp only [execFlashOpComplete, hb, live_next hin]; rfl
  · refine ⟨s.held (s.recordEnd i), ?_, recordEnd_reads s i⟩
    change execFlashOpComplete d s = _
    simp only [execFlashOpComplete, hb, live_next hin]
  · change execFlashOpComplete d s = _
    rcases hb with hb | hb <;> simp only [execFlashOpComplete, hb, live_next hin]
  · change execFlashOpComplete d s = _
    simp only [execFlashOpComplete, hb, live_next hin]
  · change execFlashOpComplete d s = _
    simp only [execFlashOpComplete, hb, live_next hin]
  · have hl : s.flashLate = true := by simp [State.flashLate, hb, hg, hd]
    exact (live_due hin hl).trans (by rw [held_lapseAt])
  · have hl : s.flashLate = true := by simp [State.flashLate, hb, hg, hd]
    have hx : s.lapse .flash = s.flashLapse := if_pos hl
    rw [hx]
    refine ⟨fun hi => flashLapse_reads hb hi, fun hi => ?_⟩
    subst hi
    simp only [State.flashLapse, hb]
  · have hcmd {st : FlashStep} (hb : s.cistern.busy = some (i, st)) := flashCmds_service hin h8 hb
    exact ⟨fun hb => hcmd hb, fun p hb => hcmd hb, fun hb => hcmd hb, fun hb => hcmd hb, fun hb => hcmd hb⟩
  · have hc := copyAt_image s ha
    exact ⟨fun h1 => by simp only [State.readCmd, hc, h1, if_true]; rfl, fun h1 => by simp only [State.readCmd, hc, h1, if_false]; rfl⟩

end Sys2Proof.Machine
end

section
/-! SUPPORT. The statements about messages at the ports: which message an ingress check discards, and how a request that passes them
enters the block or is completed by its port. -/

namespace Sys2Proof.Machine

/-! ## The rows of requests and responses -/

/-- Every request but `WbDirty` has the shared row of the ports. -/
theorem exec_row_request {op : ReqOp} (h : op ≠ .wbDirty) (a : Arrival) (s : State) : exec (op.row a) s = requestRow op a s := by
  cases op with
  | wbDirty => exact absurd rfl h
  | _ => rfl

theorem exec_row_response (op : RspOp) (a : Arrival) (s : State) : exec (op.row a) s = respondRow op a s := by
  cases op <;> rfl

/-! ## Messages that fail an ingress check (R33, R34) -/

/-- Raising a source with its pair of entries sets its pending bit (R535). -/
theorem raisePair_flag (s : State) (j code : Nat) (f : Flit) : (s.raisePair j code f).flag (oEvtPend (j / 64)) (j % 64) = true := by
  have hp : (s.pendBlk j).flag (oEvtPend (j / 64)) (j % 64) = true := flag_setFlag_same _ _ _ _ (by omega)
  unfold State.raisePair
  dsimp only
  split
  · exact hp
  · exact hp

section
variable {s : State} {a : Arrival} (hin : s.inReset = false) (hr : s.ready = true) (hl : a.lane < 24) (hc : s.ingress a ≠ 0)
include hin hr hl hc

theorem requestRow_of_ingress_ne_zero {op : ReqOp} (ho : hOp (headOf a.flits) = op.code) (hs : s.laneStopped a.lane = false) :
    requestRow op a s = .next (s.held (s.malformed a.lane (s.ingress a) (headOf a.flits))) := by
  obtain ⟨n, hn⟩ := Nat.exists_eq_succ_of_ne_zero hc
  simp [requestRow, live_next hin, hl, ho, hs, hn, State.inService, hin, hr]

theorem execWbDirty_of_ingress_ne_zero (ho : hOp (headOf a.flits) = ReqOp.wbDirty.code) :
    execWbDirty a s = .next (s.held (s.malformed a.lane (s.ingress a) (headOf a.flits))) := by
  obtain ⟨n, hn⟩ := Nat.exists_eq_succ_of_ne_zero hc
  simp [execWbDirty, live_next hin, hl, ho, hn, State.inService, hin, hr]

theorem respondRow_of_ingress_ne_zero {op : RspOp} (ho : hOp (headOf a.flits) = op.code) :
    respondRow op a s = .next (s.held (s.malformed a.lane (s.ingress a) (headOf a.flits))) := by
  obtain ⟨n, hn⟩ := Nat.exists_eq_succ_of_ne_zero hc
  simp [respondRow, State.refused, live_next hin, hl, ho, hn, State.inService, hin, hr]

end

/-- Settles O38: the rows of the ports end in `malformed` at the first check that fails, and raising its event changes only registers
and the log. -/
theorem failedCheckDiscardsTheMessage : Obligations.FailedCheckDiscardsTheMessage := by
  refine ⟨fun s op a hin hr hl ho hs hc => ?_, fun s op a hin hr hl ho hc => ?_, fun s j code f _ => ⟨raisePair_flag s j code f, ?_⟩⟩
  · by_cases hw : op = .wbDirty
    · subst hw
      exact execWbDirty_of_ingress_ne_zero hin hr hl hc ho
    · exact (exec_row_request hw a s).trans (requestRow_of_ingress_ne_zero hin hr hl hc ho hs)
  · exact (exec_row_response op a s).trans (respondRow_of_ingress_ne_zero hin hr hl hc ho)
  · obtain ⟨r, m, l, n, h⟩ := raisePair_same s j code f
    rw [h]
    exact ⟨rfl, rfl, rfl⟩

/-! ## The streaming detector touches one register and the agent's run (R319) -/

/-- Everything the detector can leave: the state, or a run stored and its agent's entry updated, with a marked claim counted or not. -/
theorem detect_cases (s : State) (r : Req) :
    (s.detect r).2 = s ∨ ∃ run f,
      (s.detect r).2 = ((s.setFld (oAg r.src 0x28) 0 8 run).updAg r.src f).incFld (oAg r.src 0x28) 16 15 1 ∨
      (s.detect r).2 = (s.setFld (oAg r.src 0x28) 0 8 run).updAg r.src f := by
  unfold State.detect
  split
  · exact .inr ⟨_, _, ite_eq_or_eq _ _ _⟩
  · exact .inl rfl

theorem detect_form (s : State) (r : Req) : ∃ g m ags, (s.detect r).2 = { s with regs := g, marks := m, agents := ags } := by
  rcases detect_cases s r with h | ⟨run, f, h⟩
  · exact ⟨s.regs, s.marks, s.agents, h⟩
  · obtain ⟨g, m, hs⟩ := setFld_same s (oAg r.src 0x28) 0 8 run
    rw [hs] at h
    rcases h with h | h
    · obtain ⟨g', m', hi⟩ := incFld_same (State.updAg { s with regs := g, marks := m } r.src f) (oAg r.src 0x28) 16 15 1
      exact ⟨g', m', _, h.trans hi⟩
    · exact ⟨g, m, _, h⟩

theorem detect_reg_other (s : State) {r : Req} {o : Nat} (h : o ≠ oAg r.src 0x28) : (s.detect r).2.reg o = s.reg o := by
  have hu (run : Nat) (f : Agent → Agent) : ((s.setFld (oAg r.src 0x28) 0 8 run).updAg r.src f).reg o = s.reg o := by
    rw [State.updAg_reg, reg_setFld_other _ _ _ _ h]
  rcases detect_cases s r with hd | ⟨run, f, hd | hd⟩
  · rw [hd]
  · rw [hd, reg_incFld_other _ _ _ _ h, hu]
  · rw [hd, hu]

/-- The registers below the agent table are left alone. -/
theorem detect_reg_block (s : State) (r : Req) {o : Nat} (h : o < 0x24000) : (s.detect r).2.reg o = s.reg o :=
  detect_reg_other s (by simp only [oAg]; omega)

@[simp] theorem detect_fusing (s : State) (r : Req) : (s.detect r).2.fusing = s.fusing := by
  obtain ⟨g, m, ags, h⟩ := detect_form s r; rw [h]
@[simp] theorem detect_frame (s : State) (r : Req) : (s.detect r).2.frame = s.frame := by
  obtain ⟨g, m, ags, h⟩ := detect_form s r; rw [h]
@[simp] theorem detect_packets (s : State) (r : Req) : (s.detect r).2.packets = s.packets := by
  obtain ⟨g, m, ags, h⟩ := detect_form s r; rw [h]
@[simp] theorem detect_net (s : State) (r : Req) : (s.detect r).2.net = s.net := by
  obtain ⟨g, m, ags, h⟩ := detect_form s r; rw [h]
@[simp] theorem detect_out (s : State) (r : Req) : (s.detect r).2.out = s.out := by
  obtain ⟨g, m, ags, h⟩ := detect_form s r; rw [h]
@[simp] theorem detect_slices (s : State) (r : Req) : (s.detect r).2.slices = s.slices := by
  obtain ⟨g, m, ags, h⟩ := detect_form s r; rw [h]
@[simp] theorem detect_pool (s : State) (r : Req) (l h : Nat) (c0 : Bool) : (s.detect r).2.pool l h c0 = s.pool l h c0 := by
  obtain ⟨g, m, ags, e⟩ := detect_form s r; rw [e]; rfl
@[simp] theorem detect_lane (s : State) (r : Req) (l : Nat) : (s.detect r).2.lane l = s.lane l := by
  obtain ⟨g, m, ags, h⟩ := detect_form s r; rw [h]; rfl

/-! ## The registers that route a request (R36, R40, R43, R46) -/

section
variable {s t : State} (hf : t.fusing = s.fusing) (hr : ∀ o, o < 0x24000 → t.reg o = s.reg o)
include hr

theorem phys_congr (h : Nat) : t.phys h = s.phys h := fld_congr (hr oMap (by decide)) _ _

theorem routeOf_congr (a : WireAddr) : t.routeOf a = s.routeOf a := by
  unfold State.routeOf
  refine List.find?_congr fun n hn => ?_
  have hn : n < 16 := List.mem_range.mp hn
  rw [hr (oRoute n) (by simp only [oRoute]; omega)]

include hf

theorem unhomed_congr (r : Req) : t.unhomed r = s.unhomed r := by
  have hb : t.nBits = s.nBits := by simp only [State.nBits, hf]
  simp only [State.unhomed, State.homed, hb, routeOf_congr hr]

theorem hash_congr (a : WireAddr) : t.hash a = s.hash a := by
  have hb : t.nBits = s.nBits := by simp only [State.nBits, hf]
  have hm (n : Nat) (h : n < 4) : t.reg (oMask n) = s.reg (oMask n) := hr _ (by simp only [oMask]; omega)
  simp only [State.hash, hb, hm 0 (by decide), hm 1 (by decide), hm 2 (by decide), hm 3 (by decide)]

theorem homeOf_congr (r : Req) : t.homeOf r = s.homeOf r := by
  have hn : t.nSlices = s.nSlices := by simp only [State.nSlices, hf]
  simp only [State.homeOf, hn, hash_congr hf hr]

end

/-- The map of slices is not the detector's. -/
@[simp] theorem detect_phys (s : State) (r : Req) (h : Nat) : (s.detect r).2.phys h = s.phys h :=
  phys_congr (fun _ ho => detect_reg_block s r ho) h

/-! ## Credits (R291, R292) -/

section
variable (s : State) (l h : Nat) (c0 : Bool) (d : Int)

@[simp] theorem addCredit_fusing : (s.addCredit l h c0 d).fusing = s.fusing := rfl
@[simp] theorem addCredit_frame : (s.addCredit l h c0 d).frame = s.frame := rfl
@[simp] theorem addCredit_packets : (s.addCredit l h c0 d).packets = s.packets := rfl
@[simp] theorem addCredit_net : (s.addCredit l h c0 d).net = s.net := rfl
@[simp] theorem addCredit_out : (s.addCredit l h c0 d).out = s.out := rfl
@[simp] theorem addCredit_slices : (s.addCredit l h c0 d).slices = s.slices := rfl
@[simp] theorem addCredit_reg (o : Nat) : (s.addCredit l h c0 d).reg o = s.reg o := rfl
@[simp] theorem addCredit_phys (k : Nat) : (s.addCredit l h c0 d).phys k = s.phys k := rfl

@[simp] theorem pool_addCredit : (s.addCredit l h c0 d).pool l h c0 = s.pool l h c0 + d := by
  cases c0 <;> simp [State.addCredit, State.pool, State.laneC0, State.laneGen]

end

section
variable (s : State) (n : NetReq)

@[simp] theorem injectReq_fusing : (s.injectReq n).fusing = s.fusing := rfl
@[simp] theorem injectReq_packets : (s.injectReq n).packets = s.packets + 1 := rfl
@[simp] theorem injectReq_net :
    (s.injectReq n).net = s.net ++ [{ n with dest := s.phys n.home, id := s.packets, req := { n.req with arrival := s.frame } }] := rfl
@[simp] theorem injectReq_out : (s.injectReq n).out = s.out := rfl
@[simp] theorem injectReq_slices : (s.injectReq n).slices = s.slices := rfl
@[simp] theorem injectReq_reg (o : Nat) : (s.injectReq n).reg o = s.reg o := rfl

end

/-- A pool with a credit and nobody waiting needs no wait queue. -/
theorem queueFull_of_poolFree {s : State} {r : Req} (h : s.PoolFree r.lane (s.homeOf r) (decide (r.cls = 0))) : s.queueFull r = false := by
  by_cases hc : r.cls = 0
  · obtain ⟨hp, hw⟩ : 0 < s.laneC0 r.lane (s.homeOf r) ∧ (s.lane r.lane).waitC0 = [] := by simpa [State.PoolFree, hc] using h
    simp [State.queueFull, hc, hw]
  · obtain ⟨hp, hw⟩ : 0 < s.laneGen r.lane (s.homeOf r) ∧ (s.lane r.lane).waitGen = [] := by simpa [State.PoolFree, hc] using h
    simp [State.queueFull, hc, hw]

/-- It gives its credit to the request, which is injected at once. -/
theorem inject_of_poolFree {s : State} {r : Req} (h : s.PoolFree r.lane (s.homeOf r) (decide (r.cls = 0))) :
    s.inject r = (s.addCredit r.lane (s.homeOf r) (decide (r.cls = 0)) (-1)).injectReq
      { dest := s.phys (s.homeOf r), home := s.homeOf r, req := r } := by
  by_cases hc : r.cls = 0
  · obtain ⟨hp, hw⟩ : 0 < s.laneC0 r.lane (s.homeOf r) ∧ (s.lane r.lane).waitC0 = [] := by simpa [State.PoolFree, hc] using h
    simp [State.inject, hc, hp, hw]
  · obtain ⟨hp, hw⟩ : 0 < s.laneGen r.lane (s.homeOf r) ∧ (s.lane r.lane).waitGen = [] := by simpa [State.PoolFree, hc] using h
    simp [State.inject, hc, hp, hw]

/-- A request of a wait queue leaves it once its pool has a credit and none before it for the same slice waits on (R292). -/
theorem injectFrom_of_credit {s : State} {l : Nat} {c0 : Bool} {n : NetReq} {kept : List NetReq} (rest : List NetReq)
    (hp : 0 < s.pool l n.home c0) (hk : (kept.any fun m => m.home == n.home) = false) :
    injectFrom s l c0 (n :: rest) kept = injectFrom ((s.addCredit l n.home c0 (-1)).injectReq n) l c0 rest kept := by
  cases c0
  · have hp : 0 < s.laneGen l n.home := hp
    simp [injectFrom, hp, hk]
  · have hp : 0 < s.laneC0 l n.home := hp
    simp [injectFrom, hp, hk]

/-! ## A request that passes its port -/

/-- The completion is sent; beside it only registers and the log change (R47). -/
theorem completeUnhomed_form (s : State) (r : Req) : ∃ g m l n, s.completeUnhomed r =
    { s.send (s.frame + 1) (portOf r.nc r.src) (.cmp (unhomedCmp r)) with regs := g, marks := m, ring := l, logNew := n } :=
  raise_same _ _ _ _

/-- The event of an unhomed address is pending (R50). -/
theorem completeUnhomed_flag (s : State) (r : Req) : (s.completeUnhomed r).flag (oEvtPend 0) 20 = true := raise_flag _ 20 _ _

theorem State.Enters.closedAgent_none {s : State} {op : ReqOp} {a : Arrival} (h : s.Enters op a) (k : Nat) :
    (if isNcLane a.lane then none else s.closedAgent a (parseReq op a s.frame).src k) = none := by
  rcases h.opened with hn | ht
  · exact if_pos hn
  · simp [State.closedAgent, ht]

/-- The lane takes it, or stops with it. -/
theorem State.Enters.exec_row {s : State} {op : ReqOp} {a : Arrival} (h : s.Enters op a) (hw : op ≠ .wbDirty) :
    exec (op.row a) s = .next (s.held (s.offerRequest (parseReq op a s.frame))) := by
  obtain ⟨hin, hr⟩ := h.serves
  rw [exec_row_request hw]
  simp [requestRow, live_next hin, h.lane, h.opcode, h.taken, h.passes, h.closedAgent_none, State.inService, hin, hr]

section
variable {s : State} {r : Req} (h1 : r.op ≠ .wrStream) (h2 : r.op ≠ .fence)
include h1 h2

/-- An unhomed request is completed after it has met the detector (R47, log entry 23). -/
theorem offerRequest_unhomed (hu : s.unhomed r = true) : s.offerRequest r = (s.detect r).2.completeUnhomed r := by
  have hd : (s.detect r).2.unhomed r = true := (unhomed_congr (detect_fusing s r) (fun _ h => detect_reg_block s r h) r).trans hu
  simp [State.offerRequest, State.takeRequest, h1, h2, hu, hd]

/-- A homed request whose pool has a credit is injected with the detector's mark (R292, R319). -/
theorem offerRequest_injected (hu : s.unhomed r = false) (hp : s.PoolFree r.lane (s.homeOf r) (decide (r.cls = 0))) :
    s.offerRequest r = ((s.detect r).2.addCredit r.lane (s.homeOf r) (decide (r.cls = 0)) (-1)).injectReq
      { dest := s.phys (s.homeOf r), home := s.homeOf r, req := { r with marked := (s.detect r).1 } } := by
  have hreg (o : Nat) (h : o < 0x24000) : (s.detect r).2.reg o = s.reg o := detect_reg_block s r h
  have hd : (s.detect r).2.unhomed r = false := (unhomed_congr (detect_fusing s r) hreg r).trans hu
  have hh : (s.detect r).2.homeOf { r with marked := (s.detect r).1 } = s.homeOf r := homeOf_congr (detect_fusing s r) hreg _
  have hpd : (s.detect r).2.PoolFree r.lane (s.homeOf r) (decide (r.cls = 0)) := by
    simpa only [State.PoolFree, State.laneC0, State.laneGen, detect_lane] using hp
  have ht : s.offerRequest r = (s.detect r).2.inject { r with marked := (s.detect r).1 } := by
    simp [State.offerRequest, State.takeRequest, h1, h2, hd, queueFull_of_poolFree hp]
  rw [ht, inject_of_poolFree (by rw [hh]; exact hpd), hh, phys_congr hreg]

end

/-- Settles O37: a row that passes its port ends in `offerRequest`, and a lane's wait queue in `injectFrom`. -/
theorem requestsEnterTheBlock : Obligations.RequestsEnterTheBlock := by
  refine ⟨fun s op a h1 h2 hw he hu hp => ?_, fun s op a h1 h2 hw he hu => ?_, fun s l c0 n rest kept hp hk => ?_⟩
  · have hx := he.exec_row hw
    rw [offerRequest_injected h1 h2 hu hp] at hx
    refine ⟨_, hx, by simp, by simp, ?_, by simp, by simp, fun o ho => ?_⟩
    · exact (pool_addCredit _ _ _ _ _).trans (by rw [detect_pool]; rfl)
    · rw [State.held_reg _ (by simp)]
      simp [detect_reg_other s ho]
  · have hx := he.exec_row hw
    rw [offerRequest_unhomed h1 h2 hu] at hx
    obtain ⟨g, m, l, n, hc⟩ := completeUnhomed_form (s.detect (parseReq op a s.frame)).2 (parseReq op a s.frame)
    refine ⟨_, hx, by simp [hc], by simp [hc], by simp [hc], ?_⟩
    rw [State.held_flag _ (by simp [hc])]
    exact completeUnhomed_flag _ _
  · refine ⟨injectFrom_of_credit rest ?_ hk, rfl⟩
    cases c0
    · exact hp
    · exact hp

end Sys2Proof.Machine
end

section
/-! SUPPORT. The statements about wire formats: the parity of flits, the revision of an offer, and the fields of the headers that the block
sends. -/

namespace Sys2Proof

/-! ## Bit fields and parity of words -/

@[simp] theorem bits_or {n : Nat} (x y : BitVec n) (lo w : Nat) : bits (x ||| y) lo w = bits x lo w ||| bits y lo w := by
  refine BitVec.eq_of_getLsbD_eq fun i hi => ?_
  simp only [BitVec.getLsbD_or, getLsbD_bits, Bool.and_or_distrib_left]

theorem bits_xor {n : Nat} (x y : BitVec n) (lo w : Nat) : bits (x ^^^ y) lo w = bits x lo w ^^^ bits y lo w := by
  refine BitVec.eq_of_getLsbD_eq fun i hi => ?_
  simp only [BitVec.getLsbD_xor, getLsbD_bits, Bool.and_xor_distrib_left]

@[simp] theorem getLsbD_b1 (p : Bool) : (b1 p).getLsbD 0 = p := by cases p <;> rfl

theorem xorBits_xor {w : Nat} (x y : BitVec w) (n : Nat) : xorBits (x ^^^ y) n = xor (xorBits x n) (xorBits y n) := by
  induction n with
  | zero => rfl
  | succ n ih => simp only [xorBits, ih, BitVec.getLsbD_xor, Bool.xor_assoc, Bool.xor_left_comm (y.getLsbD n)]

/-- A word with one bit has odd parity. -/
theorem xorBits_single {w : Nat} {x : BitVec w} {b : Nat} (h : ∀ i, x.getLsbD i = decide (i = b)) (n : Nat) :
    xorBits x n = decide (b < n) := by
  induction n with
  | zero => rfl
  | succ n ih =>
    rw [xorBits, h, ih, Bool.eq_iff_iff]
    by_cases hn : n = b
    · simp [hn]
    · simp [hn]; omega

end Sys2Proof

namespace Sys2Proof.Machine

/-! ## Parity of flits (R64) -/

/-- PAR[q] is the parity of word `q`. -/
theorem getLsbD_parOf (f : Flit) {q : Nat} (h : q < 4) : (parOf f).getLsbD q = xorBits (bits f (32 * q) 32) 32 := by
  obtain rfl | rfl | rfl | rfl : q = 0 ∨ q = 1 ∨ q = 2 ∨ q = 3 := by omega
  all_goals simp [parOf, -BitVec.getLsbD_eq_getElem]

/-- A wrong bit turns the parity of its word. -/
theorem parOf_flip_ne (f : Flit) {e : Flit} {b : Nat} (hb : b < 128) (he : ∀ i, e.getLsbD i = decide (i = b)) :
    parOf (f ^^^ e) ≠ parOf f := by
  have hq : b / 32 < 4 := by omega
  have hword (i : Nat) : (bits e (32 * (b / 32)) 32).getLsbD i = decide (i = b % 32) := by
    rw [getLsbD_bits, he, ← Bool.decide_and]
    exact decide_eq_decide.mpr (by omega)
  have hodd : xorBits (bits e (32 * (b / 32)) 32) 32 = true := by
    rw [xorBits_single hword]; exact decide_eq_true (by omega)
  intro hp
  have hpar := congrArg (BitVec.getLsbD · (b / 32)) hp
  simp [getLsbD_parOf _ hq, bits_xor, xorBits_xor, hodd] at hpar

theorem ingress_of_flit_wrong (s : State) {a : Arrival} {p : Flit × Par} (hp : p ∈ a.flits) (hw : p.2 ≠ parOf p.1) : s.ingress a = 1 := by
  have hn : flitsOk a.flits = false := by
    rw [Bool.eq_false_iff]
    exact fun hok => hw (of_decide_eq_true (List.all_eq_true.mp hok p hp)).symm
  simp [State.ingress, hn]

/-- Settles O13: PAR[q] is the parity of word `q`, and one wrong bit turns the parity of its word. -/
theorem flitParity : Obligations.FlitParity := by
  refine ⟨fun f q hq => ?_, fun f b hb => ?_, fun m p hp => ?_, fun s a p hp hw => ingress_of_flit_wrong s hp hw⟩
  · rw [getLsbD_parOf f hq, Bool.xor_self]
  · refine parOf_flip_ne f hb fun i => ?_
    rw [BitVec.natCast_eq_ofNat, BitVec.getLsbD_ofNat, Nat.one_shiftLeft, Nat.testBit_two_pow, ← Bool.decide_and]
    exact decide_eq_decide.mpr (by omega)
  · obtain ⟨f, -, rfl⟩ := List.mem_map.mp hp
    rfl

/-! ## The revision of an offer (R112) -/

/-- Settles O16: by the cases of the choice. -/
theorem revisionChoice : Obligations.RevisionChoice := by
  intro h
  refine ⟨fun h3 => ?_, fun h3 h2 => ?_, fun h3 h2 => ?_⟩
  · have hr : chooseRev h = 3 := by simp [chooseRev, h3]
    exact ⟨hr, if_pos hr⟩
  · have hr : chooseRev h = 2 := by simp only [chooseRev, Bool.and_eq_true, decide_eq_true_eq, if_neg h3, if_pos h2]
    exact ⟨hr, if_neg (by omega)⟩
  · have hr : chooseRev h = 0 := by simp only [chooseRev, Bool.and_eq_true, decide_eq_true_eq, if_neg h3, if_neg h2]
    exact ⟨hr, if_neg (by omega)⟩

/-! ## Fields of the headers that the block sends (R72, R74, R117) -/

theorem getLsbD_put {w : Nat} (lo : Nat) (v : BitVec w) (i : Nat) (h : i < 128) :
    (put lo v).getLsbD i = (decide (lo ≤ i) && v.getLsbD (i - lo)) := by
  by_cases hl : lo ≤ i
  · simp [put, h, hl, Nat.not_lt.mpr hl]
  · simp [put, h, hl, Nat.lt_of_not_le hl]

/-- A placed bit reads back. -/
@[simp] theorem getLsbD_put_same (lo : Nat) (p : Bool) (h : lo < 128) : (put lo (b1 p)).getLsbD lo = p := by
  rw [getLsbD_put _ _ _ h, Nat.sub_self, getLsbD_b1]
  simp

/-- Elsewhere a placed field has no bits. -/
@[simp] theorem getLsbD_put_apart {w : Nat} (lo : Nat) (v : BitVec w) (i : Nat) (h : lo + w ≤ i ∨ i < lo) : (put lo v).getLsbD i = false := by
  by_cases hi : i < 128
  · rw [getLsbD_put _ _ _ hi, Bool.and_eq_false_iff]
    exact h.symm.imp (fun h => decide_eq_false (by omega)) fun h => BitVec.getLsbD_of_ge v _ (by omega)
  · exact BitVec.getLsbD_of_ge _ _ (by omega)

/-- A placed field reads back. -/
@[simp] theorem bits_put_same {w : Nat} (lo : Nat) (v : BitVec w) (h : lo + w ≤ 128) : bits (put lo v) lo w = v := by
  refine BitVec.eq_of_getLsbD_eq fun i hi => ?_
  rw [getLsbD_bits, getLsbD_put _ _ _ (by omega)]
  simp [hi]

/-- A field apart from the one placed is 0. -/
@[simp] theorem bits_put_apart {w : Nat} (lo : Nat) (v : BitVec w) (lo' w' : Nat) (h : lo + w ≤ lo' ∨ lo' + w' ≤ lo) :
    bits (put lo v) lo' w' = 0#w' := by
  refine BitVec.eq_of_getLsbD_eq fun i hi => ?_
  rw [getLsbD_bits, getLsbD_put_apart _ _ _ (by omega)]
  simp

/-- The header of a line snoop ends with its address. -/
theorem header_lineSnoop {k : Snoop} (hk : k = .inv ∨ k = .down ∨ k = .back) (re : Bool) (a t h : Nat) (ep : BitVec 2) (l : WireAddr)
    (base limit : BitVec 40) (n : Nat) :
    (Msg.snoop k re a t h ep l base limit n).header = put 0 k.code ||| put 7 (b1 re) ||| put 8 (BitVec.ofNat 5 a) |||
      put 18 (BitVec.ofNat 10 t) ||| put 28 (BitVec.ofNat 4 h) ||| put 32 ep ||| put 36 l := by
  rcases hk with rfl | rfl | rfl <;> rfl

/-- Settles O14: the fields of each header lie apart. -/
theorem sentHeadersCarryTheirFields : Obligations.SentHeadersCarryTheirFields := by
  refine ⟨fun c hd ht hs hy => ?_, fun k re a t h ep l hk ha ht hh => ?_, fun op c t h ep l p d hc ht hh => ?_⟩
  · simp (disch := omega) [Msg.header, -BitVec.getLsbD_eq_getElem, hOp, mHtid, mHslice, mEpoch, Nat.mod_eq_of_lt]
  · simp (disch := omega) [header_lineSnoop hk, -BitVec.getLsbD_eq_getElem, hOp, hAgent, rHtid, rHslice, rEpoch, rAddr, Nat.mod_eq_of_lt]
  · simp (disch := omega) [Msg.header, -BitVec.getLsbD_eq_getElem, hOp, Nat.mod_eq_of_lt]

end Sys2Proof.Machine
end

section
/-! SUPPORT. The statements about agents: their links, offers, sleep and losses. -/

namespace Sys2Proof.Machine

/-! ## Agents and their links (R430 to R433) -/

theorem reg_setAgSt_other (s : State) {a o : Nat} (st : Nat) (h : o ≠ oAg a 0x18) : (s.setAgSt a st).reg o = s.reg o := by
  rw [State.setAgSt, reg_setFlag_other _ _ _ h, reg_setFld_other _ _ _ _ h]

theorem agSt_congr {s t : State} {a : Nat} (h : t.reg (oAg a 0x18) = s.reg (oAg a 0x18)) : t.agSt a = s.agSt a := fld_congr h 0 3

theorem sluice_congr {s t : State} {a : Nat} (h : t.reg (oAg a 0x18) = s.reg (oAg a 0x18)) : t.sluice a = s.sluice a := by
  rw [State.sluice, State.sluice, agSt_congr h]

/-- AG_CAPS is not AG_STATE. -/
theorem oAg_caps_ne_state (a : Nat) : oAg a 0 ≠ oAg a 0x18 := by simp only [oAg]; omega

/-- An agent whose sluice is open does not await its offer. -/
theorem agSt_ne_await_of_sluice {s : State} {a : Nat} (h : s.sluice a = true) : s.agSt a ≠ agAwait := by
  intro hw
  rw [State.sluice, hw] at h
  exact absurd h (by decide)

/-- The state of an agent moves from `x` to `y`, if it is `x`. -/
def State.moveAgSt (s : State) (a x y : Nat) : State := if s.agSt a = x then s.setAgSt a y else s

section
variable (s : State) (a x y : Nat)

theorem moveAgSt_same : s.SameButRegs (s.moveAgSt a x y) := by
  unfold State.moveAgSt
  split
  · exact setAgSt_same s a y
  · exact .refl s

theorem agSt_moveAgSt (h : y < 8) : (s.moveAgSt a x y).agSt a = if s.agSt a = x then y else s.agSt a := by
  unfold State.moveAgSt
  split
  · exact agSt_setAgSt s a y h
  · rfl

theorem reg_moveAgSt_other {o : Nat} (h : o ≠ oAg a 0x18) : (s.moveAgSt a x y).reg o = s.reg o := by
  unfold State.moveAgSt
  split
  · exact reg_setAgSt_other s y h
  · rfl

end

/-- The link of an agent has come up: LINK of AG_CAPS, the hub of an I/O agent, and an agent that was down awaits its offer
(R87, R430; log entry 20). -/
def State.linkedUp (s : State) (a : Nat) : State :=
  let t := (s.setFlag (oAg a 0) 0 true).updAg a fun g => { g with upSince := true }
  (if 16 ≤ a then { t with hubUp := setBits s.hubUp (hubOf a) 1 1 } else t).moveAgSt a agDown agAwait

/-- The link of an agent is lost: a loss is due while its sluice is open, and an agent that awaits its offer goes down (R431, R432). -/
def State.linkedDown (s : State) (a : Nat) : State :=
  let t := s.setFlag (oAg a 0) 0 false
  if s.sluice a then t.lossCause a 3 else t.moveAgSt a agAwait agDown

/-- A loss that is to be declared joins those that are due (R453). -/
theorem lossCause_mem (s : State) (a c : Nat) : c ∈ ((s.lossCause a c).ag a).lossDue := by
  rw [State.lossCause, State.updAg_ag_same]
  dsimp only
  split
  · assumption
  · simp

section
variable (s : State) (a : Nat)

/-- LINK of AG_CAPS is not in AG_STATE. -/
theorem agSt_setLink (v : Bool) : (s.setFlag (oAg a 0) 0 v).agSt a = s.agSt a :=
  agSt_congr (reg_setFlag_other _ _ _ (oAg_caps_ne_state a).symm)

theorem linkedUp_keeps : (s.linkedUp a).fusing = s.fusing ∧ (s.linkedUp a).out = s.out ∧ (s.linkedUp a).slices = s.slices := by
  unfold State.linkedUp
  dsimp only
  split
  all_goals
    obtain ⟨r, m, hm⟩ := moveAgSt_same _ a agDown agAwait
    rw [hm]
    simp

theorem linkedUp_reg {o : Nat} (h : o ≠ oAg a 0x18) : (s.linkedUp a).reg o = (s.setFlag (oAg a 0) 0 true).reg o := by
  unfold State.linkedUp
  dsimp only
  split
  · rw [reg_moveAgSt_other _ _ _ _ h]; rfl
  · rw [reg_moveAgSt_other _ _ _ _ h, State.updAg_reg]

theorem linkedUp_agSt : (s.linkedUp a).agSt a = if s.agSt a = agDown then agAwait else s.agSt a := by
  rw [← agSt_setLink s a true]
  unfold State.linkedUp
  dsimp only
  split
  · exact agSt_moveAgSt _ a agDown agAwait (by decide)
  · exact agSt_moveAgSt _ a agDown agAwait (by decide)

theorem linkedUp_hubUp (h : 16 ≤ a) (ha : a < 24) : (s.linkedUp a).hubUp.getLsbD (hubOf a) = true := by
  have hh : hubOf a < 4 := by simp only [hubOf]; omega
  unfold State.linkedUp
  simp only [h, if_true]
  obtain ⟨r, m, hm⟩ := moveAgSt_same _ a agDown agAwait
  rw [hm]
  dsimp only
  rw [getLsbD_setBits _ _ _ _ _ hh]
  simp

theorem linkedDown_keeps : (s.linkedDown a).fusing = s.fusing ∧ (s.linkedDown a).out = s.out ∧ (s.linkedDown a).slices = s.slices := by
  unfold State.linkedDown
  dsimp only
  split
  · simp [State.lossCause]
  · obtain ⟨r, m, hm⟩ := moveAgSt_same (s.setFlag (oAg a 0) 0 false) a agAwait agDown
    rw [hm]
    simp

theorem linkedDown_reg {o : Nat} (h : o ≠ oAg a 0x18) : (s.linkedDown a).reg o = (s.setFlag (oAg a 0) 0 false).reg o := by
  unfold State.linkedDown
  dsimp only
  split
  · rw [State.lossCause, State.updAg_reg]
  · rw [reg_moveAgSt_other _ _ _ _ h]

theorem linkedDown_agSt : (s.linkedDown a).agSt a = if s.agSt a = agAwait then agDown else s.agSt a := by
  rw [← agSt_setLink s a false]
  unfold State.linkedDown
  dsimp only
  split
  next hs =>
    rw [if_neg (agSt_setLink s a false ▸ agSt_ne_await_of_sluice hs)]
    exact agSt_congr rfl
  · exact agSt_moveAgSt _ a agAwait agDown (by decide)

theorem linkedDown_loss (hs : s.sluice a = true) : 3 ∈ ((s.linkedDown a).ag a).lossDue := by
  rw [State.linkedDown, if_pos hs]
  exact lossCause_mem _ a 3

end

section
variable {s : State} {a : Nat} (hin : s.inReset = false) (ha : a < 24)
include hin ha

theorem exec_linkUp : exec (.linkUp a) s = .next (s.held (s.linkedUp a)) := by
  change execLinkUp a s = _
  simp only [execLinkUp, ha, decide_true, need_true, live_next hin]
  rfl

theorem exec_linkDown : exec (.linkDown a) s = .next (s.held (s.linkedDown a)) := by
  have hs : (s.setFlag (oAg a 0) 0 false).sluice a = s.sluice a := sluice_congr (reg_setFlag_other _ _ _ (oAg_caps_ne_state a).symm)
  change execLinkDown a s = _
  simp only [execLinkDown, ha, decide_true, need_true, live_next hin, hs]
  rfl

end

/-- The ports of an agent's link: of an I/O agent both lanes of its hub (R473). -/
def linkPorts (a : Nat) : List Nat :=
  (8 * (Port.agent a).place.1 + (Port.agent a).place.2) ::
    (if 16 ≤ a then [8 * (Port.nc (hubOf a)).place.1 + (Port.nc (hubOf a)).place.2] else [])

theorem exec_linkRetrainPause {s : State} {a : Nat} (hin : s.inReset = false) (ha : a < 24) :
    exec (.linkRetrainPause a) s = .next { s with routers := { s.routers with
      paused := s.routers.paused ++ (linkPorts a).filter fun p => !s.routers.paused.contains p } } := by
  change execLinkRetrainPause a s = _
  simp only [execLinkRetrainPause, ha, decide_true, need_true, live_next hin]
  rfl

/-- What is appended unless it is there is there. -/
theorem mem_append_missing {l m : List Nat} {p : Nat} (h : p ∈ m) : p ∈ l ++ m.filter fun p => !l.contains p := by
  by_cases hl : p ∈ l <;> simp [h, hl]

/-- Settles O29: each row changes AG_CAPS and AG_STATE of its agent, or the paused ports. -/
theorem linkReports : Obligations.LinkReports := by
  intro s a hin ha
  have hne := oAg_caps_ne_state a
  refine ⟨⟨_, exec_linkUp hin ha, ?_⟩, ⟨_, exec_linkDown hin ha, ?_⟩, ⟨_, exec_linkRetrainPause hin ha, ?_⟩⟩
  · obtain ⟨hf, hout, hsl⟩ := linkedUp_keeps s a
    have hreg := s.held_reg hf
    refine ⟨?_, ?_, fun h => linkedUp_hubUp s a h ha, hout, hsl, fun o h0 h18 => ?_⟩
    · rw [flag_congr ((hreg _).trans (linkedUp_reg s a hne)), flag_setFlag_same _ _ _ _ (by omega)]
    · rw [agSt_congr (hreg _), linkedUp_agSt]
    · rw [hreg, linkedUp_reg s a h18, reg_setFlag_other _ _ _ h0]
  · obtain ⟨hf, hout, hsl⟩ := linkedDown_keeps s a
    have hreg := s.held_reg hf
    refine ⟨?_, ?_, fun hs => linkedDown_loss s a hs, hout, hsl, fun o h0 h18 => ?_⟩
    · rw [flag_congr ((hreg _).trans (linkedDown_reg s a hne)), flag_setFlag_same _ _ _ _ (by omega)]
    · rw [agSt_congr (hreg _), linkedDown_agSt]
    · rw [hreg, linkedDown_reg s a h18, reg_setFlag_other _ _ _ h0]
  · exact ⟨mem_append_missing (by simp [linkPorts]), fun h => mem_append_missing (by simp [linkPorts, h]), rfl⟩

/-! ## Registers that a change of a transaction leaves alone -/

section
variable {o : Nat} (ho : o ≠ oFlip)
include ho

theorem reg_flipStore_other (s : State) (k b : Nat) : (s.flipStore k b).2.reg o = s.reg o := by
  unfold State.flipStore
  split
  · rw [reg_setFlag_other _ _ _ ho, reg_setFlag_other _ _ _ ho]
  · rfl

theorem reg_flipTable_other (s : State) (h t : Nat) : (s.flipTable h t).reg o = s.reg o := by
  unfold State.flipTable
  split
  · rfl
  · exact reg_flipStore_other ho s h 12

theorem reg_storeRecord_other (s : State) (h t : Nat) (r : Record) : (s.storeRecord h t r).reg o = s.reg o := by
  unfold State.storeRecord
  dsimp only
  split
  · rfl
  · exact reg_flipStore_other ho s _ 13

/-- A journal record that meets the flip mask clears it (R378); no other register changes. -/
theorem reg_jr_other (s : State) (h t : Nat) : (s.jr h t).reg o = s.reg o := by
  rw [← reg_flipTable_other ho s h t]
  unfold State.jr
  dsimp only
  split
  · rfl
  · split
    · exact reg_storeRecord_other ho _ _ _ _
    · rfl

theorem reg_put_other (s : State) (h t : Nat) (x : Txn) : (s.put h t x).reg o = s.reg o := reg_jr_other ho _ h t

theorem reg_upd_other (s : State) (h t : Nat) (f : Txn → Txn) : (s.upd h t f).reg o = s.reg o := reg_jr_other ho _ h t

end

/-! ## What an event of a block source leaves alone -/

section
variable (s : State) (j code : Nat) (d : BitVec 64)

@[simp] theorem raise_fusing : (s.raise j code d).fusing = s.fusing := by
  obtain ⟨r, m, l, n, h⟩ := raise_same s j code d; rw [h]
@[simp] theorem raise_out : (s.raise j code d).out = s.out := by
  obtain ⟨r, m, l, n, h⟩ := raise_same s j code d; rw [h]
@[simp] theorem raise_slices : (s.raise j code d).slices = s.slices := by
  obtain ⟨r, m, l, n, h⟩ := raise_same s j code d; rw [h]
@[simp] theorem raise_ag (a : Nat) : (s.raise j code d).ag a = s.ag a := by
  obtain ⟨r, m, l, n, h⟩ := raise_same s j code d; rw [h]; rfl

/-- The table of the agents is not among the registers of events. -/
theorem raise_reg_agent (hj : j < 128) (a o : Nat) : (s.raise j code d).reg (oAg a o) = s.reg (oAg a o) :=
  raise_reg_other _ _ _ (by simp only [oAg, oEvtPend]; omega)

end

/-! ## Offers (R112 to R116) -/

/-- The block has sent its answer to an offer, which it no longer holds. -/
def State.acceptSent (s : State) (a : Nat) (h : Header) : State :=
  (s.send s.frame (.agent a) (.capAccept a (chooseRev h) (grantCaps h) s.offerMasks s.nBits)).updAg a fun g => { g with offer := none }

/-- The agent's registers when it enters service with a revision and capabilities (R113, R115). -/
def State.joinAs (s : State) (a rev caps : Nat) : State :=
  (((((s.setFlag (oAg a 0) 1 true).setFld (oAg a 0) 4 4 rev).setFld (oAg a 0) 8 3 caps).setFld (oAg a 0) 20 4 0).setFld (oAg a 0x10) 0 2 0).setAgSt
    a agService

theorem joinAs_same (s : State) (a rev caps : Nat) : s.SameButRegs (s.joinAs a rev caps) :=
  (setFlag_same _ _ _ _).trans ((setFld_same _ _ _ _ _).trans ((setFld_same _ _ _ _ _).trans ((setFld_same _ _ _ _ _).trans
    ((setFld_same _ _ _ _ _).trans (setAgSt_same _ _ _)))))

theorem joinAs_reads (s : State) (a : Nat) {rev caps : Nat} (hr : rev < 16) (hc : caps < 8) :
    (s.joinAs a rev caps).agSt a = agService ∧ (s.joinAs a rev caps).flag (oAg a 0) 1 = true ∧
      (s.joinAs a rev caps).fld (oAg a 0) 4 4 = rev ∧ (s.joinAs a rev caps).fld (oAg a 0) 8 3 = caps := by
  have h10 : oAg a 0 ≠ oAg a 0x10 := by simp only [oAg]; omega
  have hcaps : (s.joinAs a rev caps).reg (oAg a 0) = ((((s.setFlag (oAg a 0) 1 true).setFld (oAg a 0) 4 4 rev).setFld (oAg a 0) 8 3 caps).setFld
      (oAg a 0) 20 4 0).reg (oAg a 0) := by
    rw [State.joinAs, reg_setAgSt_other _ _ (oAg_caps_ne_state a), reg_setFld_other _ _ _ _ h10]
  refine ⟨agSt_setAgSt _ _ _ (by decide), ?_, ?_, ?_⟩
  · rw [flag_congr hcaps, flag_setFld_apart _ _ _ _ _ _ (by omega), flag_setFld_apart _ _ _ _ _ _ (by omega),
      flag_setFld_apart _ _ _ _ _ _ (by omega), flag_setFlag_same _ _ _ _ (by omega)]
  · rw [fld_congr hcaps, fld_setFld_apart _ _ _ _ _ _ _ (by omega), fld_setFld_apart _ _ _ _ _ _ _ (by omega),
      fld_setFld_same _ _ _ _ _ (by omega)]
    exact Nat.mod_eq_of_lt hr
  · rw [fld_congr hcaps, fld_setFld_apart _ _ _ _ _ _ _ (by omega), fld_setFld_same _ _ _ _ _ (by omega)]
    exact Nat.mod_eq_of_lt hc

theorem answerOffer_of_ne_zero (s : State) (a : Nat) {h : Header} (hr : chooseRev h ≠ 0) :
    s.answerOffer a h = ((s.acceptSent a h).joinAs a (chooseRev h) (grantCaps h).toNat).updAg a fun g => { g with
      took := false, expired := false, lossDue := [], intakeClosed := false, retire := .none, sleepGo := none, joining := true } :=
  if_neg hr

theorem answerOffer_of_eq_zero (s : State) (a : Nat) {h : Header} (hr : chooseRev h = 0) :
    s.answerOffer a h = (((s.acceptSent a h).setAgSt a agAwait).incFld (oAg a 0) 20 4 1).raise 21 0 (BitVec.ofNat 64 a) :=
  if_pos hr

theorem chooseRev_le (h : Header) : chooseRev h ≤ 3 := by
  unfold chooseRev
  dsimp only
  split
  · omega
  · split <;> omega

/-- The answer is sent; beside it only registers, the log and what the block keeps of the agent change. -/
theorem answerOffer_form (s : State) (a : Nat) (h : Header) : ∃ r m l n g, s.answerOffer a h =
    { s.acceptSent a h with regs := r, marks := m, ring := l, logNew := n, agents := g } := by
  by_cases hr : chooseRev h = 0
  · obtain ⟨r, m, l, n, hf⟩ := ((setAgSt_same (s.acceptSent a h) a agAwait).trans (incFld_same _ (oAg a 0) 20 4 1)).log.trans
      (raise_same _ 21 0 (BitVec.ofNat 64 a))
    exact ⟨r, m, l, n, _, (answerOffer_of_eq_zero s a hr).trans hf⟩
  · obtain ⟨r, m, hf⟩ := joinAs_same (s.acceptSent a h) a (chooseRev h) (grantCaps h).toNat
    rw [answerOffer_of_ne_zero s a hr, hf]
    exact ⟨r, m, _, _, _, rfl⟩

/-- A revision is chosen: the agent is in service with it (R113, R115). -/
theorem answerOffer_service (s : State) (a : Nat) {h : Header} (hr : chooseRev h ≠ 0) :
    (s.answerOffer a h).agSt a = agService ∧ (s.answerOffer a h).flag (oAg a 0) 1 = true ∧
      (s.answerOffer a h).fld (oAg a 0) 4 4 = chooseRev h ∧ (s.answerOffer a h).fld (oAg a 0) 8 3 = (grantCaps h).toNat := by
  have hlt : chooseRev h < 16 := Nat.lt_of_le_of_lt (chooseRev_le h) (by omega)
  obtain ⟨hst, hf, hrev, hcaps⟩ := joinAs_reads (s.acceptSent a h) a hlt (grantCaps h).isLt
  have hreg (o : Nat) : (s.answerOffer a h).reg o = ((s.acceptSent a h).joinAs a (chooseRev h) (grantCaps h).toNat).reg o := by
    rw [answerOffer_of_ne_zero s a hr, State.updAg_reg]
  exact ⟨(agSt_congr (hreg _)).trans hst, (flag_congr (hreg _) _).trans hf, (fld_congr (hreg _) _ _).trans hrev,
    (fld_congr (hreg _) _ _).trans hcaps⟩

/-- No revision is chosen: the agent awaits another offer, and the event is raised (R116). -/
theorem answerOffer_refused (s : State) (a : Nat) {h : Header} (hr : chooseRev h = 0) :
    (s.answerOffer a h).agSt a = agAwait ∧ (s.answerOffer a h).flag (oEvtPend 0) 21 = true := by
  rw [answerOffer_of_eq_zero s a hr]
  refine ⟨?_, raise_flag _ 21 _ _⟩
  rw [agSt_congr (raise_reg_agent _ 21 _ _ (by omega) a 0x18), agSt_congr (reg_incFld_other _ _ _ _ (oAg_caps_ne_state a).symm),
    agSt_setAgSt _ _ _ (by decide)]

/-- An offer that passes its port and whose agent awaits one is noted and answered (R435, log entry 13). -/
theorem exec_capOffer {s : State} {m : Arrival} (hin : s.inReset = false) (hr : s.ready = true) (hl : m.lane < 24)
    (ho : hOp (headOf m.flits) = 0x2F) (hi : s.ingress m = 0) (hw : s.agSt (hAgent (headOf m.flits)) = agAwait) :
    exec (.capOffer m) s = .next (s.held (State.answerOffer
      ((s.setFld (oAg (hAgent (headOf m.flits)) 0) 12 4 (bits (headOf m.flits) 20 4).toNat).setFld (oAg (hAgent (headOf m.flits)) 0) 16 4
        (bits (headOf m.flits) 16 4).toNat) (hAgent (headOf m.flits)) (headOf m.flits))) := by
  have hsv : s.inService = true := by simp [State.inService, hin, hr]
  change execCapOffer m s = _
  simp only [execCapOffer, hl, decide_true, need_true, ho, hsv, bne_self_eq_false, Bool.not_true, Bool.or_self, Bool.false_eq_true,
    if_false, hi, hw, if_neg (show ¬ agAwait = agDown by decide), if_true, live_next hin]

theorem offerMasks_congr {s t : State} (hf : t.fusing = s.fusing) (hr : ∀ o, o < 0x24000 → t.reg o = s.reg o) :
    t.offerMasks = s.offerMasks := by
  refine List.map_congr_left fun n hn => ?_
  have hn : n < 4 := List.mem_range.mp hn
  rw [show t.nBits = s.nBits by simp only [State.nBits, hf], hr (oMask n) (by simp only [oMask]; omega)]

/-! ## The decision on sleep (R440 to R442) -/

/-- A change of a transaction leaves the agent's registers alone. -/
theorem reg_upd_agent (s : State) (h t : Nat) (f : Txn → Txn) (a o : Nat) : (s.upd h t f).reg (oAg a o) = s.reg (oAg a o) :=
  reg_upd_other (by simp only [oAg, oFlip]; omega) s h t f

/-- What a decided or answered sleep leaves beside what was done before it: the transaction and its work. -/
theorem upd_plan_reads (s : State) (h t f a : Nat) (g : Txn → Txn) (c : Act) :
    ((s.upd h t g).plan f h t c).out = s.out ∧ ((s.upd h t g).plan f h t c).txn h t = g (s.txn h t) ∧
      ⟨f, h, t, c⟩ ∈ ((s.upd h t g).plan f h t c).agenda ∧ ∀ o, ((s.upd h t g).plan f h t c).reg (oAg a o) = s.reg (oAg a o) := by
  refine ⟨?_, ?_, State.plan_mem _ _ _ _ _, fun o => ?_⟩
  · simp
  · simp
  · rw [State.plan_reg, reg_upd_agent]

section
variable {s : State} {h t a : Nat} {levels : BitVec 16} (ha : (s.txn h t).req.src = a) (hc : (s.txn h t).cmpSent = false)
  (ho : s.tagOpen h t = true) (hl : (s.txn h t).reqLost = false) (hs : s.agSt a ≠ agLost)
include ha hc ho

theorem sleepDecide_go (hg : (s.txn h t).granted = some true) :
    s.sleepDecide h t levels = (s.updAg a fun g => { g with sleepGo := some s.frame }).complete h t 0 false := by
  simp [State.sleepDecide, ha, hc, ho, hg]

include hl hs

/-- Granted: the agent sleeps from the end of frame D on, and its transaction goes on in frame D + 3 (R441). -/
theorem sleepDecide_granted (hg : (s.txn h t).granted = none) (hm : s.maySleep h t a levels = true) :
    (s.sleepDecide h t levels).agSt a = agSleeping ∧ ((s.sleepDecide h t levels).txn h t).granted = some true ∧
      (s.sleepDecide h t levels).fld (oAg a 0x20) 0 16 = min (s.fld (oAg a 0x20) 0 16 + 1) (2 ^ 16 - 1) ∧
      ⟨s.frame + 3, h, t, .act⟩ ∈ (s.sleepDecide h t levels).agenda ∧ (s.sleepDecide h t levels).out = s.out := by
  have hu : s.sleepDecide h t levels = (State.upd (((s.incFld (oAg a 0x20) 0 16 1).setAgSt a agSleeping).updAg a
      fun g => { g with upSince := false }) h t fun x => { x with granted := some true }).plan (s.frame + 3) h t .act := by
    simp [State.sleepDecide, ha, hc, ho, hg, hl, hs, hm, State.setAgSt]
  obtain ⟨hout, htxn, hmem, hreg⟩ := upd_plan_reads (((s.incFld (oAg a 0x20) 0 16 1).setAgSt a agSleeping).updAg a
    fun g => { g with upSince := false }) h t (s.frame + 3) a (fun x => { x with granted := some true }) .act
  rw [← hu] at hout htxn hmem hreg
  refine ⟨?_, by rw [htxn], ?_, hmem, ?_⟩
  · rw [agSt_congr (hreg 0x18)]
    exact agSt_setAgSt _ a _ (by decide)
  · rw [fld_congr ((hreg 0x20).trans (reg_setAgSt_other _ _ (by simp only [oAg]; omega))), fld_incFld_same _ _ _ _ _ (by omega)]
  · obtain ⟨r, m, hr⟩ := setAgSt_same (s.incFld (oAg a 0x20) 0 16 1) a agSleeping
    rw [hout, hr]; rfl

/-- Refused: the agent stays as it is, and its `Retry` is due in frame D + 1 (R442). -/
theorem sleepDecide_refused (hg : (s.txn h t).granted = none) (hm : s.maySleep h t a levels = false) :
    (s.sleepDecide h t levels).agSt a = s.agSt a ∧ ((s.sleepDecide h t levels).txn h t).granted = some false ∧
      ⟨s.frame + 1, h, t, .act⟩ ∈ (s.sleepDecide h t levels).agenda ∧ (s.sleepDecide h t levels).out = s.out := by
  have hu : s.sleepDecide h t levels = (s.upd h t fun x => { x with granted := some false }).plan (s.frame + 1) h t .act := by
    simp [State.sleepDecide, ha, hc, ho, hg, hl, hs, hm]
  obtain ⟨hout, htxn, hmem, hreg⟩ := upd_plan_reads s h t (s.frame + 1) a (fun x => { x with granted := some false }) .act
  rw [← hu] at hout htxn hmem hreg
  exact ⟨agSt_congr (hreg 0x18), by rw [htxn], hmem, hout⟩

/-- A refused sleep is answered with `Retry` and counted, and its tag is released (R442). -/
theorem sleepDecide_retry (hg : (s.txn h t).granted = some false) :
    (s.sleepDecide h t levels).agSt a = s.agSt a ∧ ((s.sleepDecide h t levels).txn h t).cmpSent = true ∧
      ⟨s.frame, h, t, .release⟩ ∈ (s.sleepDecide h t levels).agenda ∧
      (s.sleepDecide h t levels).fld (oAg a 0x20) 16 15 = min (s.fld (oAg a 0x20) 16 15 + 1) (2 ^ 15 - 1) ∧
      (s.sleepDecide h t levels).out =
        s.out ++ [⟨s.frame, .agent a, retryMsg (s.txn h t).req h (s.epoch h t) 3 (s.fld oAgentCtl 0 4)⟩] := by
  have hu : s.sleepDecide h t levels = (State.upd ((s.send s.frame (.agent a) (retryMsg (s.txn h t).req h (s.epoch h t) 3
      (s.fld oAgentCtl 0 4))).incFld (oAg a 0x20) 16 15 1) h t fun x => { x with cmpSent := true }).plan s.frame h t .release := by
    simp [State.sleepDecide, ha, hc, ho, hg, hl, hs]
  obtain ⟨hout, htxn, hmem, hreg⟩ := upd_plan_reads ((s.send s.frame (.agent a) (retryMsg (s.txn h t).req h (s.epoch h t) 3
    (s.fld oAgentCtl 0 4))).incFld (oAg a 0x20) 16 15 1) h t s.frame a (fun x => { x with cmpSent := true }) .release
  rw [← hu] at hout htxn hmem hreg
  refine ⟨agSt_congr ((hreg 0x18).trans (reg_incFld_other _ _ _ _ (by simp only [oAg]; omega))), by rw [htxn], hmem, ?_, hout⟩
  rw [fld_congr (hreg 0x20), fld_incFld_same _ _ _ _ _ (by omega)]
  rfl

end

/-! ## The declaration of a loss and its effects (R169, R171, R453 to R456) -/

/-- Whether an agent is absent depends on the slices, the lost pairs and the fuses. -/
theorem liveSlices_congr {s t : State} (hf : t.fusing = s.fusing) (hr : t.reg oTakeover = s.reg oTakeover) : t.liveSlices = s.liveSlices := by
  unfold State.liveSlices
  rw [show t.nSlices = s.nSlices by simp only [State.nSlices, hf]]
  exact List.filter_congr fun k _ => by rw [State.pairLost, State.pairLost, flag_congr hr]

theorem absent_congr {s t : State} {a : Nat} (hf : t.fusing = s.fusing) (hr : t.reg oTakeover = s.reg oTakeover) (hs : t.slices = s.slices) :
    t.absent a = s.absent a := by
  unfold State.absent
  rw [liveSlices_congr hf hr]
  simp only [State.presence, State.sl, hs]

theorem fld_incFld_apart (s : State) (o lo w n lo' w' : Nat) (h : lo + w ≤ lo' ∨ lo' + w' ≤ lo) :
    (s.incFld o lo w n).fld o lo' w' = s.fld o lo' w' := by
  rw [State.incFld, State.mark_fld, fld_setFld_apart _ _ _ _ _ _ _ h]

/-- AG_STATE of an agent that is declared lost with a cause, and the counts of losses with their event (R453). -/
def State.lossNoted (s : State) (a c : Nat) : State :=
  let t := (s.setAgSt a agLost).setFld (oAg a 0x18) 4 3 c
  if c = 6 then t.incFld (oAg a 0x18) 16 8 1 else (t.incFld (oAg a 0x18) 8 8 1).raise 30 c (BitVec.ofNat 64 a)

theorem lossNoted_same (s : State) (a c : Nat) : s.SameButLog (s.lossNoted a c) := by
  have h := ((setAgSt_same s a agLost).trans (setFld_same _ (oAg a 0x18) 4 3 c))
  unfold State.lossNoted
  dsimp only
  split
  · exact (h.trans (incFld_same _ _ _ _ _)).log
  · exact (h.trans (incFld_same _ _ _ _ _)).log.trans (raise_same _ _ _ _)

/-- The agent is lost, with its cause. -/
theorem lossNoted_state (s : State) (a : Nat) {c : Nat} (hc : c < 8) :
    (s.lossNoted a c).agSt a = agLost ∧ (s.lossNoted a c).fld (oAg a 0x18) 4 3 = c := by
  have hst : ((s.setAgSt a agLost).setFld (oAg a 0x18) 4 3 c).agSt a = agLost := by
    rw [State.agSt, fld_setFld_apart _ _ _ _ _ _ _ (by omega)]
    exact agSt_setAgSt s a agLost (by decide)
  have hca : ((s.setAgSt a agLost).setFld (oAg a 0x18) 4 3 c).fld (oAg a 0x18) 4 3 = c := by
    rw [fld_setFld_same _ _ _ _ _ (by omega)]
    exact Nat.mod_eq_of_lt hc
  unfold State.lossNoted
  dsimp only
  split
  · exact ⟨by rw [State.agSt, fld_incFld_apart _ _ _ _ _ _ _ (by omega)]; exact hst, by rw [fld_incFld_apart _ _ _ _ _ _ _ (by omega), hca]⟩
  · rw [agSt_congr (raise_reg_agent _ 30 _ _ (by omega) a 0x18), fld_congr (raise_reg_agent _ 30 _ _ (by omega) a 0x18),
      fld_incFld_apart _ _ _ _ _ _ _ (by omega), State.agSt, fld_incFld_apart _ _ _ _ _ _ _ (by omega)]
    exact ⟨hst, hca⟩

/-- The count of losses of the agent and its event, but for one that an offer brings (R453). -/
theorem lossNoted_counted (s : State) (a : Nat) {c : Nat} (hc : c ≠ 6) :
    (s.lossNoted a c).flag (oEvtPend 0) 30 = true ∧ (s.lossNoted a c).fld (oAg a 0x18) 8 8 = min (s.fld (oAg a 0x18) 8 8 + 1) (2 ^ 8 - 1) := by
  rw [State.lossNoted, if_neg hc]
  refine ⟨raise_flag _ 30 _ _, ?_⟩
  rw [fld_congr (raise_reg_agent _ 30 _ _ (by omega) a 0x18), fld_incFld_same _ _ _ _ _ (by omega), fld_setFld_apart _ _ _ _ _ _ _ (by omega),
    State.setAgSt, fld_setFlag_apart _ _ _ _ _ _ (by omega), fld_setFld_apart _ _ _ _ _ _ _ (by omega)]

theorem lossNoted_uncounted (s : State) (a : Nat) :
    (s.lossNoted a 6).flag (oEvtPend 0) 30 = s.flag (oEvtPend 0) 30 ∧ (s.lossNoted a 6).fld (oAg a 0x18) 8 8 = s.fld (oAg a 0x18) 8 8 := by
  have he : oEvtPend 0 ≠ oAg a 0x18 := by simp only [oAg, oEvtPend]; omega
  rw [State.lossNoted, if_pos rfl]
  refine ⟨flag_congr ?_ _, ?_⟩
  · rw [reg_incFld_other _ _ _ _ he, reg_setFld_other _ _ _ _ he, reg_setAgSt_other _ _ he]
  · rw [fld_incFld_apart _ _ _ _ _ _ _ (by omega), fld_setFld_apart _ _ _ _ _ _ _ (by omega),
      State.setAgSt, fld_setFlag_apart _ _ _ _ _ _ (by omega), fld_setFld_apart _ _ _ _ _ _ _ (by omega)]

/-- The block registers below the agent table, but for the pending events, are not touched. -/
theorem lossNoted_reg_other (s : State) (a c : Nat) {o : Nat} (h : o ≠ oAg a 0x18) (he : o ≠ oEvtPend 0) :
    (s.lossNoted a c).reg o = s.reg o := by
  unfold State.lossNoted
  dsimp only
  split
  · rw [reg_incFld_other _ _ _ _ h, reg_setFld_other _ _ _ _ h, reg_setAgSt_other _ _ h]
  · rw [raise_reg_other (j := 30) _ _ _ he, reg_incFld_other _ _ _ _ h, reg_setFld_other _ _ _ _ h, reg_setAgSt_other _ _ h]

theorem declareLost_eq (s : State) (a c : Nat) : s.declareLost a c =
    let t := (s.lossNoted a c).setFlag (oAg a 0) 1 false
    t.updAg a fun g => { g with lossDue := [], lossAt := t.frame + 1, sweepIn := if t.absent a then [] else t.liveSlices, expired := false
                                took := false } := rfl

section
variable (s : State) {a c : Nat} (hc : c < 8)
include hc

/-- What the declaration of a loss leaves (R453, R454). -/
theorem declareLost_reads :
    (s.declareLost a c).agSt a = agLost ∧ (s.declareLost a c).fld (oAg a 0x18) 4 3 = c ∧ (s.declareLost a c).flag (oAg a 0) 1 = false ∧
      (s.declareLost a c).out = s.out ∧ (s.declareLost a c).slices = s.slices ∧
      ((s.declareLost a c).ag a).sweepIn = (if s.absent a then [] else s.liveSlices) ∧
      ∀ o, o ≠ oAg a 0 → (s.declareLost a c).reg o = (s.lossNoted a c).reg o := by
  obtain ⟨r, m, l, n, hn⟩ := (lossNoted_same s a c).trans (setFlag_same (s.lossNoted a c) (oAg a 0) 1 false).log
  obtain ⟨hst, hca⟩ := lossNoted_state s a hc
  have hreg (o : Nat) (ho : o ≠ oAg a 0) : (s.declareLost a c).reg o = (s.lossNoted a c).reg o := by
    rw [declareLost_eq, State.updAg_reg, reg_setFlag_other _ _ _ ho]
  have hf : ((s.lossNoted a c).setFlag (oAg a 0) 1 false).fusing = s.fusing := by rw [hn]
  have hs : ((s.lossNoted a c).setFlag (oAg a 0) 1 false).slices = s.slices := by rw [hn]
  have ht : ((s.lossNoted a c).setFlag (oAg a 0) 1 false).reg oTakeover = s.reg oTakeover := by
    rw [reg_setFlag_other _ _ _ (by simp only [oAg, oTakeover]; omega),
      lossNoted_reg_other _ _ _ (by simp only [oAg, oTakeover]; omega) (by decide)]
  refine ⟨?_, ?_, ?_, ?_, ?_, ?_, hreg⟩
  · rw [agSt_congr (hreg _ (oAg_caps_ne_state a).symm), hst]
  · rw [fld_congr (hreg _ (oAg_caps_ne_state a).symm), hca]
  · rw [declareLost_eq, State.updAg_flag, flag_setFlag_same _ _ _ _ (by omega)]
  · rw [declareLost_eq, State.updAg_out, hn]
  · rw [declareLost_eq, State.updAg_slices, hs]
  · rw [declareLost_eq, State.updAg_ag_same]
    dsimp only
    rw [absent_congr hf ht hs, liveSlices_congr hf ht]

end

/-- A request of a lost agent that is not an eviction goes (R455). -/
def QReq.goneWith (q : QReq) (a : Nat) : Bool := q.req.ofAgent a && !q.req.evict

theorem freeEntry_sl (s : State) (k h : Nat) (q : QReq) : ∃ l, (s.freeEntry k q).sl h = { s.sl h with returning := l } := by
  unfold State.freeEntry
  split
  · exact ⟨_, rfl⟩
  · by_cases hk : h = k
    · subst hk
      rw [State.updSl_sl_same]
      exact ⟨_, rfl⟩
    · rw [State.updSl_sl_other _ hk]
      exact ⟨_, rfl⟩

/-- The entries that requests leave change only the credits that the slice returns. -/
theorem freeEntries_sl (l : List QReq) (s : State) (h : Nat) :
    ∃ r, (l.foldl (fun s q => s.freeEntry q.home q) s).sl h = { s.sl h with returning := r } :=
  foldl_keeps (P := fun u => ∃ r, u.sl h = { s.sl h with returning := r }) l ⟨_, rfl⟩ fun u q _ ⟨r, hu⟩ => by
    obtain ⟨r', h'⟩ := freeEntry_sl u q.home h q
    exact ⟨r', by rw [h', hu]⟩

theorem dropUnissued_unissued (s : State) (h a : Nat) :
    ((s.dropUnissued h a).sl h).unissued = (s.sl h).unissued.filter fun q => !q.goneWith a := by
  obtain ⟨r, hr⟩ := freeEntries_sl ((s.sl h).unissued.filter fun q => q.goneWith a) s h
  have hu : (s.dropUnissued h a).sl h = (fun sl : Slice => { sl with
      c0q := sl.c0q.filter fun q => !q.goneWith a, queued := sl.queued.filter fun q => !q.goneWith a
      redHold := sl.redHold.filter fun q => !q.goneWith a
      tk := { sl.tk with waiting := sl.tk.waiting.filter fun q => !q.goneWith a } })
      ((((s.sl h).unissued.filter fun q => q.goneWith a).foldl (fun s q => s.freeEntry q.home q) s).sl h) := State.updSl_sl_same _ _ _
  rw [hu, hr]
  simp only [Slice.unissued, List.filter_append]

theorem mem_dropUnissued (s : State) (h a : Nat) (q : QReq) :
    q ∈ ((s.dropUnissued h a).sl h).unissued ↔ q ∈ (s.sl h).unissued ∧ (q.req.ofAgent a = true → q.req.evict = true) := by
  rw [dropUnissued_unissued, List.mem_filter]
  simp [QReq.goneWith, Bool.or_eq_true, ← Bool.not_eq_true, imp_iff_not_or]

/-- The bytes that a gatherer keeps for others are not in its transaction. -/
theorem keepMerged_txn (s : State) (h k t : Nat) (x : Txn) : (s.keepMerged h x).txn k t = s.txn k t := by
  unfold State.keepMerged
  split
  · split
    · exact txn_updSl _ _ _ _ _ fun _ => rfl
    · rfl
  · rfl

/-- A transaction that loses its requester (R456). -/
def Txn.withoutRequester (x : Txn) : Txn :=
  { x with reqLost := true, memData := none, st := if x.st = .alu || x.st = .gather then .memory else x.st, winClosed := true
           mems := x.mems.map fun m => if m.op = .rd then { m with discard := true } else m }

theorem runLost_txn (s : State) (h t : Nat) : (s.runLost h t).txn h t = (s.txn h t).withoutRequester := by
  have hx : ((s.keepMerged h (s.txn h t)).upd h t Txn.withoutRequester).txn h t = (s.txn h t).withoutRequester := by
    rw [upd_txn, keepMerged_txn]
  rw [← hx]
  unfold State.runLost
  dsimp only
  split
  · rfl
  · rw [State.plan_txn]; rfl

theorem ownLost_running {s : State} {h a t : Nat} (hh : (s.txn h t).home = none) (ha : (s.txn h t).req.ofAgent a = true)
    (he : (s.txn h t).req.evict = false) (hf : (s.txn h t).st ≠ .free) (hw : (s.txn h t).st ≠ .waiting) (hc : (s.txn h t).cmpSent = false) :
    s.ownLost h a t = s.runLost h t := by
  simp [State.ownLost, hh, ha, he, hf, hw, hc]

/-- No data of memory is taken for it any more. -/
theorem withoutRequester_discards (x : Txn) {m : MemWait} (hm : m ∈ x.withoutRequester.mems) (hr : m.op = .rd) : m.discard = true := by
  obtain ⟨n, -, rfl⟩ := List.mem_map.mp hm
  by_cases hn : n.op = .rd
  · simp [hn]
  · simp [hn] at hr

theorem synthesize_ackGo (s : State) (h t : Nat) {w : Wait} (hw : w.kind = .ackGo) :
    s.synthesize h t w = (s.upd h t fun x => { x with waits := x.waits.erase w, st := .holding }).plan s.frame h t .release := by
  rw [State.synthesize, hw]

/-- Loss handling of an agent that has offered nothing ends (R459). -/
theorem exec_lossDone {s : State} {a : Nat} (hin : s.inReset = false) (ha : a < 24) (ho : s.lossOver a = true) (hn : (s.ag a).offer = none) :
    ∃ permit, exec (.lossDone a) s = .next (s.held (((s.raise 31 0 (BitVec.ofNat 64 a)).updAg a fun g => { g with
      intakeClosed := false, retire := .none, sleepGo := none, permitDue := permit }).setAgSt a
        (if s.flag (oAg a 0) 0 then agAwait else agDown))) := by
  have hl : (s.raise 31 0 (BitVec.ofNat 64 a)).flag (oAg a 0) 0 = s.flag (oAg a 0) 0 :=
    flag_congr (raise_reg_agent _ 31 _ _ (by omega) a 0) 0
  refine ⟨(s.ag a).retire != .none && decide (16 ≤ a) && s.hpRetireReq.getLsbD (a - 16), ?_⟩
  change execLossDone a s = _
  have hr : (s.raise 31 0 (BitVec.ofNat 64 a)).hpRetireReq = s.hpRetireReq := by
    obtain ⟨r, m, l, n, h⟩ := raise_same s 31 0 (BitVec.ofNat 64 a); rw [h]
  simp only [execLossDone, ha, decide_true, need_true, ho, when'_true, live_next hin, raise_ag, State.updAg_ag_same, hn, hr, State.updAg_flag, hl]

theorem answerOffer_keeps (s : State) (a : Nat) (h : Header) :
    (s.answerOffer a h).out = s.out ++ [⟨s.frame, .agent a, .capAccept a (chooseRev h) (grantCaps h) s.offerMasks s.nBits⟩] ∧
      (s.answerOffer a h).slices = s.slices ∧ (s.answerOffer a h).fusing = s.fusing := by
  obtain ⟨r, m, l, n, g, hform⟩ := answerOffer_form s a h
  rw [hform]
  exact ⟨rfl, rfl, rfl⟩

/-- The answer leaves in the step in which the offer is taken (R113, log entry 13). -/
theorem offerAnswered {s : State} {m : Arrival} (hin : s.inReset = false) (hr : s.ready = true) (hl : m.lane < 24)
    (ho : hOp (headOf m.flits) = 0x2F) (hi : s.ingress m = 0) (hw : s.agSt (hAgent (headOf m.flits)) = agAwait) :
    let h := headOf m.flits
    let a := hAgent h
    ∃ t, exec (.capOffer m) s = .next t ∧
      t.out = s.out ++ [⟨s.frame, .agent a, .capAccept a (chooseRev h) (grantCaps h) s.offerMasks s.nBits⟩] ∧ t.slices = s.slices ∧
      (chooseRev h ≠ 0 → t.agSt a = agService ∧ t.flag (oAg a 0) 1 = true ∧ t.fld (oAg a 0) 4 4 = chooseRev h ∧
        t.fld (oAg a 0) 8 3 = (grantCaps h).toNat) ∧
      (chooseRev h = 0 → t.agSt a = agAwait ∧ t.flag (oEvtPend 0) 21 = true) := by
  intro h a
  obtain ⟨n, hn⟩ : ∃ n, n = (s.setFld (oAg a 0) 12 4 (bits h 20 4).toNat).setFld (oAg a 0) 16 4 (bits h 16 4).toNat := ⟨_, rfl⟩
  have hx : exec (.capOffer m) s = .next (s.held (n.answerOffer a h)) := hn ▸ exec_capOffer hin hr hl ho hi hw
  have hf : n.fusing = s.fusing := by simp [hn]
  have hmask : n.offerMasks = s.offerMasks := offerMasks_congr hf fun o hlt => by
    have hne : o ≠ oAg a 0 := by simp only [oAg]; omega
    rw [hn, reg_setFld_other _ _ _ _ hne, reg_setFld_other _ _ _ _ hne]
  have hbits : n.nBits = s.nBits := by simp only [State.nBits, hf]
  obtain ⟨hout, hsl, hfu⟩ := answerOffer_keeps n a h
  have hreg (o : Nat) : (s.held (n.answerOffer a h)).reg o = (n.answerOffer a h).reg o := State.held_reg _ (hfu.trans hf) o
  refine ⟨_, hx, ?_, ?_, fun hc => ?_, fun hc => ?_⟩
  · rw [State.held_out, hout, hmask, hbits]
    simp [hn]
  · rw [State.held_slices, hsl]
    simp [hn]
  · rw [agSt_congr (hreg _), flag_congr (hreg _), fld_congr (hreg _), fld_congr (hreg _)]
    exact answerOffer_service n a hc
  · rw [agSt_congr (hreg _), flag_congr (hreg _)]
    exact answerOffer_refused n a hc

/-- Settles O31: the answer to an offer, the outcomes of the decision on sleep, and what a loss leaves. -/
theorem offersSleepAndLosses : Obligations.OffersSleepAndLosses := by
  refine ⟨fun s m => ?_, fun s h t levels => ?_, fun s a c ha hc => ?_, ⟨mem_dropUnissued, fun s h a t => ?_, fun s h t w hw => ?_⟩,
    fun s a hin ha ho hn => ?_⟩
  · exact fun hin hr hl ho hi ha hw => offerAnswered hin hr hl ho hi hw
  · intro x a u hc ho ha hl hs
    exact ⟨fun hg hm => sleepDecide_granted rfl hc ho hl hs hg hm, fun hg hm => sleepDecide_refused rfl hc ho hl hs hg hm,
      fun hg => sleepDecide_retry rfl hc ho hl hs hg, fun hg => sleepDecide_go rfl hc ho hg⟩
  · obtain ⟨hst, hca, hfl, hout, hsl, hsw, hreg⟩ := declareLost_reads s (a := a) hc
    have hpend := hreg (oEvtPend 0) (by simp only [oAg, oEvtPend]; omega)
    have hstate := hreg (oAg a 0x18) (oAg_caps_ne_state a).symm
    refine ⟨hst, by rw [State.sluice, hst]; rfl, hca, hfl, hout, hsl, fun h6 => ?_, fun h6 => ?_, hsw⟩
    · rw [flag_congr hpend, fld_congr hstate]
      exact lossNoted_counted s a h6
    · subst h6
      rw [flag_congr hpend, fld_congr hstate]
      exact lossNoted_uncounted s a
  · intro x hh ha he hf hw hc y
    have hy : y = x.withoutRequester := by
      rw [← runLost_txn, ← ownLost_running hh ha he hf hw hc]
    rw [hy]
    exact ⟨rfl, rfl, rfl, fun hst => if_pos (by simpa using hst), fun m hm hr => withoutRequester_discards x hm hr⟩
  · intro u
    obtain ⟨-, htxn, hmem, -⟩ := upd_plan_reads s h t s.frame 0 (fun x => { x with waits := x.waits.erase w, st := .holding }) .release
    rw [← synthesize_ackGo s h t hw] at htxn hmem
    exact ⟨by rw [htxn], by rw [htxn], hmem⟩
  · obtain ⟨permit, hx⟩ := exec_lossDone hin ha ho hn
    have hne : oEvtPend 0 ≠ oAg a 0x18 := by simp only [oAg, oEvtPend]; omega
    have hf := State.held_reg s (t := ((s.raise 31 0 (BitVec.ofNat 64 a)).updAg a fun g => { g with
      intakeClosed := false, retire := .none, sleepGo := none, permitDue := permit }).setAgSt a (if s.flag (oAg a 0) 0 then agAwait else agDown))
      (by simp [State.setAgSt])
    refine ⟨_, hx, ?_, ?_, by simp [State.setAgSt], by simp [State.setAgSt], by simp [State.setAgSt]⟩
    · rw [flag_congr ((hf _).trans (reg_setAgSt_other _ _ hne)), State.updAg_flag, raise_flag _ 31 _ _]
    · rw [agSt_congr (hf _), agSt_setAgSt _ _ _ (by split <;> decide)]

end Sys2Proof.Machine
end

section
/-! SUPPORT. The statements about answers: those of agents and of memory, at their ports and as their slices sample them. -/

namespace Sys2Proof.Machine

/-! ## Room for the records of a frame (R388) -/

/-- A step that changes no slice sends no record. -/
theorem fits_of_slices {s r : State} (c0 : Bool) (h : r.slices = s.slices) : s.fits c0 r = true := by
  have hsl (k : Nat) : r.sl k = s.sl k := by rw [State.sl, State.sl, h]
  simp [State.fits, State.unfit, hsl]

theorem taken_of_fits {s r : State} {h t : Nat} {l : Late} (hf : s.fits (s.isC0 h t) r = true) : s.taken h t l r = r := if_pos hf

theorem taken_of_slices {s r : State} (h t : Nat) (l : Late) (hs : r.slices = s.slices) : s.taken h t l r = r :=
  taken_of_fits (fits_of_slices _ hs)

/-! ## Stale messages (R76) -/

theorem stale_slices (s : State) (k : Nat) : (s.stale k).slices = s.slices := by
  obtain ⟨r, m, h⟩ := stale_same s k; rw [h]

theorem stale_eq {s : State} {k : Nat} (hk : k < s.nSlices) (hp : s.pairLost k = false) :
    s.stale k = s.incFld (oSl (s.engine k) 0xB8) 0 24 1 := by
  simp [State.stale, hk, hp]

theorem raisePair_slices (s : State) (j code : Nat) (f : Flit) : (s.raisePair j code f).slices = s.slices := by
  obtain ⟨r, m, l, n, h⟩ := raisePair_same s j code f; rw [h]

theorem closedLate_slices (s : State) (k a l : Nat) (f : Header) : (s.closedLate k a l f).slices = s.slices := by
  unfold State.closedLate
  split
  · exact stale_slices s k
  · split
    · exact raisePair_slices s 32 0 f
    · exact raisePair_slices s _ 6 f

/-! ## Answers at their ports (R78, R466) -/

/-- An injected answer leaves what no command drives. -/
theorem held_injectAnswer (s : State) (h : Nat) (p : Nat × Nat) (m : Answer) : s.held (s.injectAnswer h p m) = s.injectAnswer h p m := rfl

/-- A response that passes its port is injected (R33, R110). -/
theorem respondRow_injected {s : State} {op : RspOp} {a : Arrival} (h : s.Answers op a) :
    respondRow op a s = .next (s.injectAnswer (rHslice (headOf a.flits)) (lanePlace a.lane) (.response op a)) := by
  obtain ⟨hin, hr⟩ := h.serves
  have hn : s.refused a (rHslice (headOf a.flits)) = none := by
    simp [State.refused, h.passes, State.closedAgent, h.opened]
  rw [← held_injectAnswer]
  simp [respondRow, live_next hin, h.lane.1, h.opcode, State.inService, hin, hr, hn, h.slice]

section
variable {s : State} {n : Inbound} (hl : s.late = []) (hb : s.inbound = [n])
include hl hb

/-- An answer that reached its slice in an earlier frame is sampled (R249). -/
theorem takeFirst_reached {f : Nat} (hf : n.reached = some f) (hlt : f < s.frame) :
    s.takeFirst = State.sampleAnswer { s with inbound := [] } n.msg := by
  have hs : ({ s with late := [], inbound := [] } : State) = { s with inbound := [] } := by rw [← hl]
  simp [State.takeFirst, State.arrived, State.takeOne, insertBy, hl, hb, hf, hlt, hs]

/-- Any other waits on (R249). -/
theorem takeFirst_underway (hf : ∀ f, n.reached = some f → s.frame ≤ f) : s.takeFirst = s := by
  have hn : (n.reached.any fun f => decide (f < s.frame)) = false := by
    cases hr : n.reached with
    | none => rfl
    | some f => simpa using hf f hr
  have hs : ({ s with late := [], inbound := [n] } : State) = s := by rw [← hl, ← hb]
  simp [State.takeFirst, State.arrived, hl, hb, hn, hs]

end

/-! ## Responses that a slice samples (R76, R142 to R148) -/

/-- A response is tested against its transaction while the sluice of its agent is open (log entry 20). -/
theorem sampleAnswer_open {s : State} {op : RspOp} {a : Arrival} (ho : s.sluice (hAgent (headOf a.flits)) = true) (hr : op ≠ .rspReport) :
    s.sampleAnswer (.response op a) =
      s.taken (rHslice (headOf a.flits)) (rHtid (headOf a.flits)) (.answer (.response op a)) (s.respond op a) := by
  simp [State.sampleAnswer, State.takeAnswer, ho, hr, Answer.slice, Answer.tag]

theorem sampleAnswer_report {s : State} {a : Arrival} (ho : s.sluice (hAgent (headOf a.flits)) = true) :
    s.sampleAnswer (.response .rspReport a) =
      s.taken (rHslice (headOf a.flits)) (rHtid (headOf a.flits)) (.answer (.response .rspReport a)) (s.takeReport a) := by
  simp [State.sampleAnswer, State.takeAnswer, ho, Answer.slice, Answer.tag]

theorem sampleAnswer_closed {s : State} {a : Arrival} (op : RspOp) (hc : s.sluice (hAgent (headOf a.flits)) = false) :
    s.sampleAnswer (.response op a) = s.closedLate (rHslice (headOf a.flits)) (hAgent (headOf a.flits)) a.lane (headOf a.flits) := by
  have hx : s.sampleAnswer (.response op a) = s.taken (rHslice (headOf a.flits)) (rHtid (headOf a.flits)) (.answer (.response op a))
      (s.closedLate (rHslice (headOf a.flits)) (hAgent (headOf a.flits)) a.lane (headOf a.flits)) := by
    simp [State.sampleAnswer, State.takeAnswer, hc, Answer.slice, Answer.tag]
  rw [hx, taken_of_slices _ _ _ (closedLate_slices _ _ _ _ _)]

/-- A response that no live transaction awaits is stale (R76). -/
theorem sampleAnswer_unmatched {s : State} {a : Arrival} (op : RspOp) (ho : s.sluice (hAgent (headOf a.flits)) = true)
    (hm : s.matches (rHslice (headOf a.flits)) (rHtid (headOf a.flits)) (rEpoch (headOf a.flits)) = false) :
    s.sampleAnswer (.response op a) = s.stale (rHslice (headOf a.flits)) := by
  by_cases hr : op = .rspReport
  · subst hr
    have ht : s.takeReport a = s.stale (rHslice (headOf a.flits)) := by simp [State.takeReport, hm]
    rw [sampleAnswer_report ho, ht, taken_of_slices _ _ _ (stale_slices _ _)]
  · have ht : s.respond op a = s.stale (rHslice (headOf a.flits)) := by simp [State.respond, hm]
    rw [sampleAnswer_open ho hr, ht, taken_of_slices _ _ _ (stale_slices _ _)]

section
variable {s : State} {a : Arrival} {h t : Nat} {w : Wait}

theorem respond_rspI (hm : s.Meets .rspI a h t w) (hd : (headOf a.flits).getLsbD 7 = false) : s.respond .rspI a = s.answerI h t w := by
  obtain ⟨rfl, rfl⟩ := hm.home
  simp only [State.respond, hm.epoch, hm.line, hm.wait, hd, Bool.not_true, Bool.false_eq_true, if_false]

theorem respond_rspS (hm : s.Meets .rspS a h t w) : s.respond .rspS a = s.answerS h t w := by
  obtain ⟨rfl, rfl⟩ := hm.home
  simp only [State.respond, hm.epoch, hm.line, hm.wait, Bool.not_true, Bool.false_eq_true, if_false]

theorem respond_rspCross (hm : s.Meets .rspCross a h t w) : s.respond .rspCross a = s.answerCross h t w := by
  obtain ⟨rfl, rfl⟩ := hm.home
  simp only [State.respond, hm.epoch, hm.line, hm.wait, Bool.not_true, Bool.false_eq_true, if_false]

theorem respond_rspIData (hm : s.Meets .rspIData a h t w) :
    s.respond .rspIData a = s.answerData h t w (lineAt a.flits 0) ((headOf a.flits).getLsbD 6) := by
  obtain ⟨rfl, rfl⟩ := hm.home
  simp only [State.respond, hm.epoch, hm.line, hm.wait, Bool.not_true, Bool.false_eq_true, if_false]

/-- A response that meets its wait is taken, or put off to the next frame where its records do not fit (R388). -/
theorem sampleAnswer_met {op : RspOp} {r : State} (hm : s.Meets op a h t w) (hr : op ≠ .rspReport) (he : s.respond op a = r) :
    s.sampleAnswer (.response op a) = s.taken h t (.answer (.response op a)) r ∧
      (s.fits (s.isC0 h t) r = true → s.sampleAnswer (.response op a) = r) := by
  have hx : s.sampleAnswer (.response op a) = s.taken h t (.answer (.response op a)) r := by
    rw [sampleAnswer_open hm.opened hr, he, hm.home.1, hm.home.2]
  exact ⟨hx, fun hf => hx.trans (taken_of_fits hf)⟩

end

/-- Settles O46: the row of responses injects, `takeFirst` samples, and `respond` takes what meets its wait. -/
theorem answersMeetTheirWaits : Obligations.AnswersMeetTheirWaits := by
  refine ⟨fun s op a h => (exec_row_response op a s).trans (respondRow_injected h), fun s n hl hb => ⟨fun f hf hlt => ?_, fun hf => ?_⟩,
    fun s a h t w => ⟨fun hm hd => ?_, fun hm => ?_, fun hm => ?_, fun hm => ?_⟩, fun s op a => ⟨fun ho hk hp hm => ?_, fun hc => ?_⟩⟩
  · exact takeFirst_reached hl hb hf hlt
  · exact takeFirst_underway hl hb hf
  · exact sampleAnswer_met hm (by decide) (respond_rspI hm hd)
  · exact sampleAnswer_met hm (by decide) (respond_rspS hm)
  · exact sampleAnswer_met hm (by decide) (respond_rspCross hm)
  · exact sampleAnswer_met hm (by decide) (respond_rspIData hm)
  · exact (sampleAnswer_unmatched op ho hm).trans (stale_eq hk hp)
  · exact sampleAnswer_closed op hc

/-! ## Answers of memory (R120, R144, R303, R344, R345) -/

/-- At its port: injected, or discarded and counted (R344). -/
theorem memArrives_injected {s : State} {m : MemArrival} {op : BitVec 6} (w : Answer) (hf : flitsOk (m.flits.take 1) = true)
    (hh : mHslice (headOf m.flits) < s.nSlices) (ho : hOp (headOf m.flits) = op) :
    s.memArrives op m w = s.injectAnswer (mHslice (headOf m.flits)) (Port.mem m.port).place w := by
  simp [State.memArrives, hf, hh, ho]

theorem memArrives_discarded {s : State} {m : MemArrival} (op : BitVec 6) (w : Answer) (hf : flitsOk (m.flits.take 1) = false)
    (hh : mHslice (headOf m.flits) < s.nSlices) (hp : s.pairLost (mHslice (headOf m.flits)) = false) :
    s.memArrives op m w = s.incFld (oSl (s.engine (mHslice (headOf m.flits))) 0x68) 8 8 1 := by
  simp [State.memArrives, State.memParity, hf, hh, hp]

section
variable {s : State} {m : MemArrival} (hin : s.inReset = false) (hr : s.ready = true) (hp : m.port < 12)
include hin hr hp

theorem exec_memData : exec (.memData m) s = .next (s.held (s.memArrives 0x30 m (.memData m))) := by
  change execMemData m s = _
  simp [execMemData, live_next hin, hp, hr]

theorem exec_memCmp : exec (.memCmp m) s = .next (s.held (s.memArrives 0x20 m (.memCmp m))) := by
  change execMemCmp m s = _
  simp [execMemCmp, live_next hin, hp, hr]

end

section
variable {s : State} {m : MemArrival}

/-- An answer of a failed port is stale (R345). -/
theorem sampleAnswer_portGone (hg : s.memFailed.getLsbD m.port = true) :
    s.sampleAnswer (.memData m) = s.stale (mHslice (headOf m.flits)) ∧ s.sampleAnswer (.memCmp m) = s.stale (mHslice (headOf m.flits)) := by
  constructor
  · simp [State.sampleAnswer, State.portGone, hg, Answer.slice, -BitVec.getLsbD_eq_getElem]
  · simp [State.sampleAnswer, State.portGone, hg, Answer.slice, -BitVec.getLsbD_eq_getElem]

theorem sampleAnswer_memData {r : State} (hg : s.memFailed.getLsbD m.port = false) (he : s.onMemData m = r) :
    s.sampleAnswer (.memData m) = s.taken (mHslice (headOf m.flits)) (mHtid (headOf m.flits)) (.answer (.memData m)) r := by
  simp [State.sampleAnswer, State.portGone, State.takeAnswer, hg, he, Answer.slice, Answer.tag, -BitVec.getLsbD_eq_getElem]

theorem sampleAnswer_memCmp {r : State} (hg : s.memFailed.getLsbD m.port = false) (he : s.onMemCmp m = r) :
    s.sampleAnswer (.memCmp m) = s.taken (mHslice (headOf m.flits)) (mHtid (headOf m.flits)) (.answer (.memCmp m)) r := by
  simp [State.sampleAnswer, State.portGone, State.takeAnswer, hg, he, Answer.slice, Answer.tag, -BitVec.getLsbD_eq_getElem]

theorem onMemData_met {w : MemWait} (hm : s.matches (mHslice (headOf m.flits)) (mHtid (headOf m.flits)) (mEpoch (headOf m.flits)) = true)
    (hw : (s.txn (mHslice (headOf m.flits)) (mHtid (headOf m.flits))).dataWait = some w) :
    s.onMemData m =
      if flitsOk m.flits then
        s.takeData (mHslice (headOf m.flits)) (mHtid (headOf m.flits)) w (lineAt m.flits 0) ((headOf m.flits).getLsbD 6) false
      else if w.again then s.takeData (mHslice (headOf m.flits)) (mHtid (headOf m.flits)) w (lineAt m.flits 0) true true
      else (s.memParity (mHslice (headOf m.flits))).againMem (mHslice (headOf m.flits)) (mHtid (headOf m.flits)) w := by
  simp only [State.onMemData, hm, hw, Bool.not_true, Bool.false_eq_true, if_false]

theorem onMemData_unmatched (hm : s.matches (mHslice (headOf m.flits)) (mHtid (headOf m.flits)) (mEpoch (headOf m.flits)) = false) :
    s.onMemData m = s.stale (mHslice (headOf m.flits)) := by
  simp [State.onMemData, hm]

end

theorem takeCmp_live {s : State} {h t : Nat} {ep : BitVec 2} {w : MemWait} (hm : s.matches h t ep = true)
    (hw : ((s.txn h t).mems.find? fun m => m.op == .wr || m.op == .wrPoison) = some w) :
    s.takeCmp h t ep = (s.upd h t fun x => { x with mems := x.mems.erase w }).goOn h t := by
  simp only [State.takeCmp, hm, hw, if_true]

theorem takeCmp_staged {s : State} {h t : Nat} {ep : BitVec 2} {p : Nat × Merge} (hh : h < s.nSlices) (hp : s.pairLost h = false)
    (hm : s.matches h t ep = false)
    (hw : ((s.sl h).merges.find? fun p => p.2.used && p.2.staged && !p.2.done && p.2.tag == t && p.2.ep == ep) = some p) :
    s.takeCmp h t ep = s.stagedDone h p := by
  simp only [State.takeCmp, hm, hh, hp, hw, Bool.false_eq_true, if_false, decide_true, Bool.not_false, Bool.and_self, if_true]

/-- Settles O48: `memArrives` at the port, `onMemData` and `onMemCmp` at the slice. -/
theorem memoryAnswers : Obligations.MemoryAnswers := by
  intro s m f h t injected takes
  have htakes {w : Answer} {r : State} (hx : s.sampleAnswer w = s.taken h t (.answer w) r) : takes w r :=
    ⟨hx, fun hf => hx.trans (taken_of_fits hf)⟩
  refine ⟨fun hin hr hp => ⟨fun hf hh => ⟨fun ho => ?_, fun ho => ?_⟩, fun hf hh hl i hi => ?_⟩,
    fun hg => ⟨fun w hm hw => ⟨fun hf => ?_, fun hf ha => ?_, fun hf ha => ?_⟩, fun w hm hw => ?_, fun p hh hl hm hw => ?_⟩,
    fun hh hl => ⟨fun hm => ?_, fun hg => ?_⟩⟩
  · rw [exec_memData hin hr hp, memArrives_injected _ hf hh ho]; rfl
  · rw [exec_memCmp hin hr hp, memArrives_injected _ hf hh ho]; rfl
  · rcases hi with rfl | rfl
    · rw [exec_memData hin hr hp, memArrives_discarded _ _ hf hh hl]; rfl
    · rw [exec_memCmp hin hr hp, memArrives_discarded _ _ hf hh hl]; rfl
  · exact htakes (sampleAnswer_memData hg ((onMemData_met hm hw).trans (if_pos hf)))
  · exact htakes (sampleAnswer_memData hg ((onMemData_met hm hw).trans (by simp only [hf, ha, Bool.false_eq_true, if_false]; rfl)))
  · exact htakes (sampleAnswer_memData hg ((onMemData_met hm hw).trans (by simp only [hf, ha, Bool.false_eq_true, if_false, if_true]; rfl)))
  · exact htakes (sampleAnswer_memCmp hg (takeCmp_live hm hw))
  · exact htakes (sampleAnswer_memCmp hg (takeCmp_staged hh hl hm hw))
  · rw [← stale_eq hh hl]
    cases hg : s.memFailed.getLsbD m.port
    · rw [sampleAnswer_memData hg (onMemData_unmatched hm), taken_of_slices _ _ _ (stale_slices _ _)]
    · exact (sampleAnswer_portGone hg).1
  · rw [← stale_eq hh hl]
    exact sampleAnswer_portGone hg

end Sys2Proof.Machine
end

section
/-! SUPPORT. The statement about a rebuild sweep: its start, the reports that it queues and applies, and its end. -/

namespace Sys2Proof.Machine

/-! ## Fields of a slice that an operation leaves alone -/

/-- A field that the update of a slice leaves alone is left alone in every slice. -/
theorem updSl_keeps {α : Type} (g : Slice → α) {f : Slice → Slice} (hf : ∀ v, g (f v) = g v) (s : State) (h k : Nat) :
    g ((s.updSl h f).sl k) = g (s.sl k) := by
  by_cases hk : k = h
  · subst hk; rw [State.updSl_sl_same, hf]
  · rw [State.updSl_sl_other _ hk]

/-- A field of a slice that is neither its transactions nor part of its journal. -/
def JournalFree {α : Type} (g : Slice → α) : Prop :=
  ∀ (v : Slice) a b c d e n, g { v with txns := a, tflips := b, journal := c, jflips := d, runnel := e, recsSent := n } = g v

theorem flipStore_sl (s : State) (i b k : Nat) : (s.flipStore i b).2.sl k = s.sl k := by
  obtain ⟨r, m, h⟩ := flipStore_same s i b; rw [h]; rfl

section
variable {α : Type} {g : Slice → α} (hg : JournalFree g)
include hg

theorem flipTable_keeps (s : State) (h t k : Nat) : g ((s.flipTable h t).sl k) = g (s.sl k) := by
  unfold State.flipTable
  split
  · rfl
  · simp only [State.withFlip]
    rw [updSl_keeps g (fun v => hg v v.txns _ v.journal v.jflips v.runnel v.recsSent), flipStore_sl]

theorem storeRecord_keeps (s : State) (h t : Nat) (r : Record) (k : Nat) : g ((s.storeRecord h t r).sl k) = g (s.sl k) := by
  unfold State.storeRecord
  dsimp only
  split
  · rfl
  · rw [updSl_keeps g (fun v => hg v v.txns v.tflips _ _ v.runnel v.recsSent), flipStore_sl]

theorem jr_keeps (s : State) (h t k : Nat) : g ((s.jr h t).sl k) = g (s.sl k) := by
  rw [← flipTable_keeps hg s h t]
  unfold State.jr
  dsimp only
  split
  · rfl
  · split
    · exact storeRecord_keeps hg _ _ _ _ _
    · rw [updSl_keeps g (fun v => hg v v.txns v.tflips v.journal v.jflips _ _)]

/-- A change of a transaction and its journal record leave the other fields of every slice alone (R387). -/
theorem put_keeps (s : State) (h t : Nat) (x : Txn) (k : Nat) : g ((s.put h t x).sl k) = g (s.sl k) := by
  rw [State.put, jr_keeps hg, State.setTxn,
    updSl_keeps g (fun v => hg v _ v.tflips v.journal v.jflips v.runnel v.recsSent)]

theorem upd_keeps (s : State) (h t : Nat) (f : Txn → Txn) (k : Nat) : g ((s.upd h t f).sl k) = g (s.sl k) := put_keeps hg s h t _ k

end

theorem sweep_journalFree : JournalFree Slice.sweep := fun _ _ _ _ _ _ _ => rfl
theorem reports_journalFree : JournalFree Slice.reports := fun _ _ _ _ _ _ _ => rfl

/-! ## The start of a sweep (R107, R416) -/

/-- The wait that a range snoop of an agent opens (R107). -/
def State.sweepWait (s : State) (a : Nat) : Wait :=
  { agent := a, kind := .range, snp := if s.snpReport a then .report else .flush, start := s.frame, len := s.flushContract a }

theorem sweepWait_congr {s t : State} {a : Nat} (hf : t.frame = s.frame) (hr : ∀ o, o < 0x80 → t.reg (oAg a o) = s.reg (oAg a o)) :
    t.sweepWait a = s.sweepWait a := by
  have h1 : t.snpReport a = s.snpReport a := flag_congr (hr 0 (by decide)) 10
  have h2 : t.flushContract a = s.flushContract a := by rw [State.flushContract, State.flushContract, fld_congr (hr 8 (by decide))]
  rw [State.sweepWait, State.sweepWait, h1, h2, hf]

/-- A range snoop opens a wait in its transaction (R107). -/
theorem rangeSnoop_eq (s : State) (h t a : Nat) : ∃ m, s.rangeSnoop h t a =
    (s.upd h t fun x => { x with waits := x.waits ++ [s.sweepWait a] }).send s.frame (.agent a) m := ⟨_, rfl⟩

theorem rangeSnoop_reads (s : State) (h t a : Nat) :
    (s.rangeSnoop h t a).txn h t = { s.txn h t with waits := (s.txn h t).waits ++ [s.sweepWait a] } ∧ (s.rangeSnoop h t a).frame = s.frame ∧
      (∀ o, o ≠ oFlip → (s.rangeSnoop h t a).reg o = s.reg o) ∧
      ∀ {α : Type} {g : Slice → α}, JournalFree g → ∀ k, g ((s.rangeSnoop h t a).sl k) = g (s.sl k) := by
  obtain ⟨m, hm⟩ := rangeSnoop_eq s h t a
  refine ⟨?_, ?_, fun o ho => ?_, fun hg k => ?_⟩
  · rw [hm, State.send_txn, upd_txn]
  · rw [hm, State.send_frame, upd_frame]
  · rw [hm, State.send_reg, reg_upd_other ho]
  · rw [hm, State.send_sl, upd_keeps hg]

/-- The range snoops of a list of agents open a wait on each. -/
theorem rangeSnoops_reads (h t : Nat) (l : List Nat) (s : State) :
    let u := l.foldl (fun s a => s.rangeSnoop h t a) s
    u.txn h t = { s.txn h t with waits := (s.txn h t).waits ++ l.map s.sweepWait } ∧ (∀ o, o ≠ oFlip → u.reg o = s.reg o) ∧
      ∀ {α : Type} {g : Slice → α}, JournalFree g → ∀ k, g (u.sl k) = g (s.sl k) := by
  induction l generalizing s with
  | nil => exact ⟨by simp, fun _ _ => rfl, fun _ _ => rfl⟩
  | cons a l ih =>
    obtain ⟨htxn, hframe, hreg, hkeep⟩ := rangeSnoop_reads s h t a
    obtain ⟨htxn', hreg', hkeep'⟩ := ih (s.rangeSnoop h t a)
    have hw : (s.rangeSnoop h t a).sweepWait = s.sweepWait :=
      funext fun b => sweepWait_congr hframe fun o _ => hreg _ (by simp only [oAg, oFlip]; omega)
    refine ⟨?_, fun o ho => (hreg' o ho).trans (hreg o ho), fun hg k => (hkeep' hg k).trans (hkeep hg k)⟩
    rw [List.foldl_cons, htxn', htxn, hw]
    simp

/-- The home transaction of a sweep (R416). -/
def sweepTxn (frame : Nat) : Txn := { home := some .sweep, st := .home, want := 0, issue := frame, slot := 15, probed := true }

/-- The sweep of a range stands in its slice, with an empty queue. -/
def State.sweepPut (s : State) (h t : Nat) : State :=
  ((s.bumpEpoch h t).put h t (sweepTxn s.frame)).updSl h fun sl => { sl with sweep := some { tag := t }, sweepDue := false, reports := [] }

/-- The state in which the sweep of a range begins, before its snoops: SWEEP, its home transaction, its queue and its counts (R416). -/
def State.sweepBegun (s : State) (h t : Nat) : State :=
  let u := (s.setFlag (oSl (s.engine h) 0x90) 6 true).sweepPut h t
  u.setReg (oSl (u.engine h) 0x98) 0

theorem sweepStart_eq {s : State} {h t : Nat} (ht : s.homeTag h = some t) :
    s.sweepStart h = ((List.range 24).filter fun a => (s.sweepBegun h t).flag (oAg a 0) 1 && (s.sweepBegun h t).sluice a).foldl
      (fun s a => s.rangeSnoop h t a) (s.sweepBegun h t) := by
  have hx : (s.setFlag (oSl (s.engine h) 0x90) 6 true).homeTag h = some t := by
    rw [← ht]; simp [State.homeTag]
  unfold State.sweepStart
  simp only [hx]
  rfl

theorem sweepPut_reads (s : State) (h t : Nat) :
    ((s.sweepPut h t).sl h).sweep = some { tag := t } ∧ ((s.sweepPut h t).sl h).reports = [] ∧
      (s.sweepPut h t).txn h t = sweepTxn s.frame ∧ (s.sweepPut h t).frame = s.frame ∧
      ∀ o, o ≠ oFlip → (s.sweepPut h t).reg o = s.reg o := by
  refine ⟨?_, ?_, ?_, ?_, fun o ho => ?_⟩
  · rw [State.sweepPut, State.updSl_sl_same]
  · rw [State.sweepPut, State.updSl_sl_same]
  · rw [State.sweepPut, txn_updSl, put_txn]
    exact fun _ => rfl
  · obtain ⟨r, m, x, hp⟩ := put_same (s.bumpEpoch h t) h t (sweepTxn s.frame)
    rw [State.sweepPut, State.updSl_frame, hp]
    rfl
  · rw [State.sweepPut, State.updSl_reg, reg_put_other ho]
    rfl

/-- What the sweep finds when it sends its snoops. -/
theorem sweepBegun_reads (s : State) (h t : Nat) :
    ((s.sweepBegun h t).sl h).sweep = some { tag := t } ∧ ((s.sweepBegun h t).sl h).reports = [] ∧
      (s.sweepBegun h t).flag (oSl (s.engine h) 0x90) 6 = true ∧ (s.sweepBegun h t).txn h t = sweepTxn s.frame ∧
      (s.sweepBegun h t).frame = s.frame ∧ ∀ o, o < 0x100000 → o ≠ oFlip → (s.sweepBegun h t).reg o = s.reg o := by
  obtain ⟨hsw, hre, htx, hfr, hreg⟩ := sweepPut_reads (s.setFlag (oSl (s.engine h) 0x90) 6 true) h t
  refine ⟨?_, ?_, ?_, ?_, ?_, fun o hl ho => ?_⟩
  · rw [State.sweepBegun, State.setReg_sl, hsw]
  · rw [State.sweepBegun, State.setReg_sl, hre]
  · rw [State.sweepBegun, flag_congr (reg_setReg_other _ _ (by simp only [oSl]; omega)), flag_congr (hreg _ (by simp only [oSl, oFlip]; omega)),
      flag_setFlag_same _ _ _ _ (by omega)]
  · rw [State.sweepBegun, State.setReg_txn, htx, State.setFlag_frame]
  · rw [State.sweepBegun, State.setReg_frame, hfr, State.setFlag_frame]
  · rw [State.sweepBegun, reg_setReg_other _ _ (by simp only [oSl]; omega), hreg o ho, reg_setFlag_other _ _ _ (by simp only [oSl]; omega)]

/-- Every agent in service with an open sluice is asked, by a `SnpReport` or a `SnpFlushRange` (R416). -/
theorem sweepStart_reads {s : State} {h t : Nat} (ht : s.homeTag h = some t) :
    ((s.sweepStart h).sl h).sweep = some { tag := t } ∧ ((s.sweepStart h).sl h).reports = [] ∧
      (s.sweepStart h).flag (oSl (s.engine h) 0x90) 6 = true ∧ ((s.sweepStart h).txn h t).home = some .sweep ∧
      ∀ a, a < 24 → s.flag (oAg a 0) 1 = true → s.sluice a = true → s.sweepWait a ∈ ((s.sweepStart h).txn h t).waits := by
  obtain ⟨hsw, hre, hfl, htx, hfr, hreg⟩ := sweepBegun_reads s h t
  obtain ⟨htxn, hregs, hkeep⟩ := rangeSnoops_reads h t ((List.range 24).filter fun a =>
    (s.sweepBegun h t).flag (oAg a 0) 1 && (s.sweepBegun h t).sluice a) (s.sweepBegun h t)
  rw [sweepStart_eq ht]
  refine ⟨(hkeep sweep_journalFree h).trans hsw, (hkeep reports_journalFree h).trans hre,
    (flag_congr (hregs _ (by simp only [oSl, oFlip]; omega)) _).trans hfl, ?_, fun a ha hf hs => ?_⟩
  · rw [htxn, htx]; rfl
  · have hag (o : Nat) (ho : o < 0x80) : (s.sweepBegun h t).reg (oAg a o) = s.reg (oAg a o) :=
      hreg _ (by simp only [oAg]; omega) (by simp only [oAg, oFlip]; omega)
    rw [htxn]
    refine List.mem_append_right _ (List.mem_map.mpr ⟨a, List.mem_filter.mpr ⟨List.mem_range.mpr ha, ?_⟩, sweepWait_congr hfr hag⟩)
    rw [flag_congr (hag 0 (by decide)), sluice_congr (hag 0x18 (by decide)), hf, hs]
    rfl

/-! ## The reports of a sweep (R105, R106, R417, R420) -/

section
variable {s : State} {h : Nat} {sw : Sweep} (hin : s.inReset = false) (hh : h < s.nSlices) (ho : s.rangeOpen h = true)
  (hs : (s.sl h).sweep = some sw)
include hin hh ho hs

theorem exec_reportApply (hr : (s.sl h).reports ≠ []) (ha : (s.sl h).applied = false) :
    exec (.reportApply h) s = .next (s.held ((applyReports s h (s.sl h).reports 64).updSl h fun sl => { sl with applied := true })) :=
  row_due hin (decide_eq_true hh) (by simp [hs, hr, ha, ho])

/-- An agent whose report lost records is asked again once it has ended (R420). -/
theorem exec_reportRepeat {a : Nat} (ha : a < 24) (hl : sw.lastSeen.getLsbD a = true) (hq : (s.sl h).reports.length ≤ 128)
    (hc : s.sluice a = true) :
    exec (.reportRepeat h a) s = .next (s.held ((State.incFld
      (s.updSl h fun sl => { sl with sweep := some { sw with cut := vecClear sw.cut a, lastSeen := vecClear sw.lastSeen a } })
      (oSl (s.engine h) 0x98) 48 8 1).rangeSnoop h sw.tag a)) := by
  change execReportRepeat h a s = _
  simp only [execReportRepeat, hs]
  exact row_due hin (by simp [hh, ha]) (by simp [hl, hq, hc, ho, -BitVec.getLsbD_eq_getElem])

theorem exec_sweepEnd (hd : s.sweepDone h sw = true) : exec (.sweepEnd h) s = .next (s.lapseAt (.sweep h)) := by
  change execSweepEnd h s = _
  simp only [execSweepEnd, hs]
  rw [row_due hin (decide_eq_true hh) (by simp [hd, ho]), held_lapseAt]

end

/-- The records of a report that name lines of the swept slice (R106). -/
def State.goodRecords (s : State) (a : Arrival) : List (BitVec 48) :=
  ((List.range (min 10 (bits (headOf a.flits) 82 4).toNat)).map fun i => reportRecord a.flits i).filter
    fun r => s.inSweep (rHslice (headOf a.flits)) r

/-- The records of a report stand in the queue of the sweep, those of other lines counted (R106, R417). -/
def State.reportQueued (s : State) (a : Arrival) (stale : Nat) (sw : Sweep) : State :=
  let h := rHslice (headOf a.flits)
  ((((s.tookFrom (hAgent (headOf a.flits))).incFld (oSl ((s.tookFrom (hAgent (headOf a.flits))).engine h) 0xB8) 0 24 stale).updSl h
    fun sl => { sl with reports := sl.reports ++ [(hAgent (headOf a.flits), s.goodRecords a)] }).updSl h fun sl => { sl with sweep := some sw })

theorem reportQueued_reads (s : State) (a : Arrival) (n : Nat) (sw : Sweep) :
    (s.reportQueued a n sw).out = s.out ∧
      ((s.reportQueued a n sw).sl (rHslice (headOf a.flits))).reports =
        (s.sl (rHslice (headOf a.flits))).reports ++ [(hAgent (headOf a.flits), s.goodRecords a)] ∧
      ∀ t, (s.reportQueued a n sw).txn (rHslice (headOf a.flits)) t = s.txn (rHslice (headOf a.flits)) t := by
  refine ⟨by simp [State.reportQueued, State.tookFrom], ?_, fun t => ?_⟩
  · simp only [State.reportQueued, State.updSl_sl_same]
    rfl
  · rw [State.reportQueued, txn_updSl, txn_updSl]
    · rfl
    · exact fun _ => rfl
    · exact fun _ => rfl

/-- A report that finds room in the queue (R417); the last message of an agent ends its wait. -/
theorem takeReport_queued {s : State} {a : Arrival} {w : Wait} {sw : Sweep}
    (hm : s.matches (rHslice (headOf a.flits)) (rHtid (headOf a.flits)) (rEpoch (headOf a.flits)) = true)
    (hw : ((s.txn (rHslice (headOf a.flits)) (rHtid (headOf a.flits))).waits.find?
      fun w => w.agent == hAgent (headOf a.flits) && w.kind == .range && w.snp == .report) = some w)
    (hs : (s.sl (rHslice (headOf a.flits))).sweep = some sw) (hl : (s.sl (rHslice (headOf a.flits))).reports.length < 256) :
    ∃ n sw', s.takeReport a = if (headOf a.flits).getLsbD 86 then
        (s.reportQueued a n sw').upd (rHslice (headOf a.flits)) (rHtid (headOf a.flits)) fun x => { x with waits := x.waits.erase w }
      else s.reportQueued a n sw' := by
  have hroom : ¬ 256 ≤ ((s.tookFrom (hAgent (headOf a.flits))).sl (rHslice (headOf a.flits))).reports.length := Nat.not_le.mpr hl
  unfold State.takeReport
  simp only [hm, hw, hs, hroom, Bool.not_true, Bool.false_eq_true, if_false]
  exact ⟨_, _, rfl⟩

theorem takeReport_reads {s : State} {a : Arrival} {w : Wait} {sw : Sweep}
    (hm : s.matches (rHslice (headOf a.flits)) (rHtid (headOf a.flits)) (rEpoch (headOf a.flits)) = true)
    (hw : ((s.txn (rHslice (headOf a.flits)) (rHtid (headOf a.flits))).waits.find?
      fun w => w.agent == hAgent (headOf a.flits) && w.kind == .range && w.snp == .report) = some w)
    (hs : (s.sl (rHslice (headOf a.flits))).sweep = some sw) (hl : (s.sl (rHslice (headOf a.flits))).reports.length < 256) :
    (s.takeReport a).out = s.out ∧
      ((s.takeReport a).sl (rHslice (headOf a.flits))).reports =
        (s.sl (rHslice (headOf a.flits))).reports ++ [(hAgent (headOf a.flits), s.goodRecords a)] ∧
      ((s.takeReport a).txn (rHslice (headOf a.flits)) (rHtid (headOf a.flits))).waits =
        if (headOf a.flits).getLsbD 86 then (s.txn (rHslice (headOf a.flits)) (rHtid (headOf a.flits))).waits.erase w
        else (s.txn (rHslice (headOf a.flits)) (rHtid (headOf a.flits))).waits := by
  obtain ⟨n, sw', hx⟩ := takeReport_queued hm hw hs hl
  obtain ⟨hout, hrep, htxn⟩ := reportQueued_reads s a n sw'
  rw [hx]
  split
  · exact ⟨(upd_out _ _ _ _).trans hout, (upd_keeps reports_journalFree _ _ _ _ _).trans hrep, by rw [upd_txn, htxn]⟩
  · exact ⟨hout, hrep, by rw [htxn]⟩

/-! ## The end of a sweep (R245, R421) -/

/-- What the maintenance engine changes when it starts its next operation: MAINT of slices, and the summaries of R243 and R384. -/
theorem maintNext_keeps {P : State → Prop} {s : State} (h : Nat)
    (hsl : ∀ (u : State) k (m : Slice → Maint) (l : Slice → List MaintOp), P u →
      P (u.updSl k fun sl => { sl with maint := m sl, summed := l sl }))
    (hrg : ∀ (u : State) e p v, p = 0x50 ∨ p = 0x80 → P u → P (u.setReg (oSl e p) v)) (hs : P s) : P (s.maintNext h) := by
  have hsus (u : State) (k : Nat) (hu : P u) : P (u.suspend k) := by
    unfold State.suspend
    dsimp only
    split
    · split
      · exact hsl u k (fun _ => _) Slice.summed hu
      · exact hu
    · exact hu
  have hque (u : State) (k : Nat) (hu : P u) : P (u.queueRecount k) := by
    unfold State.queueRecount
    dsimp only
    split
    · exact hsl u k (fun _ => _) Slice.summed hu
    · exact hu
  have hclr (u : State) (k o : Nat) (op : MaintOp) (ho : o = 0x50 ∨ o = 0x80) (hu : P u) : P (u.clearSummary k o op) := by
    unfold State.clearSummary
    dsimp only
    split
    · exact hu
    · exact hsl _ _ Slice.maint (fun sl => sl.summed ++ [op]) (hrg u _ o 0 ho hu)
  have hq : P (foldSt (s.served (s.engine h)) State.queueRecount (foldSt (s.served (s.engine h)) State.suspend s)) :=
    foldSt_keeps hque _ (foldSt_keeps hsus _ hs)
  unfold State.maintNext
  dsimp only
  generalize foldSt (s.served (s.engine h)) State.queueRecount (foldSt (s.served (s.engine h)) State.suspend s) = q at hq
  split
  · exact hq
  · split
    · exact hq
    next k op _ =>
      have hrun := hsl _ k (fun sl => { running := some op, queue := sl.maint.queue.erase op, since := q.frame }) Slice.summed hq
      cases op with
      | rinv => exact hclr _ k 0x50 .rinv (.inl rfl) hrun
      | scrub => exact hclr _ k 0x80 .scrub (.inr rfl) hrun
      | lossSweep | agentWalk | recount => exact hrun

theorem engine_congr {s t : State} {h : Nat} (hr : t.reg (oSl h 0x90) = s.reg (oSl h 0x90)) : t.engine h = s.engine h := by
  have hf : t.sliceFailed h = s.sliceFailed h := by simp only [State.sliceFailed, State.role, fld_congr hr]
  rw [State.engine, State.engine, hf]

theorem State.SameButRegs.sl {s t : State} (h : s.SameButRegs t) (k : Nat) : t.sl k = s.sl k := by
  obtain ⟨r, m, rfl⟩ := h; rfl

theorem raise_sl (s : State) (j code : Nat) (d : BitVec 64) (k : Nat) : (s.raise j code d).sl k = s.sl k := by
  rw [State.sl, State.sl, raise_slices]

/-- Only the summaries of a range invalidation and of a scrub are registers that the start of an operation writes. -/
theorem maintNext_reg (s : State) (h : Nat) {o : Nat} (ho : ∀ e, o ≠ oSl e 0x50 ∧ o ≠ oSl e 0x80) : (s.maintNext h).reg o = s.reg o := by
  refine maintNext_keeps (P := fun u => u.reg o = s.reg o) h (fun u k m l hu => ?_) (fun u e p v hp hu => ?_) rfl
  · rw [State.updSl_reg, hu]
  · rw [reg_setReg_other _ _ (by rcases hp with rfl | rfl <;> [exact (ho e).1; exact (ho e).2]), hu]

theorem maintNext_sl_keeps {α : Type} (g : Slice → α) (hg : ∀ v m l, g { v with maint := m, summed := l } = g v) (s : State) (h k : Nat) :
    g ((s.maintNext h).sl k) = g (s.sl k) := by
  refine maintNext_keeps (P := fun u => g (u.sl k) = g (s.sl k)) h (fun u j m l hu => ?_) (fun u e p v hp hu => ?_) rfl
  · rw [updSl_keeps g (fun v => hg v _ _), hu]
  · rw [State.setReg_sl, hu]

/-- The range has no sweep any more, and its home transaction is gone (R421). -/
def State.sweepClosed (s : State) (h : Nat) (sw : Sweep) : State :=
  ((s.unplan h sw.tag).put h sw.tag {}).updSl h fun sl =>
    { sl with sweep := none, rebuildOn := false, txns := sl.txns.map fun p => (p.1, if p.2.bcast then { p.2 with swept := true } else p.2) }

/-- The filter that a sweep has rebuilt is enabled again: ENABLE, STALE and REBUILD of its slice (R245). -/
def State.filterBack (s : State) (h : Nat) (rebuilt : Bool) : State :=
  if rebuilt then ((s.setFlag (oSl h 0x28) 0 true).setFlag (oSl h 0x28) 1 false).setFlag (oSl h 0x28) 4 false else s

/-- SWEEP falls in the engine, unless it sweeps its other range as well (R421). -/
def State.sweepBitEnd (s : State) (h : Nat) : State :=
  if s.engine (buddy h) = s.engine h && s.sweeping (buddy h) then s else s.setFlag (oSl (s.engine h) 0x90) 6 false

theorem endSweep_eq {s : State} {h : Nat} {sw : Sweep} (hs : (s.sl h).sweep = some sw) (hd : s.sweepDone h sw = true)
    (ho : s.rangeOpen h = true) :
    ∃ code, s.endSweep h =
      ((((s.sweepClosed h sw).filterBack h (s.sl h).rebuildOn).sweepBitEnd h).raise 27 code (BitVec.ofNat 64 h)).maintNext h := by
  unfold State.endSweep
  simp only [hs, hd, ho]
  exact ⟨_, rfl⟩

section
variable (s : State) (h : Nat)

theorem sweepClosed_reg {o : Nat} (ho : o ≠ oFlip) (sw : Sweep) : (s.sweepClosed h sw).reg o = s.reg o := by
  rw [State.sweepClosed, State.updSl_reg, reg_put_other ho, State.unplan_reg]

theorem sweepClosed_sl (sw : Sweep) : ((s.sweepClosed h sw).sl h).sweep = none ∧ ((s.sweepClosed h sw).sl h).rebuildOn = false := by
  rw [State.sweepClosed, State.updSl_sl_same]
  exact ⟨rfl, rfl⟩

/-- The sweep of the other range goes on. -/
theorem sweepClosed_sweeping {k : Nat} (hk : k ≠ h) (sw : Sweep) : (s.sweepClosed h sw).sweeping k = s.sweeping k := by
  rw [State.sweeping, State.sweeping, State.sweepClosed, State.updSl_sl_other _ hk, put_keeps sweep_journalFree, State.unplan_sl]

theorem filterBack_same (b : Bool) : s.SameButRegs (s.filterBack h b) := by
  unfold State.filterBack
  split
  · exact (setFlag_same _ _ _ _).trans ((setFlag_same _ _ _ _).trans (setFlag_same _ _ _ _))
  · exact .refl s

theorem filterBack_reg_other {o : Nat} (ho : o ≠ oSl h 0x28) (b : Bool) : (s.filterBack h b).reg o = s.reg o := by
  unfold State.filterBack
  split
  · rw [reg_setFlag_other _ _ _ ho, reg_setFlag_other _ _ _ ho, reg_setFlag_other _ _ _ ho]
  · rfl

theorem filterBack_true : (s.filterBack h true).flag (oSl h 0x28) 0 = true ∧ (s.filterBack h true).flag (oSl h 0x28) 1 = false ∧
    (s.filterBack h true).flag (oSl h 0x28) 4 = false := by
  simp only [State.filterBack, if_true]
  refine ⟨?_, ?_, flag_setFlag_same _ _ _ _ (by omega)⟩
  · rw [flag_setFlag_apart _ _ _ _ _ (by omega), flag_setFlag_apart _ _ _ _ _ (by omega), flag_setFlag_same _ _ _ _ (by omega)]
  · rw [flag_setFlag_apart _ _ _ _ _ (by omega), flag_setFlag_same _ _ _ _ (by omega)]

theorem sweepBitEnd_same : s.SameButRegs (s.sweepBitEnd h) := by
  unfold State.sweepBitEnd
  split
  · exact .refl s
  · exact setFlag_same _ _ _ _

theorem sweepBitEnd_reg_other {o : Nat} (ho : ∀ e, o ≠ oSl e 0x90) : (s.sweepBitEnd h).reg o = s.reg o := by
  unfold State.sweepBitEnd
  split
  · rfl
  · exact reg_setFlag_other _ _ _ (ho _)

theorem sweepBitEnd_flag (hn : ¬ (s.engine (buddy h) = s.engine h ∧ s.sweeping (buddy h) = true)) :
    (s.sweepBitEnd h).flag (oSl (s.engine h) 0x90) 6 = false := by
  have hc : (decide (s.engine (buddy h) = s.engine h) && s.sweeping (buddy h)) = false := by simpa using hn
  rw [State.sweepBitEnd, hc, if_neg Bool.false_ne_true]
  exact flag_setFlag_same _ _ _ _ (by omega)

end

/-- What the end of a sweep leaves (R245, R421). -/
theorem endSweep_reads {s : State} {h : Nat} {sw : Sweep} (hs : (s.sl h).sweep = some sw) (hd : s.sweepDone h sw = true)
    (ho : s.rangeOpen h = true) :
    ((s.endSweep h).sl h).sweep = none ∧ ((s.endSweep h).sl h).rebuildOn = false ∧ (s.endSweep h).flag (oEvtPend 0) 27 = true ∧
      (s.endSweep h).reg (oSl h 0x28) = ((s.sweepClosed h sw).filterBack h (s.sl h).rebuildOn).reg (oSl h 0x28) ∧
      ∀ e, (s.endSweep h).reg (oSl e 0x90) = (((s.sweepClosed h sw).filterBack h (s.sl h).rebuildOn).sweepBitEnd h).reg (oSl e 0x90) := by
  obtain ⟨code, hx⟩ := endSweep_eq hs hd ho
  obtain ⟨hsw, hre⟩ := sweepClosed_sl s h sw
  have hsl : ((((s.sweepClosed h sw).filterBack h (s.sl h).rebuildOn).sweepBitEnd h).raise 27 code (BitVec.ofNat 64 h)).sl h =
      (s.sweepClosed h sw).sl h := by
    rw [raise_sl, (sweepBitEnd_same _ h).sl, (filterBack_same _ h _).sl]
  rw [hx]
  refine ⟨?_, ?_, ?_, ?_, fun e => ?_⟩
  · rw [maintNext_sl_keeps Slice.sweep (fun _ _ _ => rfl), hsl, hsw]
  · rw [maintNext_sl_keeps Slice.rebuildOn (fun _ _ _ => rfl), hsl, hre]
  · rw [flag_congr (maintNext_reg _ h fun e => by simp only [oSl, oEvtPend]; omega)]
    exact raise_flag _ 27 _ _
  · rw [maintNext_reg _ h fun e => by simp only [oSl]; omega, raise_reg_other (j := 27) _ _ _ (by simp only [oSl, oEvtPend]; omega),
      sweepBitEnd_reg_other _ h fun e => by simp only [oSl]; omega]
  · rw [maintNext_reg _ h fun e => by simp only [oSl]; omega, raise_reg_other (j := 27) _ _ _ (by simp only [oSl, oEvtPend]; omega)]

/-- The flags that the end of a sweep leaves, of a rebuild or of a takeover (R245, R421). -/
theorem endSweep_flags {s : State} {h : Nat} {sw : Sweep} (hs : (s.sl h).sweep = some sw) (hd : s.sweepDone h sw = true)
    (ho : s.rangeOpen h = true) :
    ((s.sl h).rebuildOn = true → (s.endSweep h).flag (oSl h 0x28) 0 = true ∧ (s.endSweep h).flag (oSl h 0x28) 1 = false ∧
      (s.endSweep h).flag (oSl h 0x28) 4 = false) ∧
    ((s.sl h).rebuildOn = false → (s.endSweep h).reg (oSl h 0x28) = s.reg (oSl h 0x28)) ∧
    (¬ (s.engine (buddy h) = s.engine h ∧ s.sweeping (buddy h) = true) → (s.endSweep h).flag (oSl (s.engine h) 0x90) 6 = false) := by
  obtain ⟨-, -, -, hfilter, hrole⟩ := endSweep_reads hs hd ho
  have hreg {o : Nat} (ho : o ≠ oFlip) := sweepClosed_reg s h ho sw
  refine ⟨fun hb => ?_, fun hb => ?_, fun hn => ?_⟩
  · rw [flag_congr hfilter, flag_congr hfilter, flag_congr hfilter, hb]
    exact filterBack_true (s.sweepClosed h sw) h
  · rw [hfilter, hb, ← hreg (by simp only [oSl, oFlip]; omega)]
    rfl
  · have he (k : Nat) : ((s.sweepClosed h sw).filterBack h (s.sl h).rebuildOn).engine k = s.engine k :=
      engine_congr ((filterBack_reg_other _ h (by simp only [oSl]; omega) _).trans (hreg (by simp only [oSl, oFlip]; omega)))
    have hk : ((s.sweepClosed h sw).filterBack h (s.sl h).rebuildOn).sweeping (buddy h) = s.sweeping (buddy h) := by
      rw [← sweepClosed_sweeping s h (buddy_ne h) sw, State.sweeping, State.sweeping, (filterBack_same _ h _).sl]
    rw [flag_congr (hrole _), ← he h]
    exact sweepBitEnd_flag _ h (by rw [he, he, hk]; exact hn)

/-- Settles O52: `sweepStart`, the rows of the sweep, `endSweep` and `takeReport`. -/
theorem rebuildSweepTakesReports : Obligations.RebuildSweepTakesReports := by
  refine ⟨fun s h t ht => ?_, fun s h sw hin hh ho hs => ⟨fun hr ha => ?_, fun a ha hl hq hc => ?_, fun hd => ⟨?_, ?_⟩⟩,
    fun s a w sw ho hm hw hs hl hf => ?_⟩
  · obtain ⟨hsw, hre, hfl, htx, hwaits⟩ := sweepStart_reads ht
    exact ⟨hsw, hre, hfl, htx, fun a ha hf hc => ⟨s.sweepWait a, hwaits a ha hf hc, rfl, rfl, rfl, rfl, rfl⟩⟩
  · exact exec_reportApply hin hh ho hs hr ha
  · exact exec_reportRepeat hin hh ho hs ha hl hq hc
  · exact exec_sweepEnd hin hh ho hs hd
  · obtain ⟨hsw, hre, hev, -, -⟩ := endSweep_reads hs hd ho
    exact ⟨hsw, hre, hev, endSweep_flags hs hd ho⟩
  · have hu : s.sampleAnswer (.response .rspReport a) = s.takeReport a := (sampleAnswer_report ho).trans (taken_of_fits hf)
    obtain ⟨hout, hrep, hwaits⟩ := takeReport_reads hm hw hs hl
    rw [hu]
    exact ⟨rfl, hout, hrep, fun hb => hwaits.trans (if_pos hb), fun hb => hwaits.trans (if_neg (by rw [hb]; decide))⟩

end Sys2Proof.Machine
end

section
/-! SUPPORT. The statement about sampling: a `WbDirty` at its port, the next request that a slice samples, and a credit on its way back. -/

namespace Sys2Proof.Machine

/-! ## A `WbDirty` at its port (R154, R187) -/

/-- A `WbDirty` for a homed line is injected toward its slice (R154, R249). -/
theorem exec_wbDirty_injected {s : State} {a : Arrival} (h : s.Enters .wbDirty a) (hn : isNcLane a.lane = false)
    (hu : s.unhomed (parseReq .wbDirty a s.frame) = false) :
    exec (.wbDirty a) s = .next (s.injectReq
      { dest := s.phys (s.homeOf (parseReq .wbDirty a s.frame)), home := s.homeOf (parseReq .wbDirty a s.frame)
        req := parseReq .wbDirty a s.frame }) := by
  obtain ⟨hin, hr⟩ := h.serves
  have hc (k : Nat) : s.closedAgent a (parseReq .wbDirty a s.frame).src k = none := by
    simpa [hn] using h.closedAgent_none k
  show execWbDirty a s = _
  simp only [execWbDirty, need_of (decide_eq_true h.lane), h.opcode, State.inService, hin, hr, h.passes, hc, hu, bne_self_eq_false,
    Bool.not_false, Bool.not_true, Bool.and_self, Bool.or_self, Bool.false_eq_true, if_false, live_next hin]
  rfl

/-! ## The order of sampling (R269) -/

theorem minBy_none {α : Type} {key : α → Nat} {l : List α} (h : minBy key l = none) : l = [] := by
  cases l with
  | nil => rfl
  | cons a l =>
    rw [minBy] at h
    split at h
    · cases h
    · split at h <;> cases h

/-- `minBy` finds an element of the list, and none has a smaller key. -/
theorem minBy_some {α : Type} {key : α → Nat} {l : List α} {x : α} (h : minBy key l = some x) : x ∈ l ∧ ∀ y ∈ l, key x ≤ key y := by
  induction l generalizing x with
  | nil => cases h
  | cons a l ih =>
    rw [minBy] at h
    split at h
    next hm =>
      cases h
      simp [minBy_none hm]
    next y hm =>
      obtain ⟨hy, hle⟩ := ih hm
      split at h
      next hlt =>
        cases h
        exact ⟨List.mem_cons_of_mem _ hy, by simpa using ⟨hlt.le, hle⟩⟩
      next hge =>
        cases h
        exact ⟨List.mem_cons_self, by simpa using fun z hz => (Nat.le_of_not_lt hge).trans (hle z hz)⟩

theorem mem_samplesDue {s : State} {k : Nat} {n : NetReq} :
    n ∈ s.samplesDue k ↔ n ∈ s.net ∧ s.weirOf n = k ∧ s.pairLost n.home = false ∧ ∃ f, n.reached = some f ∧ f < s.frame := by
  cases hr : n.reached <;> simp [State.samplesDue, hr, and_assoc]

/-- The next request that a slice samples reached it in an earlier frame, and none of those stands before it (R249, R269). -/
theorem nextSample_first {s : State} {k : Nat} {n : NetReq} (h : s.nextSample k = some n) :
    n ∈ s.net ∧ s.weirOf n = k ∧ (∃ f, n.reached = some f ∧ f < s.frame) ∧
      ∀ m ∈ s.net, s.weirOf m = k → s.pairLost m.home = false → (∃ f, m.reached = some f ∧ f < s.frame) → n.rank ≤ m.rank := by
  obtain ⟨hn, hle⟩ := minBy_some h
  obtain ⟨hnet, hk, -, hf⟩ := mem_samplesDue.mp hn
  exact ⟨hnet, hk, hf, fun m hm hmk hp hmf => hle m (mem_samplesDue.mpr ⟨hm, hmk, hp, hmf⟩)⟩

/-! ## What sampling does with a request (R190, R268, R388) -/

theorem exec_requestSample {s : State} {k : Nat} {n : NetReq} (hin : s.inReset = false) (hr : s.ready = true) (hk : k < s.nSlices)
    (hl : n.req.lane < 24) (hn : s.nextSample k = some n) (hd : s.refillDue = false) :
    exec (.requestSample k n.req.lane) s = .next (s.held (s.takeSample n)) := by
  show execRequestSample k n.req.lane s = _
  rw [execRequestSample, need_of (by simp [hk, hl]), hn]
  exact live_due hin (by simp [State.inService, hin, hr, hd])

/-- The slice has taken a request off its ingress. -/
def State.ingressTaken (s : State) (n : NetReq) : State := { s with net := s.net.erase n }

theorem takeSample_eq (s : State) (n : NetReq) :
    s.takeSample n =
      let u := s.ingressTaken n
      let v := u.sample (s.weirOf n) n.home { n.req with flits := [] }
      if !(n.req.nc || s.sluice n.req.src) then u.lateRequest n.home { n.req with flits := [] }
      else if n.req.op = .wbDirty && u.wbFull n.home n.req.src then u.malformed n.req.lane 7 n.req.hdr
      else if u.fits false v then v else { u.recorded false v with late := (u.recorded false v).late ++ [.sample n] } := rfl

section
variable {s : State} {n : NetReq}

/-- A request whose agent's sluice has closed is discarded (log entry 20). -/
theorem takeSample_late (hn : n.req.nc = false) (hc : s.sluice n.req.src = false) :
    s.takeSample n = (s.ingressTaken n).lateRequest n.home { n.req with flits := [] } := by
  rw [takeSample_eq, hn, hc]
  rfl

variable (ho : (n.req.nc || s.sluice n.req.src) = true)
include ho

/-- A `WbDirty` whose agent has all its entries taken is discarded (R190). -/
theorem takeSample_wbFull (hw : n.req.op = .wbDirty) (hf : (s.ingressTaken n).wbFull n.home n.req.src = true) :
    s.takeSample n = (s.ingressTaken n).malformed n.req.lane 7 n.req.hdr := by
  rw [takeSample_eq]
  simp [ho, hw, hf]

/-- Any other is sampled, where the records of what absorbs it fit in the frame (R268, R388). -/
theorem takeSample_sampled (hw : n.req.op ≠ .wbDirty ∨ (s.ingressTaken n).wbFull n.home n.req.src = false)
    (hf : (s.ingressTaken n).fits false ((s.ingressTaken n).sample (s.weirOf n) n.home { n.req with flits := [] }) = true) :
    s.takeSample n = (s.ingressTaken n).sample (s.weirOf n) n.home { n.req with flits := [] } := by
  have hw' : (decide (n.req.op = .wbDirty) && (s.ingressTaken n).wbFull n.home n.req.src) = false := by
    rcases hw with hw | hw <;> simp [hw]
  rw [takeSample_eq]
  simp [ho, hw', hf]

end

/-! ## A credit on its way back (R292, R293) -/

/-- A returned credit reaches its lane (R293). -/
def State.creditBack (s : State) (l k : Nat) (c0 : Bool) : State :=
  (s.updSl k fun sl => { sl with returning := sl.returning.erase (l, c0) }).addCredit l k c0 1

theorem creditBack_reads (s : State) (l k : Nat) (c0 : Bool) :
    (s.creditBack l k c0).pool l k c0 = s.pool l k c0 + 1 ∧ ((s.creditBack l k c0).sl k).returning = (s.sl k).returning.erase (l, c0) := by
  refine ⟨?_, ?_⟩
  · rw [State.creditBack, pool_addCredit]
    rfl
  · rw [State.creditBack, State.sl, addCredit_slices]
    exact congrArg Slice.returning (State.updSl_sl_same s k _)

/-- What waits for the credits of a pool in its lane (R292). -/
def LaneSt.waiting (x : LaneSt) (c0 : Bool) : List NetReq := if c0 then x.waitC0 else x.waitGen

theorem creditBack_lane (s : State) (l k : Nat) (c0 : Bool) :
    ((s.creditBack l k c0).lane l).waiting c0 = (s.lane l).waiting c0 ∧ ((s.creditBack l k c0).lane l).blocked = (s.lane l).blocked := by
  rw [State.creditBack, State.addCredit, State.setLane_lane_same]
  cases c0 <;> exact ⟨rfl, rfl⟩

/-- A lane whose wait queue for a pool is empty injects nothing, and keeps its credits (R292). -/
theorem injectFrom_nil_reads (s : State) (l k : Nat) (c0 : Bool) :
    (injectFrom s l c0 [] []).pool l k c0 = s.pool l k c0 ∧ ((injectFrom s l c0 [] []).lane l).blocked = (s.lane l).blocked := by
  rw [injectFrom, State.setLane_lane_same]
  cases c0 <;> simp [State.pool, State.laneC0, State.laneGen]

theorem unblock_of_none {s : State} {l : Nat} (h : (s.lane l).blocked = none) : s.unblock l = s := by
  rw [State.unblock, h]

/-- A credit that nothing waits for reaches its lane, and no more happens (R293). -/
theorem exec_laneCreditReturn {s : State} {l k : Nat} {c0 : Bool} (hin : s.inReset = false) (hl : l < 24) (hk : k < s.nSlices)
    (hm : (l, c0) ∈ (s.sl k).returning) (hw : (s.lane l).waiting c0 = []) (hb : (s.lane l).blocked = none) :
    exec (.laneCreditReturn l k c0) s = .next (s.held (injectFrom (s.creditBack l k c0) l c0 [] [])) := by
  obtain ⟨hwait, hblocked⟩ := creditBack_lane s l k c0
  show live s (need _ (when' _ s ((injectFrom (s.creditBack l k c0) l c0 (((s.creditBack l k c0).lane l).waiting c0) []).unblock l))) = _
  rw [row_due hin (by simp [hl, hk]) (by simpa using hm), hwait, hw,
    unblock_of_none ((injectFrom_nil_reads _ l k c0).2.trans (hblocked.trans hb))]

/-- Settles O40: the row of `WbDirty` injects, `takeSample` samples or discards, and a credit reaches its lane. -/
theorem requestsAreSampled : Obligations.RequestsAreSampled := by
  refine ⟨fun s a h hn hu => exec_wbDirty_injected h hn hu, fun s k n hin hr hk hl hn hd => ?_, fun s l k c0 hin hl hk hm hw hb => ?_⟩
  · have hx := exec_requestSample hin hr hk hl hn hd
    refine ⟨nextSample_first hn, fun ho => ?_, fun hn hc => hx.trans (by rw [takeSample_late hn hc]; rfl)⟩
    have ho' := Bool.or_eq_true_iff.mpr ho
    exact ⟨fun hw hf => hx.trans (by rw [takeSample_sampled ho' hw hf]; rfl), fun hw hf => hx.trans (by rw [takeSample_wbFull ho' hw hf]; rfl)⟩
  · obtain ⟨hpool, hret⟩ := creditBack_reads s l k c0
    refine ⟨_, exec_laneCreditReturn hin hl hk hm hw hb, (injectFrom_nil_reads _ l k c0).1.trans hpool, ?_⟩
    cases c0 <;> exact ⟨rfl, rfl, hret⟩

end Sys2Proof.Machine
end

section
/-! SUPPORT. The statement about the minimum hold: the `AckGo` that begins it, and the release at its end. -/

namespace Sys2Proof.Machine

/-! ## The minimum hold (R157) -/

/-- The minimum hold of a transaction has begun with the `AckGo` of an agent (R157, R166). -/
structure State.HoldBegun (s u : State) (h t a : Nat) : Prop where
  txn  : u.txn h t = { s.txn h t with st := .holding, waits := [], holdEnd := some (s.frame + s.fld oHome 0 6) }
  took : (u.ag a).took = true
  out  : u.out = s.out

theorem holdBegun_tookFrom (s : State) (h t a : Nat) :
    s.HoldBegun ((s.upd h t fun x => { x with st := .holding, waits := [], holdEnd := some (s.frame + s.fld oHome 0 6) }).tookFrom a) h t a where
  txn := by rw [State.tookFrom, State.updAg_txn, upd_txn]
  took := by rw [State.tookFrom, State.updAg_ag_same]
  out := by rw [State.tookFrom, State.updAg_out, upd_out]

section
variable {s u : State} {h t a : Nat} (hu : s.HoldBegun u h t a)
include hu

theorem State.HoldBegun.updSl (k : Nat) {f : Slice → Slice} (hf : ∀ v, (f v).txns = v.txns) : s.HoldBegun (u.updSl k f) h t a :=
  ⟨(txn_updSl _ _ _ _ _ hf).trans hu.txn, hu.took, hu.out⟩

theorem State.HoldBegun.planIf (b : Bool) (f k v : Nat) (c : Act) : s.HoldBegun (if b then u.plan f k v c else u) h t a := by
  cases b with
  | false => exact hu
  | true => exact ⟨(u.plan_txn f k v c h t).trans hu.txn, by rw [if_pos rfl, State.plan_ag]; exact hu.took, (u.plan_out f k v c).trans hu.out⟩

end

/-- An `AckGo` that meets its wait begins the hold; beside that a far atomic's line is watched (R310), and a hold of no frames is over. -/
theorem respond_ackGo {s : State} {a : Arrival} {h t : Nat} (hh : rHslice (headOf a.flits) = h) (ht : rHtid (headOf a.flits) = t)
    (hm : s.matches h t (rEpoch (headOf a.flits)) = true) (hl : (s.txn h t).hasLine (rAddr (headOf a.flits)) = true)
    (hst : (s.txn h t).st = .ackwait) (hsrc : (s.txn h t).req.src = hAgent (headOf a.flits))
    (hw : ((s.txn h t).waits.any fun w => w.kind == .ackGo) = true) :
    s.HoldBegun (s.respond .ackGo a) h t (hAgent (headOf a.flits)) := by
  subst hh ht
  have hu := holdBegun_tookFrom s (rHslice (headOf a.flits)) (rHtid (headOf a.flits)) (hAgent (headOf a.flits))
  simp only [State.respond, hm, hl, hst, hsrc, hw, Bool.not_true, Bool.false_eq_true, if_false, decide_true, Bool.and_self, if_true]
  refine State.HoldBegun.planIf ?_ _ _ _ _ _
  split
  · exact hu.updSl _ fun _ => rfl
  · exact hu

/-! ## The release (R158, R161, R163) -/

theorem put_out (s : State) (h t : Nat) (x : Txn) : (s.put h t x).out = s.out := by
  obtain ⟨r, m, y, hp⟩ := put_same s h t x; rw [hp]

theorem unclaim_out (s : State) (h t : Nat) : (s.unclaim h t).out = s.out := by
  unfold State.unclaim
  split
  · split <;> rfl
  · rfl

theorem releaseLine_out (s : State) (h t : Nat) (l : LineAddr) : (s.releaseLine h t l).out = s.out := by
  unfold State.releaseLine
  dsimp only
  split
  · rfl
  · exact upd_out _ _ _ _

/-- A release sends nothing, and its tag is free (R158). -/
theorem release_reads (s : State) (h t : Nat) : ((s.release h t).txn h t).st = .free ∧ (s.release h t).out = s.out := by
  unfold State.release
  dsimp only
  split
  next hf => exact ⟨hf, rfl⟩
  · refine ⟨by rw [put_txn], ?_⟩
    rw [put_out]
    exact foldl_keeps (P := fun u => u.out = s.out) _ (unclaim_out s h t) fun u l _ hu => (releaseLine_out u h t l).trans hu

/-- Work that is planned leaves what no command drives. -/
theorem held_plan (s : State) (f h t : Nat) (c : Act) : s.held (s.plan f h t c) = s.plan f h t c :=
  State.held_eq s (s.plan_inReset f h t c) (s.plan_fusing f h t c) (s.plan_pending f h t c) (s.plan_frame f h t c) (s.plan_ring f h t c)

/-- Settles O47: `respond` begins the hold, and `release` frees the tag. -/
theorem ackGoHoldsThenReleases : Obligations.AckGoHoldsThenReleases := by
  refine ⟨fun s a ho hm hl hst hf hsrc hw => ?_, fun s h t f hin hh ht he hst hd ho => ⟨?_, release_reads s h t⟩⟩
  · have hb := respond_ackGo rfl rfl hm hl hst hsrc hw
    rw [(sampleAnswer_open ho (by decide)).trans (taken_of_fits hf)]
    exact ⟨by rw [hb.txn], by rw [hb.txn], by rw [hb.txn], hb.took, hb.out⟩
  · show live s (need _ _) = _
    rw [need_of (by simp [hh, ht])]
    dsimp only
    rw [he]
    exact (live_due hin (by simp [hst, hd, ho])).trans (by rw [held_plan])

end Sys2Proof.Machine
end

section
/-! SUPPORT. The statement about presence counts and journal records, which fails where the buddy has retired its store: a change of a
transaction is also a write of its conflict-table word (R378), and that write leaves the state as it was only where no check bits of the word
stand inverted. -/

namespace Sys2Proof.Machine

/-! ## A change of a transaction whose record nobody keeps (R378, R391) -/

/-- Toward a retired store a change of a transaction sends nothing: it only writes the tag's conflict-table word. -/
theorem jr_of_retired {s : State} {h t : Nat} (hr : s.flag (oSl (buddy h) 0x88) 1 = true) : s.jr h t = s.flipTable h t := by
  have ho : oSl (buddy h) 0x88 ≠ oFlip := by simp only [oSl, oFlip]; omega
  simp [State.jr, flag_congr (reg_flipTable_other ho s h t), hr]

/-- A write of a tag's conflict-table word with the flip mask disarmed stores the word without inverted check bits (R378). -/
theorem flipTable_of_disarmed {s : State} {h t : Nat} (hf : s.flag oFlip 0 = false) (hs : s.sliceFailed h = false) :
    ((s.flipTable h t).sl h).tflips = tputD 0 t 0 (s.sl h).tflips := by
  simp [State.flipTable, State.withFlip, State.flipStore, hf, hs]

/-- Slice 1 has retired its journal store, and the tester has inverted a check bit of the conflict-table word of tag 0 of slice 0. -/
def retiredWithInvertedWord : State := (State.reset.setFlag (oSl 1 0x88) 1 true).updSl 0 fun sl => { sl with tflips := [(0, 1)] }

/-- Refutes O54: its clause about a retired store says that a change of a transaction changes nothing there, but the change writes the tag's
conflict-table word as well, and in `retiredWithInvertedWord` that write clears an inverted check bit. -/
theorem not_presenceCountsAndJournalRecords : ¬ Obligations.PresenceCountsAndJournalRecords := by
  rintro ⟨-, hrec, -⟩
  have hretired : retiredWithInvertedWord.flag (oSl (buddy 0) 0x88) 1 = true := flag_setFlag_same _ _ _ _ (by decide)
  have hdisarmed : retiredWithInvertedWord.flag oFlip 0 = false := by decide
  have hserving : retiredWithInvertedWord.sliceFailed 0 = false := by decide
  have hsame : retiredWithInvertedWord.jr 0 0 = retiredWithInvertedWord := (hrec retiredWithInvertedWord 0 0 hdisarmed).1 hretired
  have hword := flipTable_of_disarmed (t := 0) hdisarmed hserving
  rw [← jr_of_retired hretired, hsame] at hword
  revert hword
  decide

end Sys2Proof.Machine
end

section
/-! SUPPORT. The statement about slots: what the weir and the selvedge slot issue. -/

namespace Sys2Proof.Machine

/-! ## Readings that the work of a slot leaves alone -/

/-- A field that begins at bit `lo` of the register at `o` lies apart from every ROLE (R393). -/
def RoleApart (o lo : Nat) : Prop := ∀ k, o = oSl k 0x90 → 2 ≤ lo

/-- No condition on the fields that are written. -/
def AnyField (_ _ : Nat) : Prop := True

/-- What issuing gives a transaction: its frame and slot, tenant and class, and how it stands to its lines (R128, R131, R588). -/
def Txn.issued (x : Txn) : Nat × Nat × Nat × Nat × Nat × Option Nat := (x.issue, x.slot, x.ten, x.cls, x.locked, x.resumeAt)

/-- Nothing of a transaction. -/
def Txn.nothing (_ : Txn) : Unit := ()

theorem Txn.nothing_eq (x y : Txn) : x.nothing = y.nothing := rfl

/-- A reading of the state that sees of the registers nothing in the fields of `R`, of a transaction at most `κ`, and of a slice, beside its
transactions, at most its used slots and its replay queue. -/
structure Unseen {β γ : Type} (R : Nat → Nat → Prop) (κ : Txn → β) (obs : State → γ) : Prop where
  apart : ∀ {o lo : Nat}, RoleApart o lo → R o lo
  fld : ∀ (s : State) {o lo : Nat} (w v : Nat), R o lo → obs (s.setFld o lo w v) = obs s
  mark : ∀ (s : State) (o lo n : Nat), obs (s.mark o lo n) = obs s
  slice : ∀ (s : State) (k : Nat) (f : Slice → Slice), (∀ v, (f v).slots = v.slots ∧ (f v).replayQ = v.replayQ ∧ (f v).txns = v.txns) →
    obs (s.updSl k f) = obs s
  txn : ∀ (s : State) (h t : Nat) (x : Txn), κ x = κ (s.txn h t) → obs (s.setTxn h t x) = obs s
  jr : ∀ (s : State) (h t : Nat), obs (s.jr h t) = obs s
  agenda : ∀ (s : State) (l : List Todo), obs { s with agenda := l } = obs s
  faults : ∀ (s : State) (l : List (Nat × Nat)) (c : Cistern), obs { s with failDue := l, cistern := c } = obs s
  pmc : ∀ (s : State) (p : Pmc), obs { s with pmc := p } = obs s

theorem unseen_frame {β : Type} (κ : Txn → β) : Unseen AnyField κ State.frame where
  apart _ := trivial
  fld _ _ _ _ _ _ := rfl
  mark _ _ _ _ := rfl
  slice _ _ _ _ := rfl
  txn _ _ _ _ _ := rfl
  jr s h t := by obtain ⟨r, m, x, e⟩ := jr_same s h t; rw [e]
  agenda _ _ := rfl
  faults _ _ _ := rfl
  pmc _ _ := rfl

/-- A field of a slice that is its used slots or its replay queue. -/
theorem unseen_slice {β α : Type} (κ : Txn → β) {g : Slice → α} (hj : JournalFree g)
    (hg : ∀ v w : Slice, v.slots = w.slots → v.replayQ = w.replayQ → g v = g w) (k : Nat) : Unseen AnyField κ fun s => g (s.sl k) where
  apart _ := trivial
  fld _ _ _ _ _ _ := rfl
  mark _ _ _ _ := rfl
  slice s j _ hf := updSl_keeps g (fun v => hg _ _ (hf v).1 (hf v).2.1) s j k
  txn s h t x _ := updSl_keeps g (f := fun sl => { sl with txns := tputD {} t x sl.txns }) (fun _ => hg _ _ rfl rfl) s h k
  jr s h t := jr_keeps hj s h t k
  agenda _ _ := rfl
  faults _ _ _ := rfl
  pmc _ _ := rfl

theorem unseen_slots {β : Type} (κ : Txn → β) (k : Nat) : Unseen AnyField κ fun s => (s.sl k).slots :=
  unseen_slice κ (g := Slice.slots) (fun _ _ _ _ _ _ _ => rfl) (fun _ _ h _ => h) k

theorem unseen_replayQ {β : Type} (κ : Txn → β) (k : Nat) : Unseen AnyField κ fun s => (s.sl k).replayQ :=
  unseen_slice κ (g := Slice.replayQ) (fun _ _ _ _ _ _ _ => rfl) (fun _ _ _ h => h) k

theorem unseen_role {β : Type} (κ : Txn → β) (k : Nat) : Unseen RoleApart κ fun s => s.role k where
  apart h := h
  fld s o lo w v h := by
    by_cases he : oSl k 0x90 = o
    · subst he; exact fld_setFld_apart s _ _ _ _ _ _ (.inr (h k rfl))
    · exact fld_setFld_other s _ _ _ _ _ he
  mark _ _ _ _ := rfl
  slice _ _ _ _ := rfl
  txn _ _ _ _ _ := rfl
  jr s h t := fld_congr (reg_jr_other (by simp only [oSl, oFlip]; omega) s h t) 0 2
  agenda _ _ := rfl
  faults _ _ _ := rfl
  pmc _ _ := rfl

theorem unseen_issued (k u : Nat) : Unseen AnyField Txn.issued fun s => (s.txn k u).issued where
  apart _ := trivial
  fld _ _ _ _ _ _ := rfl
  mark _ _ _ _ := rfl
  slice s j f hf := congrArg Txn.issued (txn_updSl s j f k u fun v => (hf v).2.2)
  txn s h t x hx := by
    by_cases hk : k = h ∧ u = t
    · obtain ⟨rfl, rfl⟩ := hk; rw [State.setTxn_txn_same, hx]
    · rw [State.setTxn_txn_other _ (by tauto)]
  jr s h t := by rw [jr_txn]
  agenda _ _ := rfl
  faults _ _ _ := rfl
  pmc _ _ := rfl

/-- A reading that does not see the replay queues. -/
def ReplayFree {γ : Type} (obs : State → γ) : Prop :=
  ∀ (s : State) (k : Nat) (q : Slice → List Nat), obs (s.updSl k fun sl => { sl with replayQ := q sl }) = obs s

theorem roleApart_sl {k p lo : Nat} (hp : p < 0x10000) (h : p ≠ 0x90 ∨ 2 ≤ lo) : RoleApart (oSl k p) lo := by
  intro j e
  simp only [oSl] at e
  omega

theorem roleApart_low {o lo : Nat} (h : o < 0x100000) : RoleApart o lo := by
  intro j e
  simp only [oSl] at e
  omega

namespace Unseen

section
variable {β γ : Type} {R : Nat → Nat → Prop} {κ : Txn → β} {obs : State → γ} (hu : Unseen R κ obs)

theorem ite_reads {c : Prop} [Decidable c] {a b : State} {x : γ} (ha : obs a = x) (hb : obs b = x) : obs (if c then a else b) = x := by
  split
  · exact ha
  · exact hb

theorem foldl_reads {α : Type} {f : State → α → State} (hf : ∀ u a, obs (f u a) = obs u) (l : List α) (s : State) :
    obs (l.foldl f s) = obs s :=
  foldl_keeps (P := fun u => obs u = obs s) l rfl fun u a _ h => (hf u a).trans h

include hu

/-! Registers and events. -/

/-- A change of a slice that writes out its fields. -/
theorem updSl (s : State) (k : Nat) (f : Slice → Slice)
    (hf : ∀ v, (f v).slots = v.slots ∧ (f v).replayQ = v.replayQ ∧ (f v).txns = v.txns := by exact fun _ => ⟨rfl, rfl, rfl⟩) :
    obs (s.updSl k f) = obs s := hu.slice s k f hf

theorem incFld (s : State) {o lo : Nat} (w n : Nat) (h : R o lo) : obs (s.incFld o lo w n) = obs s :=
  (hu.mark _ o lo n).trans (hu.fld s _ _ h)

theorem noteFld (s : State) {o lo : Nat} (w v : Nat) (h : R o lo) : obs (s.noteFld o lo w v) = obs s :=
  (hu.mark _ o lo 1).trans (hu.fld s _ _ h)

theorem setFlag (s : State) {o b : Nat} (v : Bool) (h : R o b) : obs (s.setFlag o b v) = obs s := by
  cases v with
  | false => exact hu.fld s 1 0 h
  | true => exact (hu.mark _ o b 1).trans (hu.fld s 1 1 h)

/-- A field of a register of a slice window, apart from ROLE. -/
theorem sl {k p lo : Nat} (hp : p < 0x10000) (h : p ≠ 0x90 ∨ 2 ≤ lo) : R (oSl k p) lo := hu.apart (roleApart_sl hp h)

theorem pendSl (s : State) (k i : Nat) : obs (s.pendSl k i) = obs s := by
  unfold State.pendSl
  split
  · exact hu.setFlag s true (hu.sl (by decide) (.inl (by decide)))
  · exact hu.setFlag s true (hu.sl (by decide) (.inl (by decide)))

theorem raiseSl (s : State) (k i code : Nat) (d : BitVec 64) : obs (s.raiseSl k i code d) = obs s := by
  unfold State.raiseSl
  dsimp only
  split
  · split
    · exact (hu.updSl _ _ _).trans (hu.pendSl s k i)
    · exact (hu.incFld _ _ _ (hu.sl (by decide) (.inl (by decide)))).trans (hu.pendSl s k i)
  · exact hu.pendSl s k i

theorem failSlice (s : State) (f c : Nat) : obs (s.failSlice f c) = obs s := by
  unfold State.failSlice
  split
  · rfl
  · exact hu.faults s _ s.cistern

theorem faultDue (s : State) (x c : Nat) (d : BitVec 64) : obs (s.faultDue x c d) = obs s :=
  (hu.setFlag _ true (hu.apart (roleApart_low (by decide)))).trans (hu.faults s s.failDue _)

theorem bankFailure (s : State) (k b : Nat) : obs (s.bankFailure k b) = obs s := by
  unfold State.bankFailure
  dsimp only
  rw [hu.faultDue, hu.failSlice]
  split
  · rfl
  · exact hu.updSl _ _ _

theorem poisonCreated (s : State) (k c a : Nat) (l : LineAddr) (t : Nat) : obs (s.poisonCreated k c a l t) = obs s :=
  (hu.raiseSl _ _ _ _ _).trans ((hu.noteFld _ _ _ (hu.sl (by decide) (.inl (by decide)))).trans
    (hu.incFld _ _ _ (hu.sl (by decide) (.inl (by decide)))))

/-! Errors in a bank whose counts the reading does not see. -/

section
variable {k b : Nat} (hb : ∀ lo, R (oSl k (0x200 + 8 * b)) lo)
include hb

theorem uncorrectable (s : State) (set tier : Nat) : obs (s.uncorrectable k b set tier) = obs s := by
  have hr := (hu.raiseSl (s.incFld (oSl k (0x200 + 8 * b)) 32 8 1) k (16 + b) 0 (setDetail set tier)).trans (hu.incFld s 8 1 (hb 32))
  unfold State.uncorrectable
  dsimp only
  have hs (sets : List (Nat × Nat)) (n : Nat) := (hu.fld _ 3 n (hb 40)).trans ((hu.updSl _ k fun sl => { sl with ucSets := sets }).trans hr)
  exact ite_reads (ite_reads ((hu.bankFailure _ _ _).trans (hs _ _)) (hs _ _)) hr

variable (hl : R (oLifeCe (16 * k + b)) 0)
include hl

theorem correctable (s : State) (set tier : Nat) : obs (s.correctable k b set tier) = obs s := by
  have hr := (hu.incFld _ 8 1 (hb 0)).trans ((hu.incFld _ 32 1 hl).trans (hu.incFld s 16 1 (hb 16)))
  unfold State.correctable
  dsimp only
  split
  · exact (hu.raiseSl _ _ _ _ _).trans ((hu.setFlag _ false (hb 8)).trans hr)
  · exact hr

theorem readDec (s : State) (set : Nat) (d : FlipDec) : obs (s.readDec k b set d) = obs s := by
  cases d with
  | clean => rfl
  | bad => exact hu.uncorrectable hb s set 2
  | fixed | wrong => exact hu.correctable hb hl s set 2

end

/-! Stores, queues and transactions. -/

theorem flipStore (s : State) (k bank : Nat) : obs (s.flipStore k bank).2 = obs s := by
  unfold State.flipStore
  split
  · exact (hu.setFlag _ true (hu.apart (roleApart_low (by decide)))).trans (hu.setFlag s false (hu.apart (roleApart_low (by decide))))
  · rfl

theorem flipWord (s : State) (k bank : Nat) (e : Entry) : obs (s.flipWord k bank e).2 = obs s := by
  unfold State.flipWord
  split
  · exact (hu.setFlag _ true (hu.apart (roleApart_low (by decide)))).trans (hu.setFlag s false (hu.apart (roleApart_low (by decide))))
  · rfl

theorem withFlip (s : State) (k bank : Nat) {f : State → BitVec 8 → State} (hf : ∀ u m, obs (f u m) = obs u) :
    obs (s.withFlip k bank f) = obs s := (hf _ _).trans (hu.flipStore s k bank)

theorem put (s : State) (h t : Nat) {x : Txn} (hx : κ x = κ (s.txn h t)) : obs (s.put h t x) = obs s := (hu.jr _ h t).trans (hu.txn s h t x hx)

theorem upd (s : State) (h t : Nat) {f : Txn → Txn} (hf : ∀ x, κ (f x) = κ x) : obs (s.upd h t f) = obs s := hu.put s h t (hf _)

theorem bumpEpoch (s : State) (h t : Nat) : obs (s.bumpEpoch h t) = obs s := hu.updSl s h _

theorem plan (s : State) (f k t : Nat) (c : Act) : obs (s.plan f k t c) = obs s := ite_reads rfl (hu.agenda s _)

theorem unplan (s : State) (k t : Nat) : obs (s.unplan k t) = obs s := hu.agenda s _

theorem chargeP (s : State) (e t k : Nat) : obs (s.chargeP e t k) = obs s := ite_reads (hu.updSl s e _) rfl

theorem freeEntry (s : State) (k : Nat) (q : QReq) : obs (s.freeEntry k q) = obs s := ite_reads rfl (hu.updSl s k _)

theorem dropQueued (s : State) (e : Nat) (q : QReq) : obs (s.dropQueued e q) = obs s :=
  (hu.freeEntry _ _ _).trans ((hu.updSl _ _ _).trans (ite_reads (hu.chargeP s _ _ _) rfl))

theorem setChain (s : State) (h : Nat) (l : LineAddr) (new : List Nat) : obs (s.setChain h l new) = obs s :=
  (foldl_reads (fun u t => ite_reads rfl (hu.jr u h t)) _ _).trans (hu.updSl s h _)

theorem leaveChain (s : State) (h t : Nat) (l : LineAddr) : obs (s.leaveChain h t l) = obs s := hu.setChain s h l _

theorem setMerge (s : State) (h i : Nat) (m : Merge) : obs (s.setMerge h i m) = obs s := by
  unfold State.setMerge
  split
  next f u e =>
    refine (hu.updSl u h _).trans ?_
    split at e
    · exact (congrArg (fun p => obs p.2) e).symm.trans (hu.flipStore s h 14)
    · exact (congrArg (fun p => obs p.2) e).symm

/-! Deferred records (R388). -/

theorem noteDefer (s : State) (k : Nat) : obs (s.noteDefer k) = obs s :=
  ite_reads rfl ((hu.updSl _ _ _).trans (hu.incFld s 24 1 (hu.sl (by decide) (.inl (by decide)))))

theorem recorded (s : State) (c0 : Bool) {r : State} (h : obs r = obs s) : obs (s.recorded c0 r) = obs s :=
  ite_reads h (foldl_reads hu.noteDefer _ s)

theorem recordedFor (s : State) (h t : Nat) {r : State} (hr : obs r = obs s) : obs (s.recordedFor h t r) = obs s :=
  ite_reads hr ((hu.updSl _ _ _).trans (hu.recorded s _ hr))

/-! Store entries that are read (R343). -/

theorem storeBank (k lo : Nat) : R (oSl k (0x200 + 8 * 15)) lo := hu.sl (by decide) (.inl (by decide))

theorem storeLife (k : Nat) : R (oLifeCe (16 * k + 15)) 0 := hu.apart fun j e => by
  simp only [oLifeCe, oSl] at e
  omega

theorem readStore (s : State) (q : QReq) (w : StoreRead) : obs (s.readStore q w).1 = obs s := by
  have hd (u : State) (d : FlipDec) : obs (u.readDec q.home 15 0 d) = obs u := hu.readDec (hu.storeBank _) (hu.storeLife _) u 0 d
  have hc (a b : FlipDec) : obs (if a = .bad then (s.readDec q.home 15 0 a).readDec q.home 15 0 b else s.readDec q.home 15 0 a) = obs s :=
    ite_reads ((hd _ b).trans (hd s a)) (hd s a)
  unfold State.readStore
  dsimp only
  split
  · exact hc _ _
  · exact (hd _ _).trans (hc _ _)

theorem lostRequest (s : State) (e : Nat) (q : QReq) : obs (s.lostRequest e q) = obs s :=
  (hu.raiseSl _ _ _ _ _).trans ((hu.incFld _ _ _ (hu.sl (by decide) (.inr (by decide)))).trans (hu.dropQueued s e q))

theorem headerGone (s : State) (e : Nat) (q : QReq) : obs (s.headerGone e q) = obs s :=
  ite_reads (hu.lostRequest s e q) ((hu.updSl _ _ _).trans (hu.failSlice s _ _))

theorem takeStored (s : State) (e : Nat) (q : QReq) {f : State → Req → Bool → State} (hf : ∀ u r b, obs (f u r b) = obs u) :
    obs (s.takeStored e q f) = obs s := by
  have hr := hu.readStore s q ⟨.clean, .clean, .clean⟩
  unfold State.takeStored
  split
  next n hn => rw [hn] at hr; exact (hu.headerGone n e q).trans hr
  next n r b hn => rw [hn] at hr; exact (hf _ _ _).trans ((hu.dropQueued n e q).trans hr)

end

/-! ## What comes before the choice of the weir -/

section
variable {γ : Type} {R : Nat → Nat → Prop} {obs : State → γ} (hu : Unseen R Txn.nothing obs)
include hu

theorem putAny (s : State) (h t : Nat) (x : Txn) : obs (s.put h t x) = obs s := hu.put s h t (Txn.nothing_eq _ _)

theorem updAny (s : State) (h t : Nat) (f : Txn → Txn) : obs (s.upd h t f) = obs s := hu.putAny s h t _

theorem absorb (s : State) (h t : Nat) (r : Req) : obs (s.absorb h t r) = obs s := by
  unfold State.absorb State.addDirty
  exact hu.withFlip s h 14 fun u _ => hu.updAny u h t _

theorem absorbQueued (s : State) (h t : Nat) (l : LineAddr) (names : State → Nat → Bool) : obs (s.absorbQueued h t l names) = obs s := by
  unfold State.absorbQueued
  refine (foldl_reads (fun u v => ?_) _ _).trans (foldl_reads (fun u q => ?_) _ s)
  · dsimp only
    split
    · rw [hu.absorb, hu.putAny, hu.setChain]
    · rfl
  · exact ite_reads (hu.takeStored u _ q fun u r _ => hu.absorb u h t r) rfl

theorem absorbDue (s : State) (e : Nat) : obs (s.absorbDue e) = obs s := by
  unfold State.absorbDue
  refine foldl_reads (fun u d => ?_) _ s
  dsimp only
  exact ite_reads rfl (hu.recordedFor u d.slice d.tag (foldl_reads (fun v j => hu.absorbQueued v _ _ _ _) _ u))

theorem mergeReq (s : State) (e : Nat) (q : QReq) (t m : Nat) : obs (s.mergeReq e q t m) = obs s := by
  unfold State.mergeReq
  refine hu.takeStored s e q fun u _ _ => ?_
  rw [hu.incFld _ _ _ (hu.sl (by decide) (.inl (by decide))), hu.updAny, hu.setMerge]

theorem mergeAll (s : State) (e : Nat) : obs (s.mergeAll e) = obs s := by
  unfold State.mergeAll
  refine foldl_reads (fun u q => ?_) _ s
  split
  · exact hu.recordedFor u _ _ (hu.mergeReq u e q _ _)
  · rfl

theorem beforeSlot (s : State) (e : Nat) : obs (s.beforeSlot e) = obs s := (hu.mergeAll _ e).trans (hu.absorbDue s e)

end

/-! ## What a transaction does as it issues -/

section
variable {γ : Type} {obs : State → γ} (hu : Unseen AnyField Txn.issued obs)
include hu

theorem count (s : State) (k ev : Nat) (filter : Option (Nat × Nat)) : obs (s.count k ev filter) = obs s := by
  unfold State.count
  refine ite_reads rfl (foldl_reads (fun u i => ?_) _ s)
  dsimp only
  exact ite_reads (ite_reads ((hu.pmc _ _).trans ((hu.setFlag _ true trivial).trans (hu.fld u _ _ trivial))) (hu.fld u _ _ trivial)) rfl

/-! Lines. -/

theorem updIssued (s : State) (h t : Nat) (f : Txn → Txn) (hf : ∀ x, (f x).issued = x.issued := by exact fun _ => by simp only [Txn.issued]) :
    obs (s.upd h t f) = obs s := hu.upd s h t hf

theorem passWaiters (h limit : Nat) (ws : List Nat) (s : State) : obs (ws.foldl (fun u w =>
    let y := u.txn h w
    let p := !y.promoted && decide (limit ≤ y.passed + 1)
    let v := u.upd h w fun y => { y with passed := y.passed + 1, promoted := y.promoted || p }
    if p then v.incFld (oSl (v.engine h) 0x10) 22 8 1 else v) s) = obs s :=
  foldl_reads (fun u w => (ite_reads (hu.incFld _ _ _ trivial) rfl).trans (hu.updIssued u h w _)) ws s

theorem joinChain (s : State) (h t : Nat) (l : LineAddr) (cls : Nat) : obs (s.joinChain h t l cls) = obs s := by
  unfold State.joinChain
  dsimp only
  split
  · exact (ite_reads (hu.updIssued _ _ _ _) rfl).trans ((hu.passWaiters _ _ _ _).trans (hu.setChain _ _ _ _))
  · exact (hu.passWaiters _ _ _ _).trans (hu.setChain _ _ _ _)

theorem touchMove (s : State) (h : Nat) (x : SectorAddr) : obs (s.touchMove h x) = obs s := by
  refine hu.slice s h _ fun v => ?_
  split
  · split
    · exact ⟨rfl, rfl, rfl⟩
    · exact ⟨rfl, rfl, rfl⟩
  · exact ⟨rfl, rfl, rfl⟩

/-! The reads of a probe (R137). -/

theorem zeroSet (s : State) (k : Nat) (ev : Bool) (set : Nat) : obs (s.zeroSet k ev set) = obs s := by
  unfold State.zeroSet
  cases ev with
  | false =>
    simp only [Bool.false_eq_true, if_false]
    exact ite_reads ((hu.updSl _ _ _).trans (hu.flipWord s k _ 0)) rfl
  | true =>
    simp only [if_true]
    exact ite_reads ((hu.updSl _ _ _).trans (hu.updSl s k _)) rfl

theorem zeroSector (s : State) (h : Nat) (x : SectorAddr) : obs (s.zeroSector h x) = obs s :=
  ite_reads ((hu.zeroSet _ _ _ _).trans (hu.zeroSet s _ _ _)) (hu.zeroSet s _ _ _)

theorem readBank (s : State) (k b set tier : Nat) :
    obs (s.correctable k b set tier) = obs s ∧ obs (s.uncorrectable k b set tier) = obs s :=
  ⟨hu.correctable (fun _ => trivial) trivial s set tier, hu.uncorrectable (fun _ => trivial) s set tier⟩

theorem readRepl (s : State) (k : Nat) (ev : Bool) (set : Nat) : obs (s.readRepl k ev set) = obs s := by
  unfold State.readRepl
  refine ite_reads ((hu.slice _ _ _ fun _ => ?_).trans (hu.readBank s _ _ _ _).1) rfl
  cases ev with
  | false | true => exact ⟨rfl, rfl, rfl⟩

theorem touch (s : State) (k : Nat) (ev : Bool) (set way : Nat) (last : Bool) : obs (s.touch k ev set way last) = obs s := by
  unfold State.touch
  refine (hu.slice _ _ _ fun _ => ?_).trans (hu.readRepl s k ev set)
  cases ev with
  | false | true => exact ⟨rfl, rfl, rfl⟩

theorem readHeat (s : State) (k set way : Nat) : obs (s.readHeat k set way) = obs s :=
  ite_reads ((hu.updSl _ _ _).trans (hu.readBank s _ _ _ _).1) rfl

theorem heatHit (s : State) (h set way : Nat) (x : SectorAddr) : obs (s.heatHit h set way x) = obs s :=
  ite_reads rfl ((hu.updSl _ _ _).trans (hu.readHeat s h set way))

theorem readLine (s : State) (h : Nat) (l : Loc) (j : Nat) : obs (s.readLine h l j) = obs s := by
  unfold State.readLine
  split
  · rfl
  · exact ite_reads rfl ((hu.updSl _ _ _).trans (hu.readBank s _ _ _ _).1)
  · exact (hu.readBank s _ _ _ _).2

theorem orphan (s : State) (h : Nat) (ls : List Loc) : obs (s.orphan h ls) = obs s :=
  foldl_reads (fun u _ => ite_reads rfl ((hu.updSl _ _ _).trans (hu.readBank u _ _ _ _).2)) ls s

theorem probeNow (s : State) (h e : Nat) (l : LineAddr) : obs (s.probeNow h e l).2 = obs s := by
  unfold State.probeNow
  dsimp only
  have hz : obs (if (s.zeroSector h (sectorOf l)).evganPresent then (s.zeroSector h (sectorOf l)).useEvgan h 1
      else s.zeroSector h (sectorOf l)) = obs s :=
    (ite_reads (hu.updSl _ _ _) rfl).trans (hu.zeroSector s h (sectorOf l))
  split
  · refine (ite_reads (hu.updSl _ _ _) rfl).trans ?_
    rw [hu.readLine, hu.count, hu.touch, hu.orphan, hz]
  · rw [hu.heatHit, hu.readLine, hu.count, hu.touch, hu.orphan, hz]
  · rw [hu.readLine, hu.count, hu.orphan, hz]
  · rw [hu.count, hu.orphan, hz]

/-! Frame I. -/

theorem takeMerge (s : State) (h t : Nat) : obs (s.takeMerge h t) = obs s := by
  unfold State.takeMerge
  split
  · rfl
  · exact (hu.updIssued _ _ _ _).trans (hu.setMerge _ _ _ _)

theorem beginRun (s : State) (h t : Nat) : obs (s.beginRun h t) = obs s := by
  unfold State.beginRun
  dsimp only
  split
  · exact ite_reads ((hu.updIssued _ _ _ _).trans (hu.updIssued _ _ _ _)) ((hu.plan _ _ _ _ _).trans (hu.updIssued _ _ _ _))
  · refine (ite_reads (ite_reads (hu.takeMerge _ _ _) (hu.updIssued _ _ _ _)) rfl).trans
      ((ite_reads (hu.plan _ _ _ _ _) rfl).trans ((hu.plan _ _ _ _ _).trans ?_))
    rw [apply_ite Prod.snd]
    refine (ite_reads rfl (hu.probeNow _ _ _ _)).trans ((hu.touchMove _ _ _).trans (hu.updIssued _ _ _ _))

theorem replay (s : State) (h t : Nat) : obs (s.replay h t) = obs s :=
  ite_reads ((hu.plan _ _ _ _ _).trans (hu.updIssued _ _ _ _)) (hu.beginRun s h t)

/-! A header that fails its parity (R342). -/

section
variable (hq : ReplayFree obs)
include hq

theorem abort (s : State) (h t : Nat) : obs (s.abort h t) = obs s := by
  unfold State.abort
  dsimp only
  exact (hq _ _ _).trans ((hu.updIssued _ _ _ _).trans ((hu.bumpEpoch _ _ _).trans (hu.unplan _ _ _)))

theorem headerFail (s : State) (h t : Nat) : obs (s.headerFail h t) = obs s := by
  unfold State.headerFail
  dsimp only
  split
  · rw [hu.failSlice, hu.raiseSl, hu.incFld _ _ _ trivial]
  · refine (hu.abort hq _ _ _).trans ((hu.updIssued _ _ _ _).trans ?_)
    rw [hu.raiseSl, hu.incFld _ _ _ trivial]

theorem passHeader (s : State) (b : Bool) (h t : Nat) : obs (s.passHeader b h t) = obs s := ite_reads (hu.headerFail hq s h t) rfl

end

end

end Unseen

/-! ## What issues (R131, R135, R197, R411, R588) -/

/-- A request whose transaction locks no line (R83, R333, R440). -/
def Req.noLine (r : Req) : Bool := r.op == .agentSleep || r.op == .fence || (r.op == .wrPart && r.mask == 0)

/-- The state in which a request's transaction takes its tag: the request has left its queue, and the epoch has advanced. -/
def State.tagTaken (s : State) (e t : Nat) (q : QReq) (r : Req) (bad : Bool) : State :=
  let s := s.updSl e fun sl =>
    { sl with queued := sl.queued.erase q, c0q := sl.c0q.erase q
              vtime := if q.cls ≠ 0 && before32 sl.vtime q.fin then q.fin else sl.vtime }
  let s := s.freeEntry q.home q
  (if bad then s.poisonCreated q.home 2 r.src (lineOf r.addr) t else s).bumpEpoch q.home t

/-- The transaction of a request that issues in a slot, before it holds or awaits its line. -/
def State.newTxn (s : State) (slot : Nat) (q : QReq) (r : Req) (bad : Bool) : Txn :=
  { req := r, ten := q.ten, cls := q.cls, color := q.color, held := q.held, cost := q.cost, line := lineOf r.addr
    want := if r.noLine then 0 else 1, issue := s.frame, slot := slot, far := s.servedFar q.home { q with req := r }, madePoison := bad
    noticed := r.op == .fence && !s.fenceOpen r }

/-- The events of an issue are counted (R544). -/
def State.issueCounted (s : State) (e : Nat) (q : QReq) (r : Req) (far : Bool) : State :=
  let s := s.count e 2 (some (q.ten, q.cls))
  let s := if q.color = .yellow then s.count e 0xA (some (q.ten, q.cls)) else s
  if r.op == .atomNear || r.op == .atomFar then s.count e (if far then 0xC else 0xB) none else s

theorem issueReq_eq (s : State) (e n t : Nat) (q : QReq) (r : Req) (bad : Bool) :
    s.issueReq e n t q r bad =
      let u := s.tagTaken e t q r bad
      let x := u.newTxn n q r bad
      let v := u.issueCounted e q r x.far
      if !r.noLine && v.lineBusy q.home x.line then
        ((v.put q.home t { x with st := .waiting }).joinChain q.home t x.line q.cls).count e 9 (some (q.ten, q.cls))
      else (v.put q.home t { x with locked := if r.noLine then 0 else 1 }).beginRun q.home t := rfl

section
variable {γ : Type} {obs : State → γ} (hn : Unseen AnyField Txn.nothing obs) (hu : Unseen AnyField Txn.issued obs)
include hn

theorem Unseen.tagTaken (s : State) (e t : Nat) (q : QReq) (r : Req) (bad : Bool) : obs (s.tagTaken e t q r bad) = obs s := by
  unfold State.tagTaken
  dsimp only
  exact (hn.bumpEpoch _ _ _).trans ((Unseen.ite_reads (hn.poisonCreated _ _ _ _ _ _) rfl).trans ((hn.freeEntry _ _ _).trans (hn.updSl _ _ _)))

include hu

theorem Unseen.issueReq (s : State) (e n t : Nat) (q : QReq) (r : Req) (bad : Bool) : obs (s.issueReq e n t q r bad) = obs s := by
  have hc (u : State) (far : Bool) : obs (u.issueCounted e q r far) = obs u :=
    (Unseen.ite_reads (hu.count _ _ _ _) rfl).trans ((Unseen.ite_reads (hu.count _ _ _ _) rfl).trans (hu.count _ _ _ _))
  rw [issueReq_eq]
  dsimp only
  split
  · rw [hu.count, hu.joinChain, hn.putAny, hc, hn.tagTaken]
  · rw [hu.beginRun, hn.putAny, hc, hn.tagTaken]

end

theorem issueReq_issued (s : State) (e n t : Nat) (q : QReq) (r : Req) (bad : Bool) :
    ∃ l a, ((s.issueReq e n t q r bad).txn q.home t).issued = (s.frame, n, q.ten, q.cls, l, a) := by
  have hu := unseen_issued q.home t
  have hf : (s.tagTaken e t q r bad).frame = s.frame := (unseen_frame Txn.nothing).tagTaken s e t q r bad
  rw [issueReq_eq, ← hf]
  dsimp only
  split
  · exact ⟨_, _, (hu.count _ _ _ _).trans ((hu.joinChain _ _ _ _ _).trans (congrArg Txn.issued (put_txn _ _ _ _)))⟩
  · exact ⟨_, _, (hu.beginRun _ _ _).trans (congrArg Txn.issued (put_txn _ _ _ _))⟩

theorem Txn.issued_eq_iff {x : Txn} {f n d c l : Nat} {a : Option Nat} :
    x.issued = (f, n, d, c, l, a) ↔ x.issue = f ∧ x.slot = n ∧ x.ten = d ∧ x.cls = c ∧ x.locked = l ∧ x.resumeAt = a := by
  simp only [Txn.issued, Prod.mk.injEq]

theorem locked_of_issued {x y : Txn} (h : x.issued = y.issued) : x.locked = y.locked := congrArg (fun p => p.2.2.2.2.1) h

theorem replayFree_txn (k u : Nat) : ReplayFree fun s => (s.txn k u).issued := fun s j q =>
  congrArg Txn.issued (txn_updSl s j (fun sl => { sl with replayQ := q sl }) k u fun _ => rfl)

theorem replayFree_slots (k : Nat) : ReplayFree fun s => (s.sl k).slots := fun s j q =>
  updSl_keeps Slice.slots (f := fun sl => { sl with replayQ := q sl }) (fun _ => rfl) s j k

/-- A home transaction that takes lines loses none (R588). -/
theorem locked_le_takeLines (h t n : Nat) (s : State) : (s.txn h t).locked ≤ ((s.takeLines h t n).txn h t).locked := by
  have hu := unseen_issued h t
  induction n generalizing s with
  | zero => exact le_refl _
  | succ n ih =>
    unfold State.takeLines
    dsimp only
    split
    · refine (locked_of_issued ?_).ge
      exact (hu.plan _ _ _ _ _).trans (hu.updIssued _ _ _ _)
    · generalize (if (s.txn h t).want = 4 then lineIn (sectorOf (s.txn h t).line) (s.txn h t).locked else (s.txn h t).line) = l
      split
      · refine (locked_of_issued ?_).ge
        exact (hu.joinChain _ _ _ _ _).trans (hu.updIssued _ _ _ _)
      · refine le_trans ?_ (ih _)
        rw [upd_txn]
        exact Nat.le_succ _

theorem failSlice_due (s : State) (f c : Nat) : ∃ d, (f, d) ∈ (s.failSlice f c).failDue := by
  unfold State.failSlice
  split
  next h =>
    obtain ⟨p, hp, hf⟩ := List.any_eq_true.mp h
    exact ⟨p.2, by rwa [← beq_iff_eq.mp hf]⟩
  next => exact ⟨c, List.mem_append_right _ (List.mem_singleton_self _)⟩

theorem recorded_of_fits {s r : State} {c0 : Bool} (h : s.fits c0 r = true) : s.recorded c0 r = r := if_pos h

theorem recordedFor_of_fits {s r : State} {h t : Nat} (hf : s.fits (s.isC0 h t) r = true) : s.recordedFor h t r = r := if_pos hf

theorem passHeader_of_right (s : State) (h t : Nat) : s.passHeader false h t = s := rfl

/-! A slot is used. -/

theorem useSlot_slots (s : State) (e n : Nat) : ((s.useSlot e n).sl e).slots = (s.sl e).slots ||| 1 <<< n :=
  congrArg Slice.slots (State.updSl_sl_same s e _)

theorem beforeSlot_frame (s : State) (e : Nat) : (s.beforeSlot e).frame = s.frame := (unseen_frame Txn.nothing).beforeSlot s e

theorem slotUsed_slots (s : State) (e n : Nat) : (((s.beforeSlot e).useSlot e n).sl e).slots = (s.sl e).slots ||| 1 <<< n := by
  rw [useSlot_slots, (unseen_slots Txn.nothing e).beforeSlot s e]

section
variable {s k : State} {e n t : Nat} {q : QReq} {w : StoreRead} {a : Option (Req × Bool)}
  (hr : ((s.beforeSlot e).useSlot e n).readStore q w = (k, a))
include hr

theorem storeRead_frame : k.frame = s.frame := by
  have hk := (unseen_frame Txn.nothing).readStore ((s.beforeSlot e).useSlot e n) q w
  rw [hr] at hk
  exact hk.trans (beforeSlot_frame s e)

theorem storeRead_slots : (k.sl e).slots = (s.sl e).slots ||| 1 <<< n := by
  have hk := (unseen_slots Txn.nothing e).readStore ((s.beforeSlot e).useSlot e n) q w
  rw [hr] at hk
  exact hk.trans (slotUsed_slots s e n)

theorem storeRead_sliceFailed (h : Nat) : k.sliceFailed h = s.sliceFailed h := by
  have hk := (unseen_role Txn.nothing h).readStore ((s.beforeSlot e).useSlot e n) q w
  rw [hr] at hk
  exact congrArg (· == 1) (hk.trans ((unseen_role Txn.nothing h).beforeSlot s e))

end

/-- What SLOT_ISSUE does once the store entry is read (R342, R343). -/
def State.afterRead (v : State) (b : Bool) (e n t : Nat) (q : QReq) : State × Option (Req × Bool) → State
  | (k, none) => k.headerGone e q
  | (k, some (r, p)) => v.recorded (q.cls == 0) ((k.issueReq e n t q r p).passHeader b q.home t)

/-- A slot of the engine exists. -/
theorem slot_exists {s : State} {e n : Nat} (he : e < s.nSlices) (hn : n < 16) : (decide (e < s.nSlices) && decide (n < 16)) = true := by
  rw [Bool.and_eq_true, decide_eq_true_iff, decide_eq_true_iff]
  exact ⟨he, hn⟩

section
variable {s : State} {e n : Nat} (hin : s.inReset = false) (he : e < s.nSlices) (hn : n < 15) (hf : s.slotFree e n = true)
include hin he hn hf

theorem exec_slotIssue {b : Bool} {q : QReq} {t : Nat} (w : StoreRead)
    (hp : (s.beforeSlot e).pick e n = .head q t ∨ (s.beforeSlot e).pick e n = .c0 q t) :
    exec (.slotIssue ⟨e, b⟩ n w) s = .next (s.held (((s.beforeSlot e).useSlot e n).afterRead b e n t q
      (((s.beforeSlot e).useSlot e n).readStore q w))) := by
  show execSlotIssue ⟨e, b⟩ n w s = _
  unfold execSlotIssue
  dsimp only
  rw [need_of (slot_exists he (by omega)), hf]
  rcases hp with hp | hp
  all_goals
    rw [hp]
    dsimp only
    rcases ((s.beforeSlot e).useSlot e n).readStore q w with ⟨k, _ | ⟨r, p⟩⟩
    · exact live_next hin _
    · exact live_next hin _

theorem exec_waiterResume {b : Bool} {h t : Nat} (hp : (s.beforeSlot e).pick e n = .resume h t) :
    let x := (s.beforeSlot e).txn h t
    let v := (s.beforeSlot e).useSlot e n
    exec (.waiterResume ⟨e, b⟩ n) s = .next (s.held (v.recorded (x.cls == 0)
      (((((v.count e 2 (some (x.ten, x.cls))).leaveChain h t x.line).upd h t fun x =>
        { x with locked := 1, resumeAt := none }).beginRun h t).passHeader b h t))) := by
  show execWaiterResume ⟨e, b⟩ n s = _
  unfold execWaiterResume
  dsimp only
  rw [need_of (slot_exists he (by omega)), hf, hp]
  exact live_next hin _

end

/-! What the shared choice issued. -/

section
variable {s k : State} {e n t : Nat} {q : QReq} {w : StoreRead}

theorem slotIssue_reads {r : Req} {p : Bool} (b : Bool) (hr : ((s.beforeSlot e).useSlot e n).readStore q w = (k, some (r, p))) :
    let x := (k.issueReq e n t q r p).passHeader b q.home t
    (x.txn q.home t).issue = s.frame ∧ (x.txn q.home t).slot = n ∧ (x.txn q.home t).ten = q.ten ∧ (x.txn q.home t).cls = q.cls ∧
      (x.sl e).slots = (s.sl e).slots ||| 1 <<< n := by
  obtain ⟨l, a, hi⟩ := issueReq_issued k e n t q r p
  have hx := ((unseen_issued q.home t).passHeader (replayFree_txn q.home t) _ b q.home t).trans hi
  rw [storeRead_frame hr] at hx
  obtain ⟨h1, h2, h3, h4, -⟩ := Txn.issued_eq_iff.mp hx
  refine ⟨h1, h2, h3, h4, ?_⟩
  have hs := unseen_slots Txn.issued e
  exact (hs.passHeader (replayFree_slots e) _ b q.home t).trans
    (((unseen_slots Txn.nothing e).issueReq hs k e n t q r p).trans (storeRead_slots hr))

theorem headerGone_reads (hr : ((s.beforeSlot e).useSlot e n).readStore q w = (k, none)) :
    (s.sliceFailed q.home = true → k.headerGone e q = k.lostRequest e q) ∧
      (s.sliceFailed q.home = false → ∃ c, (q.home, c) ∈ (k.headerGone e q).failDue) := by
  rw [← storeRead_sliceFailed hr q.home]
  refine ⟨fun h => if_pos h, fun h => ?_⟩
  rw [State.headerGone, h]
  exact failSlice_due k q.home 4

end

/-- A waiter takes the line that was released to it (R135). -/
def Txn.lineTaken (x : Txn) : Txn := { x with locked := 1, resumeAt := none }

theorem waiterResume_reads (s : State) (e n h t : Nat) (b : Bool) :
    let x := (s.beforeSlot e).txn h t
    let u := ((((((s.beforeSlot e).useSlot e n).count e 2 (some (x.ten, x.cls))).leaveChain h t x.line).upd h t fun x =>
      { x with locked := 1, resumeAt := none }).beginRun h t).passHeader b h t
    (u.txn h t).locked = 1 ∧ (u.txn h t).resumeAt = none ∧ (u.sl e).slots = (s.sl e).slots ||| 1 <<< n := by
  have hi := unseen_issued h t
  have hs := unseen_slots Txn.issued e
  have hx (w : State) := (hi.passHeader (replayFree_txn h t) ((w.upd h t Txn.lineTaken).beginRun h t) b h t).trans
    ((hi.beginRun _ h t).trans (congrArg Txn.issued (upd_txn w h t Txn.lineTaken)))
  have hy (w : State) := (hs.passHeader (replayFree_slots e) ((w.upd h t Txn.lineTaken).beginRun h t) b h t).trans
    ((hs.beginRun _ h t).trans ((unseen_slots Txn.nothing e).updAny w h t Txn.lineTaken))
  exact ⟨locked_of_issued (hx _), congrArg (fun p => p.2.2.2.2.2) (hx _),
    (hy _).trans ((hs.leaveChain _ _ _ _).trans ((hs.count _ _ _ _).trans (slotUsed_slots s e n)))⟩

/-! The selvedge slot. -/

theorem useSelvedge_issued (s : State) (e h t : Nat) : ((s.useSelvedge e).txn h t).issued = (s.txn h t).issued :=
  ((unseen_issued h t).count _ e 4 none).trans
    (congrArg Txn.issued (txn_updSl s e (fun sl => { sl with slots := sl.slots ||| 0x8000 }) h t fun _ => rfl))

theorem exec_replayIssue {s : State} {h t : Nat} {l : List Nat} {b : Bool} (hin : s.inReset = false) (hr : s.ready = true) (hh : h < s.nSlices)
    (hq : (s.sl h).replayQ = t :: l) (ho : s.rangeOpen h = true) (hs : s.selvTurn h (.replay t) = true) :
    exec (.replayIssue h b) s = .next (s.held ((s.useSelvedge (s.engine h)).recordedFor h t
      ((((s.useSelvedge (s.engine h)).updSl h fun sl => { sl with replayQ := l }).replay h t).passHeader b h t))) := by
  show execReplayIssue h b s = _
  unfold execReplayIssue
  dsimp only
  rw [hq]
  exact row_due hin (decide_eq_true hh) (by rw [ho, hs, State.inService, hin, hr]; rfl)

theorem replay_queue (v : State) (h t : Nat) (l : List Nat) : (((v.updSl h fun sl => { sl with replayQ := l }).replay h t).sl h).replayQ = l :=
  ((unseen_replayQ Txn.issued h).replay _ h t).trans (congrArg Slice.replayQ (State.updSl_sl_same v h _))

theorem exec_homeWaiterResume {s : State} {h t : Nat} {k : HomeKind} {b : Bool} (hin : s.inReset = false) (hh : h < s.nSlices) (ht : t < 1024)
    (hk : (s.txn h t).home = some k) (hr : (s.txn h t).homeReady s.frame = true) (ho : s.rangeOpen h = true)
    (hs : s.selvTurn h (.waiter t k.rank) = true) :
    let v := s.useSelvedge (s.engine h)
    exec (.homeWaiterResume ⟨h, b⟩ t) s = .next (s.held (v.recorded false
      ((((v.leaveChain h t ((s.txn h t).lineAt (s.txn h t).locked)).upd h t
        fun x => { x with st := .home, locked := x.locked + 1, resumeAt := none }).takeLines h t 5).passHeader b h t))) := by
  show execHomeWaiterResume ⟨h, b⟩ t s = _
  unfold execHomeWaiterResume
  dsimp only
  rw [hk]
  exact row_due hin (by rw [Bool.and_eq_true, decide_eq_true_iff, decide_eq_true_iff]; exact ⟨hh, ht⟩) (by rw [hr, ho, hs]; rfl)

/-- A home waiter that resumes holds one line more (R588). -/
theorem homeWaiter_locked (s : State) (e h t : Nat) (l : LineAddr) (b : Bool) :
    (s.txn h t).locked < ((((((s.useSelvedge e).leaveChain h t l).upd h t
      fun x => { x with st := .home, locked := x.locked + 1, resumeAt := none }).takeLines h t 5).passHeader b h t).txn h t).locked := by
  have hi := unseen_issued h t
  rw [locked_of_issued (hi.passHeader (replayFree_txn h t) _ b h t)]
  refine lt_of_lt_of_le ?_ (locked_le_takeLines h t 5 _)
  rw [upd_txn]
  have hl := locked_of_issued ((hi.leaveChain (s.useSelvedge e) h t l).trans (useSelvedge_issued s e h t))
  show (s.txn h t).locked < _ + 1
  rw [hl]
  exact Nat.lt_succ_self _

theorem exec_takeoverReplay {s m v r : State} {f t n : Nat} {b : Bool} (hin : s.inReset = false) (hr : s.ready = true) (hf : f < s.nSlices)
    (h : (n = 15 ∧ m = s ∧ v = m.useSelvedge (s.engine f) ∧ m.oldestReplay (s.engine f) = some (f, t) ∧ s.selvTurn f .takeover = true) ∨
      (n < 15 ∧ m = s.beforeSlot (s.engine f) ∧ v = m.useSlot (s.engine f) n ∧
        m.pick (s.engine f) n = .replay f t ∧ s.slotFree (s.engine f) n = true))
    (ha : ((v.incFld (oSl (s.engine f) 0x90) 18 11 1).updSl f fun sl =>
      { sl with tk := { sl.tk with replays := sl.tk.replays.filter fun u => u != t } }).replayFrom f t = some r) :
    exec (.takeoverReplay ⟨f, b⟩ n) s = .next (s.held (r.passHeader b f t)) := by
  show execTakeoverReplay ⟨f, b⟩ n s = _
  unfold execTakeoverReplay
  dsimp only
  rcases h with ⟨rfl, rfl, rfl, ho, hs⟩ | ⟨hn, rfl, rfl, hp, hs⟩
  · have hi : m.inService = true := by rw [State.inService, hin, hr]; rfl
    rw [need_of (slot_exists hf (by decide))]
    simp only [↓reduceIte, hi, hs, ho, ha]
    exact live_next hin _
  · rw [need_of (slot_exists hf (by omega))]
    simp only [hn.ne, ↓reduceIte, hs, hp, ha]
    exact live_next hin _

/-- Settles O41: what the weir checks before a slot and the reads of the store change neither the slots that are used, nor the frame, nor which
slices have failed, and what follows the issue in the same frame leaves the transaction the slot, tenant, class and lock that it issued with. -/
theorem slotsServeTransactions : Obligations.SlotsServeTransactions := by
  refine ⟨fun s e n b hin he hn hf => ⟨fun q t w k hp => ⟨fun r p hr => ?_, fun hr => ?_⟩, fun h t hp => ?_⟩, ?_, ?_, ?_⟩
  · have hx := exec_slotIssue (b := b) hin he hn hf w hp
    rw [hr] at hx
    refine ⟨hx, fun hfit => ⟨_, hx.trans (congrArg _ (congrArg _ (recorded_of_fits hfit))), ?_⟩⟩
    exact slotIssue_reads b hr
  · have hx := exec_slotIssue (b := b) hin he hn hf w hp
    rw [hr] at hx
    exact ⟨hx, headerGone_reads hr⟩
  · have hx := exec_waiterResume (b := b) hin he hn hf hp
    exact ⟨hx, fun hfit => ⟨_, hx.trans (congrArg _ (congrArg _ (recorded_of_fits hfit))), waiterResume_reads s e n h t b⟩⟩
  · intro s h t l b hin hr hh hq ho hs
    have hx := exec_replayIssue (b := b) hin hr hh hq ho hs
    refine ⟨hx, fun hb hfit => ⟨_, hx.trans (congrArg _ (congrArg _ (recordedFor_of_fits hfit))), ?_⟩⟩
    subst hb
    exact replay_queue _ h t l
  · intro s h t k b hin hh ht hk hr ho hs
    have hx := exec_homeWaiterResume (b := b) hin hh ht hk hr ho hs
    exact ⟨hx, fun hfit => ⟨_, hx.trans (congrArg _ (congrArg _ (recorded_of_fits hfit))), homeWaiter_locked s _ h t _ b⟩⟩
  · intro s r f t n b hin hr hf e m h ha
    refine exec_takeoverReplay hin hr hf (m := m) ?_ ha
    rcases h with ⟨rfl, ho, hs⟩ | ⟨hn, hp, hs⟩
    · exact .inl ⟨rfl, if_pos rfl, if_pos rfl, ho, hs⟩
    · exact .inr ⟨hn, if_neg hn.ne, if_neg hn.ne, hp, hs⟩

end Sys2Proof.Machine
end

section
/-! SUPPORT. The statement about the watchdog: its row notes the timer, which fires at the end of the frame. -/

namespace Sys2Proof.Machine

/-- A noted timer is on the list of the frame, and nothing else has changed (R14). -/
theorem expireAt_reads (s : State) (x : Expiry) :
    x ∈ (s.expireAt x).expired ∧ (s.expireAt x).slices = s.slices ∧ (s.expireAt x).regs = s.regs ∧ (s.expireAt x).out = s.out := by
  unfold State.expireAt
  split
  next h => exact ⟨List.contains_iff_mem.mp h, rfl, rfl, rfl⟩
  next => exact ⟨List.mem_append_right _ (List.mem_singleton_self x), rfl, rfl, rfl⟩

theorem wdDue_of_count {s : State} {h t n : Nat} (hw : s.wdCount (s.txn h t) = some n) (hn : s.wdLimit ≤ n) (hf : (s.txn h t).st ≠ .free)
    (hq : (s.txn h t).st ≠ .waiting) (hs : (s.txn h t).home ≠ some .sweep) (ho : s.tagOpen h t = true) : s.wdDue h t = true := by
  simp [State.wdDue, hw, hn, hf, hq, hs, ho]

/-- Settles O50: a watchdog at its limit is due, so that its row notes the timer, and the timer then does what `State.watchdog` does. -/
theorem watchdogFires : Obligations.WatchdogFires := by
  intro s h t n hin hh ht hw hn hf hq hs ho
  have hdue : s.wdDue h t = true := wdDue_of_count hw hn hf hq hs ho
  have hexec : exec (.watchdogFire h t) s = .next (s.held (s.expireAt (.watchdog h t))) := row_due hin (by simp [hh, ht]) hdue
  refine ⟨⟨_, hexec, expireAt_reads s _⟩, ?_⟩
  show s.watchdog h t = _
  simp only [State.watchdog, hdue, Bool.not_true, Bool.false_eq_true, if_false]

end Sys2Proof.Machine
end

section
/-! SUPPORT. The statement about the ends of a transaction's waits, and the near atomic's execution. -/

namespace Sys2Proof.Machine

/-! ## The ends of waits -/

theorem tag_exists {s : State} {h t : Nat} (hh : h < s.nSlices) (ht : t < 1024) : (decide (h < s.nSlices) && decide (t < 1024)) = true := by
  rw [Bool.and_eq_true, decide_eq_true_iff, decide_eq_true_iff]
  exact ⟨hh, ht⟩

/-- A word that is written while the flip mask is disarmed is stored as it is (R378). -/
theorem flipWord_of_disarmed {s : State} (hf : s.flag oFlip 0 = false) (k bank : Nat) (e : Entry) : s.flipWord k bank e = (e, s) := by
  simp [State.flipWord, hf]

theorem txn_plan (s : State) (f k u : Nat) (c : Act) (h t : Nat) : (s.plan f k u c).txn h t = s.txn h t := by
  unfold State.plan
  dsimp only
  split
  · rfl
  · rfl

/-- A transaction that takes a merge entry holds the one that was free (R322). -/
theorem takeMerge_merge {s : State} {h t : Nat} (hi : (s.mergeFree h false).isSome = true) :
    ((s.takeMerge h t).txn h t).merge = s.mergeFree h false := by
  obtain ⟨i, hi⟩ := Option.isSome_iff_exists.mp hi
  simp only [State.takeMerge, hi, upd_txn]

/-- The `WrPart` goes on with its probe, which is planned unless it is done or stands on the agenda (R322, R411). -/
def State.mergeTaken (s : State) (h t : Nat) : State :=
  let u := (s.takeMerge h t).upd h t fun x => { x with st := if x.probed then x.stNow else .probing }
  if (s.txn h t).probed || u.agenda.any (fun d => d.slice == h && d.tag == t && d.act == .probe) then u
  else u.plan (s.frame + 1) h t .probe

theorem mergeTaken_merge {s : State} {h t : Nat} (hi : (s.mergeFree h false).isSome = true) :
    ((s.mergeTaken h t).txn h t).merge = s.mergeFree h false := by
  rw [← takeMerge_merge hi]
  unfold State.mergeTaken
  dsimp only
  split
  · rw [upd_txn]
  · rw [txn_plan, upd_txn]

section
variable {s : State} {h t : Nat} (hin : s.inReset = false) (hh : h < s.nSlices)
include hin hh

theorem exec_evganWriteDrain {k f : Nat} {e : Entry} {rest : List (Nat × Entry × Nat)} (hw : (s.sl h).wbuf = (k, e, f) :: rest)
    (hr : s.ready = true) (hf : f < s.frame) (hd : s.drainRoom h = true) (hm : s.flag oFlip 0 = false) :
    exec (.evganWriteDrain h) s =
      .next ((s.useLate h 1).updSl h fun sl => { sl with wbuf := rest, evgan := tputD 0 k e sl.evgan }) := by
  show execEvganWriteDrain h s = _
  unfold execEvganWriteDrain
  rw [hw]
  simp only [flipWord_of_disarmed hm]
  exact row_due hin (decide_eq_true hh) (by simp [State.inService, hin, hr, hf, hd])

variable (ht : t < 1024)
include ht

theorem exec_stageEntryObtain (ho : s.tagOpen h t = true) (hw : (s.txn h t).waitStage = true) (ha : (s.txn h t).waitAt < s.frame) :
    exec (.stageEntryObtain h t) s = .next (s.held (s.recordedFor h t (s.obtained h t))) :=
  row_due hin (tag_exists hh ht) (by simp [hw, ha, ho])

section
variable (ho : s.tagOpen h t = true) (hw : (s.txn h t).waitWbuf = true) (ha : (s.txn h t).waitAt < s.frame)
include ho hw ha

theorem exec_evganWriteEnter_request (hn : (s.txn h t).home = none) (hr : s.wbufRoom h (s.txn h t).cls = true) :
    exec (.evganWriteEnter h t) s = .next (s.held (s.recordedFor h t (s.obtained h t))) := by
  show execEvganWriteEnter h t s = _
  simp only [execEvganWriteEnter, hn, Option.isSome_none, Bool.false_eq_true, if_false]
  exact row_due hin (tag_exists hh ht) (by simp [hw, ha, ho, hr])

theorem exec_evganWriteEnter_home (hn : (s.txn h t).home.isSome = true) (hr : s.wbufRoom (s.homePlace h (s.txn h t)).1 3 = true) :
    exec (.evganWriteEnter h t) s =
      .next (s.held (s.recordedFor h t ((s.homeRecord h t).plan (s.frame + 1) h t .act))) := by
  show execEvganWriteEnter h t s = _
  simp only [execEvganWriteEnter, hn, if_true]
  exact row_due hin (tag_exists hh ht) (by simp [hw, ha, ho, hr])

end

theorem exec_mergeEntryTake (ho : s.tagOpen h t = true) (hg : (s.txn h t).gathers = true) (hl : (s.txn h t).locked = 1)
    (hf : (s.txn h t).st ≠ .free) (hq : (s.txn h t).st ≠ .waiting) (hn : (s.txn h t).merge = none) (hc : (s.txn h t).cmpSent = false)
    (hm : (s.txn h t).memDone = false) (hi : (s.mergeFree h false).isSome = true) :
    exec (.mergeEntryTake h t) s = .next (s.held (s.recordedFor h t (s.mergeTaken h t))) := by
  have hframe : ((s.takeMerge h t).upd h t fun x => { x with st := if x.probed then x.stNow else .probing }).frame = s.frame :=
    (upd_frame _ _ _ _).trans ((unseen_frame Txn.issued).takeMerge s h t)
  rw [State.mergeTaken, ← hframe]
  exact row_due hin (tag_exists hh ht) (by simp [hg, hl, hf, hq, hn, hc, hm, hi, ho])

/-- A near atomic that is ready executes unless a clean one finds no merge entry for its write (R302 to R304). -/
theorem exec_aluExecute {u : State} {d : Line} {p : Bool} (hr : s.aluReady h t = true)
    (hd : ((s.readBuffers h t).txn h t).memData = some (d, p))
    (hm : p = true ∨ ((s.readBuffers h t).txn h t).req.poison = true ∨ ((s.readBuffers h t).mergeFree h true).isSome = true)
    (hu : (s.readBuffers h t).recordDone h t = (true, u)) :
    let v := s.readBuffers h t
    exec (.aluExecute h t) s = .next (s.held (v.recordedFor h t (if p || (v.txn h t).req.poison
      then ((u.fallDue h (v.txn h t)).incFld (oSl (u.engine h) 0x58) 0 24 1).complete h t 0 true else u.aluRun h t d))) := by
  have hgo : (!(p || ((s.readBuffers h t).txn h t).req.poison) && ((s.readBuffers h t).mergeFree h true).isNone) = false := by
    rcases hm with hm | hm | hm
    · simp [hm]
    · simp [hm]
    · simp [Option.isNone_eq_false_iff.mpr hm]
  show execAluExecute h t s = _
  unfold execAluExecute
  rw [need_of (tag_exists hh ht)]
  simp only [hr, Bool.not_true, Bool.false_eq_true, if_false, hd, hgo, hu]
  exact live_next hin _

end

/-- Settles O44: each row is due, so it makes its change; the merge entry is the one that was free, and a window at its end closes. -/
theorem flowsEnd : Obligations.FlowsEnd := by
  refine ⟨fun s h t hin hh ht ho => ⟨exec_stageEntryObtain hin hh ht ho, exec_evganWriteEnter_request hin hh ht ho,
    exec_evganWriteEnter_home hin hh ht ho, fun k e f rest hw hr hf hd hm => exec_evganWriteDrain hin hh hw hr hf hd hm, ?_, ?_⟩,
    fun s u h t d p hin hh ht hr hd hm hu => exec_aluExecute hin hh ht hr hd hm hu⟩
  · intro hg hl hf hq hn hc hm hi
    have hexec := exec_mergeEntryTake hin hh ht ho hg hl hf hq hn hc hm hi
    exact ⟨hexec, fun hfit => ⟨_, hexec.trans (congrArg _ (congrArg _ (recordedFor_of_fits hfit))), mergeTaken_merge hi⟩⟩
  · intro f hw hf hc hs
    constructor
    · show execGatherWindowClose h t s = _
      simp only [execGatherWindowClose, hw]
      exact row_due hin (tag_exists hh ht) (by simp [hf, hc, hs, ho])
    · show s.closeWindow h t = _
      simp [State.closeWindow, hw, hf, hc, hs]

end Sys2Proof.Machine
end

section
/-! SUPPORT. The statement about transactions on the home's own account: the rows of the selvedge slot that start them. -/

namespace Sys2Proof.Machine

/-! ## The parts of joining a chain (R133, R193, R323) -/

/-- A waiter behind which a request has been placed counts it, and is promoted at the limit (R193). -/
def State.passWaiter (limit h : Nat) (s : State) (w : Nat) : State :=
  let y := s.txn h w
  let promote := !y.promoted && limit ≤ y.passed + 1
  let s := s.upd h w fun y => { y with passed := y.passed + 1, promoted := y.promoted || promote }
  if promote then s.incFld (oSl (s.engine h) 0x10) 22 8 1 else s

/-- The window of a line's gatherer closes when a request joins its chain (R323). -/
def State.closeGatherer (s : State) (h t : Nat) (l : LineAddr) : State :=
  match s.holder h l with
  | some g =>
    let y := s.txn h g
    if (s.txn h t).home.isNone && y.home.isNone && y.gathers && y.window.isSome && !y.winClosed then
      s.upd h g fun y => { y with window := some (min s.frame ((y.window).getD s.frame)) }
    else s
  | none => s

theorem joinChain_eq (s : State) (h t : Nat) (l : LineAddr) (cls : Nat) : ∃ (ws new : List Nat) (limit : Nat),
    s.joinChain h t l cls = (ws.foldl (State.passWaiter limit h) (s.setChain h l new)).closeGatherer h t l := ⟨_, _, _, rfl⟩

/-! ## What starting a transaction leaves alone -/

/-- What the row of a home-account transaction says of it: its kind, line and frame (R128, R182). -/
def Txn.start (x : Txn) : Option HomeKind × LineAddr × Nat := (x.home, x.line, x.issue)

/-- The start of a transaction, and MAINT of its slice (R364). -/
def State.homeView (s : State) (h t : Nat) : (Option HomeKind × LineAddr × Nat) × Maint := ((s.txn h t).start, (s.sl h).maint)

theorem maint_journalFree : JournalFree Slice.maint := fun _ _ _ _ _ _ _ => rfl

theorem State.SameButRegs.homeView {s r : State} (hr : s.SameButRegs r) (h t : Nat) : r.homeView h t = s.homeView h t := by
  obtain ⟨g, m, rfl⟩ := hr; rfl

section
variable (s : State) (h t : Nat)

theorem homeView_updSl (k : Nat) (f : Slice → Slice) (hf : ∀ v, ((f v).txns, (f v).maint) = (v.txns, v.maint)) :
    (s.updSl k f).homeView h t = s.homeView h t :=
  Prod.ext (congrArg Txn.start (txn_updSl s k f h t fun v => congrArg Prod.fst (hf v)))
    (updSl_keeps Slice.maint (fun v => congrArg Prod.snd (hf v)) s k h)

theorem homeView_jr (k u : Nat) : (s.jr k u).homeView h t = s.homeView h t :=
  Prod.ext (congrArg Txn.start (jr_txn s k u h t)) (jr_keeps maint_journalFree s k u h)

theorem homeView_upd (k u : Nat) (f : Txn → Txn) (hf : ∀ x, (f x).start = x.start) :
    (s.upd k u f).homeView h t = s.homeView h t := by
  refine Prod.ext ?_ (upd_keeps maint_journalFree s k u f h)
  by_cases hk : h = k ∧ t = u
  · obtain ⟨rfl, rfl⟩ := hk
    exact (congrArg Txn.start (upd_txn s h t f)).trans (hf _)
  · exact congrArg Txn.start (put_txn_other s k u _ (not_and_or.mp hk))

theorem homeView_plan (f k u : Nat) (c : Act) : (s.plan f k u c).homeView h t = s.homeView h t := by
  unfold State.plan
  dsimp only
  split
  · rfl
  · rfl

theorem homeView_failSlice (f c : Nat) : (s.failSlice f c).homeView h t = s.homeView h t := by
  obtain ⟨l, hl⟩ := failSlice_form s f c; rw [hl]; rfl

theorem homeView_raiseSl (k i code : Nat) (d : BitVec 64) : (s.raiseSl k i code d).homeView h t = s.homeView h t := by
  unfold State.raiseSl
  dsimp only
  rw [← (pendSl_same s k i).homeView h t]
  split
  · split
    · exact homeView_updSl _ h t k _ fun _ => by rfl
    · exact (incFld_same _ _ _ _ _).homeView h t
  · rfl

theorem homeView_setChain (k : Nat) (l : LineAddr) (new : List Nat) : (s.setChain k l new).homeView h t = s.homeView h t := by
  unfold State.setChain
  refine foldl_keeps (P := fun u => u.homeView h t = s.homeView h t) _ (homeView_updSl s h t k _ fun _ => by rfl) fun u a _ hu => ?_
  split
  · exact hu
  · rw [homeView_jr, hu]

theorem homeView_passWaiter (limit k w : Nat) : (State.passWaiter limit k s w).homeView h t = s.homeView h t := by
  unfold State.passWaiter
  dsimp only
  split
  · exact ((incFld_same _ _ _ _ _).homeView h t).trans (homeView_upd s h t k w _ fun _ => by rfl)
  · exact homeView_upd s h t k w _ fun _ => by rfl

theorem homeView_closeGatherer (k u : Nat) (l : LineAddr) : (s.closeGatherer k u l).homeView h t = s.homeView h t := by
  unfold State.closeGatherer
  dsimp only
  split
  · split
    · exact homeView_upd s h t k _ _ fun _ => by rfl
    · rfl
  · rfl

theorem homeView_joinChain (k u : Nat) (l : LineAddr) (cls : Nat) : (s.joinChain k u l cls).homeView h t = s.homeView h t := by
  obtain ⟨ws, l', limit, hj⟩ := joinChain_eq s k u l cls
  rw [hj, homeView_closeGatherer]
  exact foldl_keeps (P := fun v => v.homeView h t = s.homeView h t) ws (homeView_setChain s h t k l l') fun v w _ hv =>
    (homeView_passWaiter v h t limit k w).trans hv

theorem homeView_touchMove (k : Nat) (x : SectorAddr) : (s.touchMove k x).homeView h t = s.homeView h t := by
  refine homeView_updSl s h t k _ fun v => ?_
  split
  · split
    · rfl
    · rfl
  · rfl

theorem homeView_takeLines (k u n : Nat) : (s.takeLines k u n).homeView h t = s.homeView h t := by
  induction n generalizing s with
  | zero => rfl
  | succ n ih =>
    unfold State.takeLines
    dsimp only
    split
    · exact (homeView_plan _ h t _ _ _ _).trans (homeView_upd s h t k u _ fun _ => by rfl)
    · generalize (if (s.txn k u).want = 4 then lineIn (sectorOf (s.txn k u).line) (s.txn k u).locked else (s.txn k u).line) = l
      split
      · exact (homeView_joinChain _ h t k u _ _).trans (homeView_upd s h t k u _ fun _ => by rfl)
      · exact (ih _).trans (homeView_upd s h t k u _ fun _ => by rfl)

/-! A header that fails its parity (R342). -/

theorem homeView_abort (k u : Nat) : (s.abort k u).homeView h t = s.homeView h t := by
  unfold State.abort
  dsimp only
  exact (homeView_updSl _ h t k _ fun _ => by rfl).trans
    ((homeView_upd _ h t k u _ fun _ => by rfl).trans (homeView_updSl (s.unplan k u) h t k _ fun _ => by rfl))

theorem homeView_passHeader (b : Bool) (k u : Nat) : (s.passHeader b k u).homeView h t = s.homeView h t := by
  unfold State.passHeader State.headerFail
  dsimp only
  have hraise (e i : Nat) (d : BitVec 64) : ((s.incFld (oSl e 0x68) 0 8 1).raiseSl e i 0 d).homeView h t = s.homeView h t :=
    (homeView_raiseSl _ h t e i 0 d).trans ((incFld_same _ _ _ _ _).homeView h t)
  split
  · split
    · exact (homeView_failSlice _ h t _ _).trans (hraise _ _ _)
    · exact (homeView_abort _ h t k u).trans ((homeView_upd _ h t k u _ fun _ => by rfl).trans (hraise _ _ _))
  · rfl

end

/-! ## The start of a home-account transaction (R128, R182) -/

theorem homeTag_congr {s r : State} {h : Nat} (hr : (r.sl h).txns = (s.sl h).txns) : r.homeTag h = s.homeTag h := by
  unfold State.homeTag
  rw [hr]

/-- With a home tag free the tag holds the transaction, of its kind and over its line, since this frame; MAINT stays. -/
theorem homeIssue_view {s : State} {h t : Nat} (ht : s.homeTag h = some t) (b : Bool) (k : HomeKind) (l : LineAddr) (w : Nat) (p : Option Loc) :
    (s.homeIssue b h k l w p).homeView h t = ((some k, l, s.frame), (s.sl h).maint) := by
  unfold State.homeIssue State.startHome
  rw [ht]
  dsimp only
  rw [homeView_passHeader, homeView_takeLines, homeView_touchMove]
  exact Prod.ext (congrArg Txn.start (put_txn _ h t _))
    ((put_keeps maint_journalFree _ h t _ h).trans (updSl_keeps Slice.maint (by exact fun _ => rfl) s h h))

/-! ## The selvedge slot is used (R544) -/

/-- An event that occurs writes at most the counters of its slice and the list of those that have wrapped (R543 to R545). -/
theorem count_keeps {P : State → Prop} {s : State} (k ev : Nat) (filter : Option (Nat × Nat))
    (hr : ∀ (u : State) i lo w v, i < 8 → P u → P (u.setFld (oSl k (0x540 + 8 * i)) lo w v))
    (hw : ∀ (u : State) o lo n p, P u → P { u.mark o lo n with pmc := p }) (hs : P s) : P (s.count k ev filter) := by
  unfold State.count
  refine iteInduction (motive := P) (fun _ => hs) fun _ => foldl_keeps (List.range 8) hs fun u i hi hu => ?_
  have hset (v : State) (lo w n : Nat) (hv : P v) := hr v i lo w n (List.mem_range.mp hi) hv
  dsimp only
  exact iteInduction (motive := P) (fun _ => iteInduction (motive := P)
    (fun _ => hw _ _ _ _ _ (hset _ 48 1 1 (hset u 0 48 _ hu))) fun _ => hset u 0 48 _ hu) fun _ => hu

theorem count_slices (s : State) (k ev : Nat) (filter : Option (Nat × Nat)) : (s.count k ev filter).slices = s.slices :=
  count_keeps (P := fun u => u.slices = s.slices) k ev filter (fun _ _ _ _ _ _ hu => hu) (fun _ _ _ _ _ hu => hu) rfl

/-- The counters are not the registers with ROLE (R393). -/
theorem count_role (s : State) (k ev : Nat) (filter : Option (Nat × Nat)) (h : Nat) :
    (s.count k ev filter).reg (oSl h 0x90) = s.reg (oSl h 0x90) := by
  refine count_keeps (P := fun u => u.reg (oSl h 0x90) = s.reg (oSl h 0x90)) k ev filter (fun u i lo w v hi hu => ?_)
    (fun _ _ _ _ _ hu => hu) rfl
  rw [reg_setFld_other u lo w v (by simp only [oSl]; omega), hu]

section
variable (s : State) (e h : Nat)

theorem useSelvedge_frame : (s.useSelvedge e).frame = s.frame := (unseen_frame Txn.issued).count _ e 4 none

theorem useSelvedge_txns : ((s.useSelvedge e).sl h).txns = (s.sl h).txns :=
  (congrArg (fun l => (tget {} l h).txns) (count_slices _ e 4 none)).trans
    (updSl_keeps Slice.txns (f := fun sl => { sl with slots := sl.slots ||| 0x8000 }) (fun _ => rfl) s e h)

theorem useSelvedge_engine : (s.useSelvedge e).engine h = s.engine h := engine_congr (count_role _ e 4 none h)

end

/-! ## The state in which the selvedge slot finds its engine (R240, R383) -/

theorem skipLocked_same (s : State) (h : Nat) : s.SameButSlices (s.skipLocked h) := by
  unfold State.skipLocked
  dsimp only
  split
  · exact .refl s
  · split
    · exact .refl s
    · exact State.SameButSlices.trans (t := s.updSl h _) ⟨_, _, _, rfl⟩ (incFld_same _ _ _ _ _).slices

theorem skipLocked_inService (s : State) (h : Nat) : (s.skipLocked h).inService = s.inService := by
  obtain ⟨r, m, x, e⟩ := skipLocked_same s h; rw [e]; rfl

theorem skipLocked_frame (s : State) (h : Nat) : (s.skipLocked h).frame = s.frame := by
  obtain ⟨r, m, x, e⟩ := skipLocked_same s h; rw [e]

theorem maintTidy_frame (s : State) (h : Nat) : (s.maintTidy h).frame = s.frame := by
  rw [← skipLocked_frame s h]
  unfold State.maintTidy
  generalize s.skipLocked h = u
  dsimp only
  split
  · rfl
  · split
    · rw [State.incFld_frame, State.updSl_frame]
    · rw [State.incFld_frame, State.updSl_frame]
    · rw [State.incFld_frame, State.updSl_frame]
    · rw [State.updSl_frame]

/-! ## The rows -/

/-- A row whose records fit in the frame leaves what it has recorded (R388). -/
theorem completes_recorded {i : Instr} {s v r : State} {P : State → Prop} (hx : exec i s = .next (s.held (v.recorded false r)))
    (hp : P (s.held r)) :
    exec i s = .next (s.held (v.recorded false r)) ∧ (v.fits false r = true → ∃ y, exec i s = .next y ∧ P y) :=
  ⟨hx, fun hfit => ⟨_, hx.trans (congrArg _ (congrArg _ (recorded_of_fits hfit))), hp⟩⟩

section
variable {s u : State} {h t : Nat} (hf : u.frame = s.frame) (ht : u.homeTag h = some t)
include hf ht

/-- A home-account transaction that starts holds the home tag, and MAINT of its slice is as it was before. -/
theorem started_of_homeIssue (b : Bool) (k : HomeKind) (l : LineAddr) (w : Nat) (p : Option Loc) :
    s.Started (s.held (u.homeIssue b h k l w p)) h t k l ∧ ((s.held (u.homeIssue b h k l w p)).sl h).maint = (u.sl h).maint := by
  have hv := homeIssue_view ht b k l w p
  rw [hf] at hv
  obtain ⟨hx, hm⟩ := Prod.mk.inj hv
  obtain ⟨hk, hx⟩ := Prod.mk.inj hx
  obtain ⟨hl, hi⟩ := Prod.mk.inj hx
  exact ⟨⟨hk, hl, hi⟩, hm⟩

/-- The same once the selvedge slot is used and what it serves has left its queue. -/
theorem started_in_selvedge (e : Nat) (f : Slice → Slice) (b : Bool) (k : HomeKind) (l : LineAddr) (w : Nat) (p : Option Loc)
    (hx : ∀ v, (f v).txns = v.txns) : s.Started (s.held (((u.useSelvedge e).updSl h f).homeIssue b h k l w p)) h t k l :=
  (started_of_homeIssue (u := (u.useSelvedge e).updSl h f) ((useSelvedge_frame u e).trans hf)
    ((homeTag_congr ((updSl_keeps Slice.txns hx _ h h).trans (useSelvedge_txns u e h))).trans ht) b k l w p).1

end

section
variable {s : State} {h : Nat} (hin : s.inReset = false) (hh : h < s.nSlices)
include hin hh

theorem exec_maintRow {p : MaintOp → Bool} {op : MaintOp} {x : SectorAddr} (b : Bool) (hs : (s.maintTidy h).startable h p = some (op, x)) :
    maintRow h p b s = .next (s.held ((s.maintTidy h).startMaint b h op x)) := by
  unfold maintRow
  dsimp only
  rw [need_of (decide_eq_true hh), hs]
  exact live_next hin _

variable (hr : s.ready = true) (b : Bool)
include hr

theorem exec_spillwayIssue {i : Nat} {l : Loc} (ho : s.rangeOpen h = true) (ht : (s.homeTag h).isSome = true) (hn : s.spillNext h = some (i, l))
    (hf : s.filtered h = true) (hs : s.selvTurn h (.spill i) = true) :
    let v := s.useSelvedge (s.engine h)
    exec (.spillwayIssue ⟨h, b⟩) s = .next (s.held (v.recorded false
      ((v.updSl h fun sl => { sl with spillQ := sl.spillQ.filter fun j => j != i }).homeIssue b h (.spill i) (lineIn (v.sectorAt h l) 0) 4
        (some l)))) := by
  show execSpillwayIssue ⟨h, b⟩ s = _
  unfold execSpillwayIssue
  dsimp only
  rw [hn]
  exact row_due hin (decide_eq_true hh) (by simp [State.inService, hin, hr, ho, hf, ht, hs])

theorem exec_meminitTransaction {x : SectorAddr} {rest : List SectorAddr} (ho : s.rangeOpen h = true) (ht : (s.homeTag h).isSome = true)
    (hq : (s.sl h).initFound = x :: rest) (hs : s.selvTurn h (.init x) = true) :
    let v := s.useSelvedge (s.engine h)
    exec (.meminitTransaction ⟨h, b⟩) s = .next (s.held (v.recorded false
      ((v.updSl h fun sl => { sl with initFound := rest }).homeIssue b h .meminit (lineIn x 0) 4 none))) := by
  show execMeminitTransaction ⟨h, b⟩ s = _
  unfold execMeminitTransaction
  dsimp only
  rw [hq]
  exact row_due hin (decide_eq_true hh) (by simp [State.inService, hin, hr, ho, ht, hs])

theorem exec_orphanRecovery {l : Loc} {cs : List SectorAddr} {start : Bool} (ho : s.rangeOpen h = true) (hq : s.orphanReady h = true)
    (hn : s.nextOrphan h = some (l, cs, start)) (hs : s.selvTurn h (.orphan l) = true) :
    let v := s.useSelvedge (s.engine h)
    let u := if start then v.orphanStart h l cs else v.updSl h fun sl => { sl with orphanRest := sl.orphanRest.tail }
    (cs = [] → exec (.orphanRecovery ⟨h, b⟩) s = .next (s.held (u.orphanEnd h l))) ∧
    (∀ c rest, cs = c :: rest → exec (.orphanRecovery ⟨h, b⟩) s =
      .next (s.held (v.recorded false (u.homeIssue b (u.hash (wireOf (lineIn c 0))) (.orphan h rest) (lineIn c 0) 4 (some l))))) := by
  have hdue : (s.inService && s.rangeOpen h && s.orphanReady h && s.selvTurn h (.orphan l)) = true := by
    simp [State.inService, hin, hr, ho, hq, hs]
  refine ⟨fun hc => ?_, fun c rest hc => ?_⟩
  all_goals
    subst hc
    show execOrphanRecovery ⟨h, b⟩ s = _
    unfold execOrphanRecovery
    dsimp only
    rw [hn]
    exact row_due hin (decide_eq_true hh) hdue

/-- The line whose record is lost leaves its list, and a scrub counts the recovery (R382). -/
def State.lostTaken (u : State) (h : Nat) (rest : List LineAddr) : State :=
  let d := (u.useSelvedge (u.engine h)).updSl h fun sl => { sl with maint := { sl.maint with lostAt := rest } }
  if (u.sl h).maint.running = some .scrub then d.incFld (oSl (u.engine h) 0x80) 32 8 1 else d

theorem exec_scrubRecovery {l : LineAddr} {rest : List LineAddr} (ho : (s.skipLocked h).rangeOpen h = true)
    (ht : ((s.skipLocked h).homeTag h).isSome = true) (hq : ((s.skipLocked h).sl h).maint.lostAt = l :: rest)
    (hs : (s.skipLocked h).selvTurn h (.lost l) = true) :
    let u := s.skipLocked h
    exec (.scrubRecovery ⟨h, b⟩) s = .next (s.held ((u.useSelvedge (u.engine h)).recorded false
      ((u.lostTaken h rest).homeIssue b h (.scrub (lineIdx l)) l 1 none))) := by
  intro u
  have hi : u.inService = true := by rw [skipLocked_inService, State.inService, hin, hr]; rfl
  have he (f : Slice → Slice) : ((u.useSelvedge (u.engine h)).updSl h f).engine h = u.engine h := useSelvedge_engine u _ h
  show execScrubRecovery ⟨h, b⟩ s = _
  unfold execScrubRecovery
  dsimp only
  rw [hq]
  refine (row_due hin (decide_eq_true hh) (by simp [u, hi, ho, ht, hs])).trans ?_
  simp only [State.lostTaken, he, beq_iff_eq, u]

end

section
variable (u : State) (h : Nat) (rest : List LineAddr)

theorem lostTaken_same : ((u.useSelvedge (u.engine h)).updSl h fun sl => { sl with maint := { sl.maint with lostAt := rest } }).SameButRegs
    (u.lostTaken h rest) := by
  unfold State.lostTaken
  dsimp only
  split
  · exact incFld_same _ _ _ _ _
  · exact .refl _

theorem lostTaken_frame : (u.lostTaken h rest).frame = u.frame := by
  obtain ⟨r, m, e⟩ := lostTaken_same u h rest
  rw [e]
  exact useSelvedge_frame u _

theorem lostTaken_homeTag : (u.lostTaken h rest).homeTag h = u.homeTag h := by
  refine homeTag_congr ?_
  rw [(lostTaken_same u h rest).sl, State.updSl_sl_same]
  exact useSelvedge_txns u _ h

theorem lostTaken_lostAt : ((u.lostTaken h rest).sl h).maint.lostAt = rest := by
  rw [(lostTaken_same u h rest).sl, State.updSl_sl_same]

end

/-- Settles O42: each row is due; the work of the slot leaves the home tag free, and what follows the start in the same frame, the lines
that are taken and the header that may fail, leaves the transaction its kind, line and frame. -/
theorem homeTransactionsStart : Obligations.HomeTransactionsStart := by
  refine ⟨fun s h t b hin hr hh ho ht => ⟨fun i l hn hf hs => ?_, fun x rest hq hs => ?_⟩, fun s h t b l rest hin hr hh => ?_,
    fun s h b start l cs hin hr hh ho hq hn hs => exec_orphanRecovery hin hh hr b ho hq hn hs, fun s h t b op x hin hh => ?_⟩
  · exact completes_recorded (exec_spillwayIssue hin hh hr b ho (Option.isSome_of_eq_some ht) hn hf hs)
      (started_in_selvedge rfl ht _ _ b _ _ _ _ fun _ => by rfl)
  · exact completes_recorded (exec_meminitTransaction hin hh hr b ho (Option.isSome_of_eq_some ht) hq hs)
      (started_in_selvedge rfl ht _ _ b _ _ _ _ fun _ => by rfl)
  · intro u ho ht hq hs
    obtain ⟨hstart, hmaint⟩ := started_of_homeIssue ((lostTaken_frame u h rest).trans (skipLocked_frame s h))
      ((lostTaken_homeTag u h rest).trans ht) b (.scrub (lineIdx l)) l 1 none
    exact completes_recorded (P := fun y => s.Started y h t (.scrub (lineIdx l)) l ∧ (y.sl h).maint.lostAt = rest)
      (exec_scrubRecovery hin hh hr b ho (Option.isSome_of_eq_some ht) hq hs)
      ⟨hstart, (congrArg Maint.lostAt hmaint).trans (lostTaken_lostAt u h rest)⟩
  · intro u ht v r
    have hstart : s.Started (s.held r) h t op.kind (lineIn x 0) :=
      started_in_selvedge (maintTidy_frame s h) ht _ _ b _ _ _ _ fun _ => by rfl
    exact ⟨fun hs => completes_recorded (exec_maintRow hin hh b hs) hstart, fun hs => completes_recorded (exec_maintRow hin hh b hs) hstart,
      fun hs => completes_recorded (exec_maintRow hin hh b hs) hstart⟩

end Sys2Proof.Machine
end

section
/-! SUPPORT. The statements about the records of a filter entry: reading back, and their check bits (R200 to R204). -/

namespace Sys2Proof

/-! ## Single bits of a word -/

theorem getLsbD_one_shiftLeft {n b : Nat} (i : Nat) (hi : i < n) : ((1 : BitVec n) <<< b).getLsbD i = decide (i = b) := by
  have hn : 0 < n := by omega
  rw [BitVec.getLsbD_shiftLeft, BitVec.ofNat_eq_ofNat, BitVec.getLsbD_one]
  by_cases h : i < b
  · simp [h, Nat.ne_of_lt h]
  · simp only [hi, h, hn, decide_true, decide_false, Bool.not_false, Bool.true_and]
    exact decide_eq_decide.mpr (by omega)

/-- A word whose only one is bit `b`. -/
def OneBit {n : Nat} (x : BitVec n) (b : Nat) : Prop := ∀ i, x.getLsbD i = decide (i = b)

theorem oneBit_natCast {n b : Nat} (hb : b < n) : OneBit (((1 <<< b : Nat) : BitVec n)) b := by
  intro i
  rw [BitVec.natCast_eq_ofNat, BitVec.getLsbD_ofNat, Nat.one_shiftLeft, Nat.testBit_two_pow, ← Bool.decide_and]
  exact decide_eq_decide.mpr (by omega)

/-- A field of a word with one bit. -/
theorem OneBit.bits {n b : Nat} {x : BitVec n} (hx : OneBit x b) (lo w : Nat) :
    bits x lo w = if lo ≤ b ∧ b < lo + w then (1 : BitVec w) <<< (b - lo) else 0#w := by
  refine BitVec.eq_of_getLsbD_eq fun i hi => ?_
  rw [getLsbD_bits, hx, apply_ite (BitVec.getLsbD · i), getLsbD_one_shiftLeft i hi]
  split
  · simp [hi]; omega
  · simp; omega

end Sys2Proof

namespace Sys2Proof.Machine

/-- The stored data bits of the record of line `j`. -/
def eData (e : Entry) (j : Nat) : BitVec 26 := bits e (33 + 33 * j) 26

theorem getLsbD_recData (st : BitVec 2) (v : Agents) {i : Nat} (hi : i < 26) :
    (recData st v).getLsbD i = if i < 2 then st.getLsbD i else v.getLsbD (i - 2) := by
  simp only [recData, BitVec.getLsbD_or, BitVec.getLsbD_setWidth, BitVec.getLsbD_shiftLeft, hi, decide_true, Bool.true_and]
  split
  · simp [*]
  · simp [*, BitVec.getLsbD_of_ge st i (by omega)]; omega

theorem bits_recData (st : BitVec 2) (v : Agents) : bits (recData st v) 0 2 = st ∧ bits (recData st v) 2 24 = v := by
  refine ⟨BitVec.eq_of_getLsbD_eq fun i hi => ?_, BitVec.eq_of_getLsbD_eq fun i hi => ?_⟩
  · rw [getLsbD_bits, getLsbD_recData _ _ (by omega)]; simp [hi]
  · rw [getLsbD_bits, getLsbD_recData _ _ (by omega), if_neg (by omega)]; simp [hi]

theorem recData_eq (e : Entry) (j : Nat) : recData (eState e j) (eVector e j) = eData e j := by
  refine BitVec.eq_of_getLsbD_eq fun i hi => ?_
  rw [getLsbD_recData _ _ hi, eState, eVector, eData, getLsbD_bits, getLsbD_bits, getLsbD_bits]
  split
  · simp [*]
  · have : 35 + 33 * j + (i - 2) = 33 + 33 * j + i := by omega
    simp [this, hi]; omega

/-- What the stored check code of line `j` differs in from the code of its data bits. -/
def syndrome (e : Entry) (j : Nat) : BitVec 6 := eCheck e j ^^^ checkFrom (eData e j) 0 checkColumns

/-- What the home knows of a line whose record has the data bits `d`. -/
def knownOf (p : Bool) (d : BitVec 26) : Known := classify p (bits d 0 2) (bits d 2 24)

/-- PRESENT agrees with the STATE of data bits. -/
def agrees (p : Bool) (d : BitVec 26) : Bool := p == (bits d 0 2 != 0)

/-- Decoding by PRESENT, data bits and syndrome (R204). -/
def decodeAs (p : Bool) (d : BitVec 26) (s : BitVec 6) : Dec :=
  if s = 0 then if agrees p d then .good (knownOf p d) else .fixed (knownOf (bits d 0 2 != 0) d)
  else if onesBelow s 6 = 1 then if agrees p d then .fixed (knownOf p d) else .bad
  else match columnIdx s with
    | none => .bad
    | some k => if agrees p (d ^^^ ((1 : BitVec 26) <<< k)) then .fixed (knownOf p (d ^^^ ((1 : BitVec 26) <<< k))) else .bad

theorem decodeRec_eq (e : Entry) (j : Nat) : decodeRec e j = decodeAs (ePresent e j) (eData e j) (syndrome e j) := by
  obtain ⟨hst, hv⟩ := bits_recData (eState e j) (eVector e j)
  unfold decodeRec decodeAs syndrome agrees knownOf
  rw [← recData_eq, hst, hv]
  rfl

/-! ## Errors in the 33 stored bits of a record -/

/-- The data bits that an error in bit `i` of a record inverts: bit 0 is PRESENT, bits 1 to 26 are data, bits 27 to 32 the check code. -/
def errData (i : Nat) : BitVec 26 := if 1 ≤ i ∧ i < 27 then (1 : BitVec 26) <<< (i - 1) else 0#26

/-- The syndrome of an error in bit `i` of a record. -/
def errSyndrome (i : Nat) : BitVec 6 := if i = 0 then 0 else if i < 27 then checkColumns.getD (i - 1) 0 else (1 : BitVec 6) <<< (i - 27)

theorem checkFrom_xor (d d' : BitVec 26) (k : Nat) (l : List (BitVec 6)) : checkFrom (d ^^^ d') k l = checkFrom d k l ^^^ checkFrom d' k l := by
  induction l generalizing k with
  | nil => simp [checkFrom]
  | cons c l ih =>
    have hc : (if (d ^^^ d').getLsbD k then c else 0) = (if d.getLsbD k then c else 0) ^^^ (if d'.getLsbD k then c else 0) := by
      rw [BitVec.getLsbD_xor]
      cases d.getLsbD k with
      | false => cases d'.getLsbD k <;> simp
      | true => cases d'.getLsbD k <;> simp
    rw [checkFrom, checkFrom, checkFrom, ih, hc]
    ac_rfl

theorem checkFrom_errData : ∀ i, i < 27 → checkFrom (errData i) 0 checkColumns = errSyndrome i := by decide

section
variable {j b : Nat} {x : Entry} (hx : OneBit x b) (hlo : 32 + 33 * j ≤ b) (hhi : b < 65 + 33 * j) (e : Entry)
include hx hlo hhi

theorem ePresent_flip : ePresent (e ^^^ x) j = xor (ePresent e j) (decide (b - (32 + 33 * j) = 0)) := by
  rw [ePresent, BitVec.getLsbD_xor, hx, ePresent]
  exact congrArg _ (decide_eq_decide.mpr (by omega))

theorem eData_flip : eData (e ^^^ x) j = eData e j ^^^ errData (b - (32 + 33 * j)) := by
  rw [eData, bits_xor, hx.bits, eData, errData]
  by_cases h : 33 + 33 * j ≤ b ∧ b < 33 + 33 * j + 26
  · rw [if_pos h, if_pos (by omega), show b - (33 + 33 * j) = b - (32 + 33 * j) - 1 by omega]
  · rw [if_neg h, if_neg (by omega)]

theorem syndrome_flip : syndrome (e ^^^ x) j = syndrome e j ^^^ errSyndrome (b - (32 + 33 * j)) := by
  have hcheck : eCheck (e ^^^ x) j ^^^ checkFrom (errData (b - (32 + 33 * j))) 0 checkColumns = eCheck e j ^^^ errSyndrome (b - (32 + 33 * j)) := by
    rw [eCheck, bits_xor, hx.bits, eCheck]
    by_cases h : b < 59 + 33 * j
    · rw [if_neg (by omega), checkFrom_errData _ (by omega), BitVec.xor_zero]
    · have hd : errData (b - (32 + 33 * j)) = 0#26 := if_neg (by omega)
      have hc : checkFrom 0#26 0 checkColumns = 0#6 := by decide
      rw [if_pos (by omega), hd, hc, BitVec.xor_zero, errSyndrome, if_neg (by omega), if_neg (by omega),
        show b - (32 + 33 * j) - 27 = b - (59 + 33 * j) by omega]
  rw [syndrome, syndrome, eData_flip hx hlo hhi, checkFrom_xor]
  calc eCheck (e ^^^ x) j ^^^ (checkFrom (eData e j) 0 checkColumns ^^^ checkFrom (errData (b - (32 + 33 * j))) 0 checkColumns)
      = (eCheck (e ^^^ x) j ^^^ checkFrom (errData (b - (32 + 33 * j))) 0 checkColumns) ^^^ checkFrom (eData e j) 0 checkColumns := by ac_rfl
    _ = _ := by rw [hcheck]; ac_rfl

end

/-- The syndromes of the errors in the 32 bits beside PRESENT differ, none is 0, and each has an odd number of ones (R203). -/
theorem errSyndromes : ((List.range 33).map errSyndrome).Nodup ∧ ∀ i, i < 33 → xorBits (errSyndrome i) 6 = decide (i ≠ 0) := by decide

theorem columnIdx_errSyndrome : ∀ i, 1 ≤ i → i < 27 → onesBelow (errSyndrome i) 6 ≠ 1 ∧ columnIdx (errSyndrome i) = some (i - 1) := by
  decide

theorem onesBelow_errSyndrome : ∀ i, 27 ≤ i → i < 33 → onesBelow (errSyndrome i) 6 = 1 := by decide

/-- An even syndrome that is not 0 belongs to no single error. -/
theorem columnIdx_even : ∀ s : BitVec 6, s ≠ 0 → xorBits s 6 = false → onesBelow s 6 ≠ 1 ∧ columnIdx s = none := by decide

/-! ## Decoding a record with errors (R204) -/

section
variable {p : Bool} {d : BitVec 26}

theorem agrees_not (hp : agrees p d = true) : agrees (!p) d = false := by
  rw [agrees, ← beq_iff_eq.mp hp]
  cases p <;> rfl

theorem decodeAs_clean (hp : agrees p d = true) : decodeAs p d 0#6 = .good (knownOf p d) := by simp [decodeAs, hp]

/-- An error in PRESENT alone. -/
theorem decodeAs_present (hp : agrees p d = true) : decodeAs (!p) d 0#6 = .fixed (knownOf p d) := by
  have hs : (bits d 0 2 != 0) = p := (beq_iff_eq.mp hp).symm
  rw [decodeAs, if_pos (show 0#6 = 0 from rfl), agrees_not hp, hs]
  rfl

/-- The syndrome of one error beside PRESENT has it corrected, and PRESENT is then compared. -/
theorem decodeAs_single {i : Nat} (h1 : 1 ≤ i) (h2 : i < 33) :
    decodeAs p (d ^^^ errData i) (errSyndrome i) = if agrees p d then .fixed (knownOf p d) else .bad := by
  have hz : errSyndrome i ≠ 0 := fun hz => by
    have hodd := errSyndromes.2 i h2
    rw [hz, decide_eq_true (by omega)] at hodd
    exact absurd hodd (by decide)
  rw [decodeAs, if_neg hz]
  by_cases h : i < 27
  · obtain ⟨hw, hc⟩ := columnIdx_errSyndrome i h1 h
    have hd : errData i = (1 : BitVec 26) <<< (i - 1) := if_pos ⟨h1, h⟩
    rw [if_neg hw, hc]
    simp only [hd, BitVec.xor_assoc, BitVec.xor_self, BitVec.xor_zero]
  · have hd : errData i = 0#26 := if_neg (by omega)
    rw [if_pos (onesBelow_errSyndrome i (by omega) h2), hd, BitVec.xor_zero]

/-- Two errors beside PRESENT. -/
theorem decodeAs_double {i k : Nat} (h1 : 1 ≤ i) (hik : i < k) (h2 : k < 33) (p : Bool) (d : BitVec 26) :
    decodeAs p d (errSyndrome i ^^^ errSyndrome k) = .bad := by
  obtain ⟨hnodup, hodd⟩ := errSyndromes
  have hne : errSyndrome i ≠ errSyndrome k := fun he =>
    absurd (List.inj_on_of_nodup_map hnodup (List.mem_range.mpr (by omega)) (List.mem_range.mpr h2) he) (by omega)
  have heven : xorBits (errSyndrome i ^^^ errSyndrome k) 6 = false := by
    rw [xorBits_xor, hodd i (by omega), hodd k h2, decide_eq_true (by omega), decide_eq_true (by omega)]
    rfl
  have hz : errSyndrome i ^^^ errSyndrome k ≠ 0 := fun hz => hne (BitVec.xor_eq_zero_iff.mp hz)
  obtain ⟨hw, hc⟩ := columnIdx_even _ hz heven
  rw [decodeAs, if_neg hz, if_neg hw, hc]

end

/-! ## Writing a record (R200) -/

/-- The record of line `j` stands in an entry without error. -/
structure Holds (e : Entry) (j : Nat) (st : LineState) : Prop where
  present : agrees (ePresent e j) (eData e j) = true
  clean : syndrome e j = 0#6
  known : knownOf (ePresent e j) (eData e j) = .found st

theorem vecAgents_vecOf : ∀ a, a < 24 → vecAgents (vecOf a) = [a] := by decide

theorem classify_legal {st : LineState} (h : st.Legal) : classify (stBits st != 0) (stBits st) (stVec st) = .found st := by
  cases st with
  | untracked => rfl
  | shared v =>
    have hv : v ≠ 0#24 := h
    simp [classify, stBits, stVec, hv]
  | owned a => simp [classify, stBits, stVec, vecAgents_vecOf a h]

/-- A field outside the record that is written. -/
theorem bits_setRec_apart (e : Entry) (j : Nat) (st : LineState) {lo w : Nat} (h : lo + w ≤ 32 + 33 * j ∨ 65 + 33 * j ≤ lo) :
    bits (setRec e j st) lo w = bits e lo w := by
  unfold setRec
  dsimp only
  rw [bits_setBits_apart _ _ _ _ _ _ (by omega), bits_setBits_apart _ _ _ _ _ _ (by omega), bits_setBits_apart _ _ _ _ _ _ (by omega),
    bits_setBits_apart _ _ _ _ _ _ (by omega)]

theorem ePresent_eq_bits (e : Entry) (j : Nat) : ePresent e j = (bits e (32 + 33 * j) 1).getLsbD 0 := by
  rw [getLsbD_bits]; rfl

/-- The fields of the record that is written. -/
theorem setRec_fields (e : Entry) {j : Nat} (hj : j < 4) (st : LineState) :
    ePresent (setRec e j st) j = (stBits st != 0) ∧ eState (setRec e j st) j = stBits st ∧ eVector (setRec e j st) j = stVec st ∧
      eCheck (setRec e j st) j = checkCode (stBits st) (stVec st) := by
  unfold setRec
  refine ⟨?_, ?_, ?_, bits_setBits_same _ _ _ _ (by omega)⟩
  · dsimp only
    rw [ePresent_eq_bits, bits_setBits_apart _ _ _ _ _ _ (by omega), bits_setBits_apart _ _ _ _ _ _ (by omega),
      bits_setBits_apart _ _ _ _ _ _ (by omega), bits_setBits_same _ _ _ _ (by omega), getLsbD_b1]
  · dsimp only
    rw [eState, bits_setBits_apart _ _ _ _ _ _ (by omega), bits_setBits_apart _ _ _ _ _ _ (by omega), bits_setBits_same _ _ _ _ (by omega)]
  · dsimp only
    rw [eVector, bits_setBits_apart _ _ _ _ _ _ (by omega), bits_setBits_same _ _ _ _ (by omega)]

theorem holds_setRec (e : Entry) {j : Nat} (hj : j < 4) {st : LineState} (h : st.Legal) : Holds (setRec e j st) j st := by
  obtain ⟨hp, hs, hv, hc⟩ := setRec_fields e hj st
  obtain ⟨hst, hvec⟩ := bits_recData (stBits st) (stVec st)
  have hd : eData (setRec e j st) j = recData (stBits st) (stVec st) := by rw [← recData_eq, hs, hv]
  refine ⟨?_, ?_, ?_⟩
  · rw [hp, hd, agrees, hst, beq_self_eq_true]
  · rw [syndrome, hc, hd]; exact BitVec.xor_self
  · rw [hp, hd, knownOf, hst, hvec, classify_legal h]

theorem decodeRec_setRec_apart (e : Entry) {i j : Nat} (h : i ≠ j) (st : LineState) : decodeRec (setRec e j st) i = decodeRec e i := by
  have hf {lo w : Nat} (h1 : 32 + 33 * i ≤ lo) (h2 : lo + w ≤ 65 + 33 * i) : bits (setRec e j st) lo w = bits e lo w :=
    bits_setRec_apart e j st (by omega)
  have hd : eData (setRec e j st) i = eData e i := hf (by omega) (by omega)
  have hs : syndrome (setRec e j st) i = syndrome e i := by
    rw [syndrome, syndrome, hd, eCheck, eCheck, hf (by omega) (by omega)]
  rw [decodeRec_eq, decodeRec_eq, hd, hs, ePresent_eq_bits, hf (by omega) (by omega), ← ePresent_eq_bits]

/-- Settles O8. -/
theorem recordReadsBack : Obligations.RecordReadsBack := by
  intro e j st hj hst
  obtain ⟨hp, hc, hk⟩ := holds_setRec e hj hst
  have htag : eTag (setRec e j st) = eTag e := bits_setRec_apart e j st (by omega)
  have htpar : eTpar (setRec e j st) = eTpar e := bits_setRec_apart e j st (by omega)
  refine ⟨?_, fun i _ hi => decodeRec_setRec_apart e hi st, htag, ?_⟩
  · rw [decodeRec_eq, hc, decodeAs_clean hp, hk]
  · rw [tagOk, htag, htpar]; rfl

/-- Settles O9: an error in PRESENT leaves the syndrome 0, and every other has a syndrome of its own. -/
theorem recordCorrectsOneError : Obligations.RecordCorrectsOneError := by
  intro e j st b hj hst hlo hhi
  obtain ⟨hp, hc, hk⟩ := holds_setRec e hj hst
  have hx := oneBit_natCast (n := 168) (b := b) (by omega)
  rw [decodeRec_eq, ePresent_flip hx hlo hhi, eData_flip hx hlo hhi, syndrome_flip hx hlo hhi, hc]
  by_cases hb : b - (32 + 33 * j) = 0
  · have hd : eData (setRec e j st) j ^^^ errData 0 = eData (setRec e j st) j := BitVec.xor_zero
    rw [hb, hd, decide_eq_true rfl, Bool.xor_true]
    exact (decodeAs_present hp).trans (congrArg _ hk)
  · rw [decide_eq_false hb, Bool.xor_false, BitVec.zero_xor,
      decodeAs_single (by omega) (by omega), if_pos hp, hk]

/-- Settles O10: with PRESENT wrong the other error is corrected and PRESENT then disagrees; two others leave an even syndrome. -/
theorem recordDetectsTwoErrors : Obligations.RecordDetectsTwoErrors := by
  intro e j st b c hj hst hlo hbc hhi
  obtain ⟨hp, hc, -⟩ := holds_setRec e hj hst
  have hx := oneBit_natCast (n := 168) (b := b) (by omega)
  have hy := oneBit_natCast (n := 168) (b := c) (by omega)
  have hc0 : c - (32 + 33 * j) ≠ 0 := by omega
  rw [decodeRec_eq, ePresent_flip hy (by omega) hhi, eData_flip hy (by omega) hhi, syndrome_flip hy (by omega) hhi,
    ePresent_flip hx hlo (by omega), eData_flip hx hlo (by omega), syndrome_flip hx hlo (by omega), hc, decide_eq_false hc0, Bool.xor_false,
    BitVec.zero_xor]
  by_cases hb : b - (32 + 33 * j) = 0
  · have hs : errSyndrome 0 ^^^ errSyndrome (c - (32 + 33 * j)) = errSyndrome (c - (32 + 33 * j)) := BitVec.zero_xor
    have hd : eData (setRec e j st) j ^^^ errData 0 = eData (setRec e j st) j := BitVec.xor_zero
    rw [hb, hs, hd, decide_eq_true rfl, Bool.xor_true, decodeAs_single (by omega) (by omega), agrees_not hp]
    rfl
  · exact decodeAs_double (by omega) (by omega) (by omega) _ _

end Sys2Proof.Machine
end

section
/-! SUPPORT. The statements about set indices, replacement and the access budget. -/

namespace Sys2Proof.Machine

/-! ## Set indices (R201) -/

/-- A tag and the low six bits of a set index give the sector. -/
theorem sectorFrom_tagOf (x : SectorAddr) {n : Nat} (h : n % 64 = x.toNat % 64) : sectorFrom (tagOf x) n = x := by
  refine BitVec.eq_of_getLsbD_eq fun i hi => ?_
  have hlow : (BitVec.ofNat 36 (n % 64)).getLsbD i = (decide (i < 6) && x.getLsbD i) := by
    rw [BitVec.getLsbD_ofNat, h, show (64 : Nat) = 2 ^ 6 from rfl, Nat.testBit_mod_two_pow, decide_eq_true hi, Bool.true_and]
    rfl
  rw [sectorFrom, BitVec.getLsbD_or, hlow, BitVec.getLsbD_shiftLeft, BitVec.getLsbD_setWidth, tagOf, getLsbD_bits]
  by_cases h6 : i < 6
  · simp [h6]
  · rw [Nat.add_sub_of_le (Nat.le_of_not_lt h6)]
    simp [h6, hi, show i - 6 < 30 by omega, show i - 6 < 36 by omega]

/-- A set index of a tier: a folded tag above PA[13:8]. -/
theorem setIndex (x : SectorAddr) {w : Nat} (f : BitVec w) :
    f.toNat * 64 + (bits x 0 6).toNat < 2 ^ w * 64 ∧ (f.toNat * 64 + (bits x 0 6).toNat) % 64 = x.toNat % 64 := by
  have hf := f.isLt
  have hb : (bits x 0 6).toNat = x.toNat % 64 := by simp [bits, BitVec.extractLsb'_toNat]
  omega

/-- Settles O11: a set index is a folded tag above PA[13:8], and the tag is the rest of the sector. -/
theorem sectorIsRebuiltFromItsSet : Obligations.SectorIsRebuiltFromItsSet := by
  intro x
  obtain ⟨hd, hdm⟩ : setD x < 2 ^ 6 * 64 ∧ setD x % 64 = x.toNat % 64 := setIndex x _
  obtain ⟨he, hem⟩ : setE x < 2 ^ 8 * 64 ∧ setE x % 64 = x.toNat % 64 := setIndex x _
  exact ⟨hd, he, hdm, hem, sectorFrom_tagOf x hdm, sectorFrom_tagOf x hem⟩

/-! ## The tree pseudo-LRU (R222) -/

/-- A candidate lies among the `half` ways from `lo`, or among those after them. -/
def inHalf (c : List Nat) (lo half : Nat) (upper : Bool) : Bool :=
  c.any fun w => (if upper then lo + half else lo) ≤ w && w < (if upper then lo + 2 * half else lo + half)

/-- Where the walk turns: as the node says, unless no candidate lies there. -/
def plruTurn (x : BitVec 64) (c : List Nat) (n lo half : Nat) : Bool :=
  if inHalf c lo half (x.getLsbD n) then x.getLsbD n else !x.getLsbD n

theorem plruVictim_succ (x : BitVec 64) (c : List Nat) (l n lo : Nat) :
    plruVictim x c (l + 1) n lo =
      plruVictim x c l (2 * n + 1 + if plruTurn x c n lo (2 ^ l) then 1 else 0) (if plruTurn x c n lo (2 ^ l) then lo + 2 ^ l else lo) := rfl

theorem inHalf_turn {x : BitVec 64} {c : List Nat} {n lo half : Nat} (h : ∃ w ∈ c, lo ≤ w ∧ w < lo + 2 * half) :
    inHalf c lo half (plruTurn x c n lo half) = true := by
  have hor : inHalf c lo half (x.getLsbD n) = true ∨ inHalf c lo half (!x.getLsbD n) = true := by
    obtain ⟨w, hw, h1, h2⟩ := h
    have hin (d : Bool) (hd : d = decide (lo + half ≤ w)) : inHalf c lo half d = true := by
      refine List.any_eq_true.mpr ⟨w, hw, ?_⟩
      by_cases hm : lo + half ≤ w
      · simp [hd, hm, h2]
      · simp [hd, hm, h1]; omega
    by_cases hd : x.getLsbD n = decide (lo + half ≤ w)
    · exact .inl (hin _ hd)
    · exact .inr (hin _ (Bool.not_eq_eq_eq_not.mpr (Bool.eq_not.mpr hd)))
  unfold plruTurn
  split
  · assumption
  · exact hor.resolve_left ‹_›

/-- From node `n`, which covers the `2 ^ l` ways from `lo`, the walk ends at a candidate among them (R222). -/
theorem plruVictim_mem (x : BitVec 64) (c : List Nat) (l n lo : Nat) (hn : (n + 1) * 2 ^ l = 16 + lo)
    (hc : ∃ w ∈ c, lo ≤ w ∧ w < lo + 2 ^ l) :
    plruVictim x c l n lo ∈ c ∧ lo ≤ plruVictim x c l n lo ∧ plruVictim x c l n lo < lo + 2 ^ l := by
  induction l generalizing n lo with
  | zero =>
    obtain ⟨w, hw, h1, h2⟩ := hc
    have hend : plruVictim x c 0 n lo = w := by simp only [plruVictim]; omega
    rw [hend]
    exact ⟨hw, h1, h2⟩
  | succ l ih =>
    have hpow : 2 ^ (l + 1) = 2 * 2 ^ l := by rw [pow_succ]; ring
    rw [hpow] at hn hc ⊢
    obtain ⟨w, hw, hin⟩ := List.any_eq_true.mp (inHalf_turn (x := x) (n := n) hc)
    rw [Bool.and_eq_true, decide_eq_true_eq, decide_eq_true_eq] at hin
    rw [plruVictim_succ]
    cases hd : plruTurn x c n lo (2 ^ l) with
    | false =>
      simp only [hd, Bool.false_eq_true, if_false, Nat.add_zero] at hin ⊢
      obtain ⟨hmem, hlo, hhi⟩ := ih (2 * n + 1) lo (by linarith) ⟨w, hw, hin⟩
      exact ⟨hmem, hlo, by omega⟩
    | true =>
      simp only [hd, if_true] at hin ⊢
      obtain ⟨hmem, hlo, hhi⟩ := ih (2 * n + 1 + 1) (lo + 2 ^ l) (by linarith) ⟨w, hw, hin.1, by omega⟩
      exact ⟨hmem, by omega, by omega⟩

/-- A touch leaves the root pointing away from the half of the way (R222). -/
theorem plruTouch_root (x : BitVec 64) (w : Nat) : (plruTouch x w true).getLsbD 0 = !(w / 8 % 2 == 1) := by
  have hset (y : BitVec 64) (n : Nat) (v : Bool) : (setBit y n v).getLsbD 0 = if n = 0 then v else y.getLsbD 0 := by
    rw [setBit, getLsbD_setBits _ _ _ _ _ (by decide)]
    by_cases hn : n = 0
    · rw [if_pos (by omega), if_pos hn, hn, getLsbD_b1]
    · rw [if_neg (by omega), if_neg hn]
  have h1 : 1 + w / 8 % 2 ≠ 0 := by omega
  have h2 : 3 + 2 * (w / 8 % 2) + w / 4 % 2 ≠ 0 := by omega
  have h3 : 7 + 4 * (w / 8 % 2) + 2 * (w / 4 % 2) + w / 2 % 2 ≠ 0 := by omega
  simp only [plruTouch, plruPath, List.foldl_cons, List.foldl_nil, hset, if_neg h1, if_neg h2, if_neg h3, if_pos]

/-- The way just touched lies in the other half of the way that the tree chooses among all ways (R222). -/
theorem plruVictim_touched {x : BitVec 64} {w : Nat} (hw : w < 16) :
    plruVictim (plruTouch x w true) (List.range 16) 4 0 0 ≠ w := by
  have hroot := plruTouch_root x w
  generalize plruTouch x w true = y at hroot
  have hturn : plruTurn y (List.range 16) 0 0 (2 ^ 3) = !(w / 8 % 2 == 1) := by
    have hin (d : Bool) : inHalf (List.range 16) 0 (2 ^ 3) d = true := by cases d <;> decide
    rw [plruTurn, hin, if_pos rfl, hroot]
  rw [plruVictim_succ, hturn]
  by_cases h8 : w < 8
  · rw [show w / 8 % 2 = 0 by omega]
    obtain ⟨-, hle, -⟩ := plruVictim_mem y (List.range 16) 3 2 8 rfl ⟨8, by decide, by decide⟩
    exact (Nat.lt_of_lt_of_le h8 hle).ne'
  · rw [show w / 8 % 2 = 1 by omega]
    obtain ⟨-, -, hlt⟩ := plruVictim_mem y (List.range 16) 3 1 0 rfl ⟨0, by decide, by decide⟩
    exact (Nat.lt_of_lt_of_le hlt (Nat.le_of_not_lt h8)).ne

/-! ## The word of exact LRU (R223) -/

/-- The word of exact LRU with its lowest `n` fields filled (R223). -/
def lruFields (l : List Nat) (n : Nat) : BitVec 64 :=
  (List.range n).foldl (fun x r => x ||| ((BitVec.ofNat 64 ((l[r]?).getD 0)) <<< (4 * r))) 0

theorem getLsbD_lruFields {l : List Nat} (hl : ∀ w ∈ l, w < 16) (n i : Nat) (hi : i < 64) :
    (lruFields l n).getLsbD i = (decide (i / 4 < n) && ((l[i / 4]?).getD 0).testBit (i % 4)) := by
  have hlt (r : Nat) : (l[r]?).getD 0 < 2 ^ 4 := by
    cases h : l[r]? with
    | none => decide
    | some w => exact hl w (List.mem_of_getElem? h)
  induction n with
  | zero => simp [lruFields]
  | succ n ih =>
    have hstep : lruFields l (n + 1) = lruFields l n ||| ((BitVec.ofNat 64 ((l[n]?).getD 0)) <<< (4 * n)) := by
      rw [lruFields, List.range_succ, List.foldl_append]
      rfl
    rw [hstep, BitVec.getLsbD_or, ih, BitVec.getLsbD_shiftLeft, BitVec.getLsbD_ofNat]
    rcases Nat.lt_trichotomy (i / 4) n with h | h | h
    · simp [h, show i / 4 < n + 1 by omega, show i < 4 * n by omega]
    · simp [h, hi, show ¬ i < 4 * n by omega, show i - 4 * n = i % 4 by omega, show i % 4 < 64 by omega]
    · have hhigh : ((l[n]?).getD 0).testBit (i - 4 * n) = false :=
        Nat.testBit_lt_two_pow (lt_of_lt_of_le (hlt n) (Nat.pow_le_pow_right (by decide) (by omega)))
      simp [show ¬ i / 4 < n by omega, show ¬ i / 4 < n + 1 by omega, hhigh]

/-- A field of the word is the way at its place in the order (R223). -/
theorem bits_lruWord {l : List Nat} (hl : ∀ w ∈ l, w < 16) {r : Nat} (hr : r < 16) :
    (bits (lruWord l) (4 * r) 4).toNat = (l[r]?).getD 0 := by
  refine Nat.eq_of_testBit_eq fun i => ?_
  rw [← BitVec.getLsbD, getLsbD_bits]
  by_cases hi : i < 4
  · rw [show lruWord l = lruFields l 16 from rfl, getLsbD_lruFields hl _ _ (by omega)]
    simp [hi, show (4 * r + i) / 4 = r by omega, hr, show (4 * r + i) % 4 = i by omega]
  · have hhigh : ((l[r]?).getD 0).testBit i = false := by
      cases h : l[r]? with
      | none => simp
      | some w =>
        have hw := hl w (List.mem_of_getElem? h)
        exact Nat.testBit_lt_two_pow (lt_of_lt_of_le hw (Nat.pow_le_pow_right (n := 2) (by decide) (Nat.le_of_not_lt hi)))
    simp [hi, hhigh]

/-- Exact LRU: an order of the ways reads back from its word (R223). -/
theorem lruOrder_lruWord {l : List Nat} (h : l.Perm (List.range 16)) : lruOrder (lruWord l) = l := by
  have hl (w : Nat) (hw : w ∈ l) : w < 16 := List.mem_range.mp (h.mem_iff.mp hw)
  have hlen : l.length = 16 := h.length_eq
  have hne : lruWord l ≠ 0 := by
    obtain ⟨r, hr, h15⟩ := List.getElem_of_mem (h.mem_iff.mpr (List.mem_range.mpr (by decide : 15 < 16)))
    intro h0
    have hf := bits_lruWord hl (hlen ▸ hr)
    rw [h0, List.getElem?_eq_getElem hr, h15] at hf
    simp [bits] at hf
  rw [lruOrder, if_neg hne]
  refine List.ext_getElem (by simp [hlen]) fun r h1 h2 => ?_
  rw [List.getElem_map, List.getElem_range, bits_lruWord hl (hlen ▸ h2), List.getElem?_eq_getElem h2]
  rfl

/-- Settles O12: each turn of the walk keeps a candidate below it, and the turn at the root leaves the half of the way just touched; the word of
exact LRU is sixteen separate fields, not all zero for an order of all ways. -/
theorem replacementVictims : Obligations.ReplacementVictims := by
  refine ⟨⟨fun x c hne hc => ?_, fun x w hw => plruVictim_touched hw⟩, fun l hl => lruOrder_lruWord hl, rfl⟩
  obtain ⟨w, hw⟩ := List.exists_mem_of_ne_nil c hne
  exact (plruVictim_mem x c 4 0 0 rfl ⟨w, hw, Nat.zero_le w, by simpa using hc w hw⟩).1

/-! ## The budget of the Evgan tier (R235) -/

/-- Settles O15: the readings from -64 to 127 are no failed conversion, and each clause is a branch of the table. -/
theorem budgetTable : Obligations.BudgetTable := by
  have hval (t : Int) (h1 : -64 ≤ t) (h2 : t ≤ 127) : tempOf (BitVec.ofInt 8 t) = t ∧ BitVec.ofInt 8 t ≠ 0x80 := by
    have ht : (BitVec.ofInt 8 t).toInt = t := by
      rw [BitVec.toInt_ofInt]
      exact Int.bmod_eq_of_le (by omega) (by omega)
    refine ⟨ht, fun he => ?_⟩
    have : (0x80 : BitVec 8).toInt = t := he ▸ ht
    have : (0x80 : BitVec 8).toInt = -128 := by decide
    omega
  refine ⟨fun t h1 h2 => ?_, fun t h1 h2 => ?_, fun t h1 h2 => ?_⟩
  · obtain ⟨ht, hn⟩ := hval t h1 (by omega)
    rw [budgetFor, if_neg hn, ht, if_pos h2]
  · obtain ⟨ht, hn⟩ := hval t (by omega) (by omega)
    rw [budgetFor, if_neg hn, ht]
    split
    · omega
    · split
      · omega
      · omega
  · obtain ⟨ht, hn⟩ := hval t (by omega) h2
    rw [budgetFor, if_neg hn, ht, if_neg (by omega), if_pos h1]

end Sys2Proof.Machine
end

section
/-! SUPPORT. What a report of an error leaves alone (R370 to R374): the laws of errors and of reads of words, for every statement below. -/

namespace Sys2Proof.Machine

/-- The registers that the reports of errors in bank `b` of slice `k` write: the bank's counts, its lifetime count, the event bits of the slice,
and the fault record that is due. -/
def ErrReg (k b o : Nat) : Prop :=
  o = oSl k (0x200 + 8 * b) ∨ o = oLifeCe (16 * k + b) ∨ o = oSl k 0xA8 ∨ o = oSl k 0xB0 ∨ o = oCisternStat

/-- What the report of an error changes in its slice. -/
def Slice.noted (v : Slice) (q : List (BitVec 128)) (c : List (Nat × Nat)) (d : Option Nat) : Slice :=
  { v with evq := q, ucSets := c, tk := { v.tk with badBank := d } }

/-- Nothing that the report of an error in bank `b` of slice `k` changes bears on `P`. -/
structure ErrFree (k b : Nat) (P : State → Prop) : Prop where
  setFld : ∀ (u : State) o lo w v, ErrReg k b o → P u → P (u.setFld o lo w v)
  mark : ∀ (u : State) o lo n, P u → P (u.mark o lo n)
  slice : ∀ (u : State) (q : Slice → List (BitVec 128)) (c : Slice → List (Nat × Nat)) (d : Slice → Option Nat), P u →
    P (u.updSl k fun v => v.noted (q v) (c v) (d v))
  fault : ∀ (u : State) f c, P u → P { u with failDue := f, cistern := c }

section
variable {k b : Nat} {P : State → Prop} (hP : ErrFree k b P) {s : State}
include hP

theorem ErrFree.setFlag {o : Nat} (ho : ErrReg k b o) (i : Nat) (v : Bool) (hs : P s) : P (s.setFlag o i v) := by
  cases v
  · exact hP.setFld s o i 1 0 ho hs
  · exact hP.mark _ o i 1 (hP.setFld s o i 1 1 ho hs)

theorem ErrFree.incFld {o : Nat} (ho : ErrReg k b o) (lo w n : Nat) (hs : P s) : P (s.incFld o lo w n) :=
  hP.mark _ _ _ _ (hP.setFld _ _ _ _ _ ho hs)

theorem ErrFree.raiseSl (i code : Nat) (d : BitVec 64) (hs : P s) : P (s.raiseSl k i code d) := by
  have hp : P (s.pendSl k i) := by
    unfold State.pendSl
    split
    · exact hP.setFlag (.inr (.inr (.inl rfl))) _ _ hs
    · exact hP.setFlag (.inr (.inr (.inr (.inl rfl)))) _ _ hs
  unfold State.raiseSl
  dsimp only
  split
  · split
    · exact hP.slice _ (fun v => v.evq ++ [_]) Slice.ucSets (fun v => v.tk.badBank) hp
    · exact hP.incFld (.inr (.inr (.inr (.inl rfl)))) _ _ _ hp
  · exact hp

/-- A correctable error is counted and reported (R372, R373). -/
theorem ErrFree.correctable (set tier : Nat) (hs : P s) : P (s.correctable k b set tier) := by
  have hc := hP.incFld (.inl rfl) 0 8 1 (hP.incFld (.inr (.inl rfl)) 0 32 1 (hP.incFld (.inl rfl) 16 16 1 hs))
  unfold State.correctable
  dsimp only
  split
  · exact hP.raiseSl _ _ _ (hP.setFlag (.inl rfl) _ _ hc)
  · exact hc

/-- A failed bank makes a failure and a fault record due (R370, R547). -/
theorem ErrFree.bankFailure (j : Nat) (hs : P s) : P (s.bankFailure k j) := by
  have hb : P (if s.failDue.any fun p => p.1 == k then s else s.updSl k fun sl => { sl with tk := { sl.tk with badBank := some j } }) := by
    split
    · exact hs
    · exact hP.slice _ Slice.evq Slice.ucSets (fun _ => some j) hs
  unfold State.bankFailure State.failSlice State.faultDue
  dsimp only
  refine hP.setFlag (.inr (.inr (.inr (.inr rfl)))) _ _ ?_
  generalize (if s.failDue.any fun p => p.1 == k then s else s.updSl k fun sl => { sl with tk := { sl.tk with badBank := some j } }) = u at hb
  split
  · exact hP.fault u u.failDue _ hb
  · exact hP.fault u _ _ hb

/-- An uncorrectable error is counted and reported; the fourth set of a filter bank fails it (R370, R374). -/
theorem ErrFree.uncorrectable (set tier : Nat) (hs : P s) : P (s.uncorrectable k b set tier) := by
  have hr : P ((s.incFld (oSl k (0x200 + 8 * b)) 32 8 1).raiseSl k (16 + b) 0 (setDetail set tier)) :=
    hP.raiseSl _ _ _ (hP.incFld (.inl rfl) _ _ _ hs)
  unfold State.uncorrectable
  dsimp only
  generalize (s.incFld (oSl k (0x200 + 8 * b)) 32 8 1).raiseSl k (16 + b) 0 (setDetail set tier) = u at hr
  refine iteInduction (motive := P) (fun _ => ?_) fun _ => hr
  have hn (x : List (Nat × Nat)) (n : Nat) : P ((u.updSl k fun sl => { sl with ucSets := x }).setFld (oSl k (0x200 + 8 * b)) 40 3 n) :=
    hP.setFld _ _ _ _ _ (.inl rfl) (hP.slice u Slice.evq (fun _ => x) (fun v => v.tk.badBank) hr)
  exact iteInduction (motive := P) (fun _ => hP.bankFailure b (hn _ _)) fun _ => hn _ _

end

/-- A part of every slice that the report of an error leaves alone. -/
theorem errFree_slice {α : Type} {g : Slice → α} (hg : ∀ v q c d, g (Slice.noted v q c d) = g v) (k b j : Nat) (x : α) :
    ErrFree k b fun u => g (u.sl j) = x where
  setFld _ _ _ _ _ _ h := h
  mark _ _ _ _ h := h
  slice u q c d h := (updSl_keeps g (fun v => hg v (q v) (c v) (d v)) u k j).trans h
  fault _ _ _ h := h

/-- A register that the reports of errors do not write. -/
theorem errFree_reg {k b o : Nat} (ho : ¬ ErrReg k b o) (x : Reg) : ErrFree k b fun u => u.reg o = x where
  setFld u _ lo w v hr h := (reg_setFld_other u lo w v (by rintro rfl; exact ho hr)).trans h
  mark _ _ _ _ h := h
  slice _ _ _ _ h := h
  fault _ _ _ h := h

theorem errFree_frame (k b n : Nat) : ErrFree k b fun u => u.frame = n where
  setFld _ _ _ _ _ _ h := h
  mark _ _ _ _ h := h
  slice _ _ _ _ h := h
  fault _ _ _ h := h

theorem ErrFree.and {k b : Nat} {P Q : State → Prop} (hP : ErrFree k b P) (hQ : ErrFree k b Q) : ErrFree k b fun u => P u ∧ Q u where
  setFld u o lo w v ho h := ⟨hP.setFld u o lo w v ho h.1, hQ.setFld u o lo w v ho h.2⟩
  mark u o lo n h := ⟨hP.mark u o lo n h.1, hQ.mark u o lo n h.2⟩
  slice u q c d h := ⟨hP.slice u q c d h.1, hQ.slice u q c d h.2⟩
  fault u f c h := ⟨hP.fault u f c h.1, hQ.fault u f c h.2⟩

end Sys2Proof.Machine
end

section
/-! SUPPORT. The statement about the placement loop: the heat counters that a decay visit lowers, and the window that closes. -/

namespace Sys2Proof.Machine

/-! ## Heat counters (R213, R214, R227) -/

theorem heatAt_lt (sl : Slice) (i : Nat) : sl.heatAt i < 8 := by
  unfold Slice.heatAt
  dsimp only
  split
  · decide
  · exact BitVec.isLt _

/-- A heat counter carries even parity, and its value in its low bits. -/
theorem heatWord_reads :
    ∀ n, n < 8 → xorBits (heatWord (BitVec.ofNat 3 n)) 4 = false ∧ ((heatWord (BitVec.ofNat 3 n)).setWidth 3).toNat = n := by
  decide

/-- A heat counter reads back as it was written, and the others stay. -/
theorem heatAt_putHeat (sl : Slice) (i j : Nat) {n : Nat} (hn : n < 8) : (sl.putHeat i n).heatAt j = if j = i then n else sl.heatAt j := by
  obtain ⟨hp, hv⟩ := heatWord_reads n hn
  unfold Slice.putHeat Slice.heatAt
  by_cases hj : j = i
  · subst hj
    rw [tget_tputD_same, if_pos rfl, if_neg (by simp [hp]), hv]
  · rw [tget_tputD_other hj, if_neg hj]

/-- A counter whose parity fails reads as 0, and as 0 when it has been deleted. -/
theorem heatAt_deleted (sl : Slice) {i : Nat} (h : xorBits (tget 0 sl.heat i) 4 = true) (j : Nat) :
    Slice.heatAt { sl with heat := tdel i sl.heat } j = sl.heatAt j := by
  by_cases hj : j = i
  · subst hj
    rw [Slice.heatAt, Slice.heatAt, tget_tdel_same, if_pos h]
    rfl
  · rw [Slice.heatAt, Slice.heatAt, tget_tdel_other hj]

/-- A decay visit lowers one counter (R228). -/
def Slice.cooled (sl : Slice) (i : Nat) : Slice := if sl.heatAt i = 0 then sl else sl.putHeat i (sl.heatAt i - 1)

theorem heatAt_cooled (sl : Slice) (i j : Nat) : (sl.cooled i).heatAt j = if j = i then sl.heatAt j - 1 else sl.heatAt j := by
  have hlt := heatAt_lt sl i
  unfold Slice.cooled
  split
  · split
    · next h0 hj => rw [hj, h0]
    · rfl
  · rw [heatAt_putHeat _ _ _ (by omega)]
    exact ite_congr rfl (fun hj => by rw [hj]) fun _ => rfl

/-- A decay visit lowers each counter of a list without repetition once (R228). -/
theorem heatAt_foldl_cooled (l : List Nat) (hl : l.Nodup) (sl : Slice) (j : Nat) :
    (l.foldl Slice.cooled sl).heatAt j = if j ∈ l then sl.heatAt j - 1 else sl.heatAt j := by
  induction l generalizing sl with
  | nil => simp
  | cons i l ih =>
    obtain ⟨hi, hl⟩ := List.nodup_cons.mp hl
    rw [List.foldl_cons, ih hl, heatAt_cooled]
    by_cases hj : j = i
    · simp [hj, hi]
    · simp [hj]

/-! ## The row of a set is not moved by a report of an error in it (R366, R372) -/

/-- A set beyond the array is no set that a remap word names. -/
theorem row_beyond (s : State) (k : Nat) (ev : Bool) {set : Nat} (h : 2 ^ 14 ≤ set) : s.row k ev set = set := by
  unfold State.row
  dsimp only
  rw [List.find?_eq_none.mpr fun i _ => ?_]
  have := (bits (s.reg (oSl k ((if ev = true then 0x400 else 0x300) + 8 * i))) 4 14).isLt
  simp
  omega

theorem row_congr {s t : State} {k set : Nat} (h : ∀ i, i < 32 → t.reg (oSl k (0x400 + 8 * i)) = s.reg (oSl k (0x400 + 8 * i))) :
    t.row k true set = s.row k true set := by
  have hf : (List.range 32).find? (fun i => (t.reg (oSl k (0x400 + 8 * i))).getLsbD 0 && (bits (t.reg (oSl k (0x400 + 8 * i))) 4 14).toNat == set) =
      (List.range 32).find? fun i => (s.reg (oSl k (0x400 + 8 * i))).getLsbD 0 && (bits (s.reg (oSl k (0x400 + 8 * i))) 4 14).toNat == set :=
    List.find?_congr fun i hi => by rw [h i (List.mem_range.mp hi)]
  unfold State.row
  simp only [if_true, hf]

theorem errFree_row (k set r : Nat) : ErrFree k (4 + set / 2048) fun u => u.row k true set = r where
  setFld u o lo w v ho h := by
    by_cases hs : 2 ^ 14 ≤ set
    · rw [← h, row_beyond _ _ _ hs, row_beyond _ _ _ hs]
    · rw [← h]
      refine row_congr fun i hi => reg_setFld_other u lo w v ?_
      rintro rfl
      rcases ho with h | h | h | h | h <;> simp only [oSl, oLifeCe, oCisternStat] at h <;> omega
  mark _ _ _ _ h := h
  slice _ _ _ _ h := h
  fault _ _ _ h := h

/-! ## The reads of a decay visit (R214, R228) -/

/-- What a read of a heat counter leaves: the row of the set, what every counter reads as, and the frame. -/
def State.SameHeat (s t : State) (h set : Nat) : Prop :=
  t.row h true set = s.row h true set ∧ (∀ j, (t.sl h).heatAt j = (s.sl h).heatAt j) ∧ t.frame = s.frame

theorem readHeat_sameHeat {s u : State} {h set : Nat} (way : Nat) (hu : s.SameHeat u h set) : s.SameHeat (u.readHeat h set way) h set := by
  obtain ⟨hrow, hheat, hframe⟩ := hu
  unfold State.readHeat
  dsimp only
  split
  next hbad =>
    obtain ⟨hr, hh, hf⟩ := ((errFree_row h set _).and ((errFree_slice (g := Slice.heat) (fun _ _ _ _ => rfl) h _ h _).and
      (errFree_frame h _ _))).correctable set 1 (s := u) ⟨rfl, rfl, rfl⟩
    refine ⟨hr.trans hrow, fun j => ?_, hf.trans hframe⟩
    rw [State.updSl_sl_same, ← hheat, heatAt_deleted _ (by rw [hh]; exact hbad)]
    simp only [Slice.heatAt, hh]
  next => exact ⟨hrow, hheat, hframe⟩

theorem useLate_sameHeat (s : State) (h n set : Nat) : s.SameHeat (s.useLate h n) h set := by
  unfold State.useLate State.useEvgan
  split
  · exact ⟨rfl, fun _ => rfl, rfl⟩
  · refine ⟨rfl, fun j => ?_, rfl⟩
    rw [State.updSl_sl_same, State.updSl_sl_same]
    rfl

theorem decayVisit_cools {s : State} {h : Nat} (hin : s.inReset = false) (hr : s.ready = true) (hh : h < s.nSlices) (ho : s.rangeOpen h = true)
    (hp : s.placing h = true) (hd : (s.sl h).decayDue ≤ s.frame) (hb : s.placeRoom h 1 = true) :
    ∃ t, exec (.decayVisit h) s = .next t ∧ (t.sl h).decaySet = ((s.sl h).decaySet + 1) % 16384 ∧
      ∀ w, w < 16 → (t.sl h).heatAt (16 * s.row h true (s.sl h).decaySet + w) =
        (s.sl h).heatAt (16 * s.row h true (s.sl h).decaySet + w) - 1 := by
  refine ⟨_, row_due hin (decide_eq_true hh) (by simp [State.inService, hin, hr, ho, hp, hd, hb]), ?_, fun w hw => ?_⟩
  · rw [State.held_sl, State.updSl_sl_same]
    rfl
  · obtain ⟨hrow, hheat, -⟩ := foldSt_keeps (P := fun u => s.SameHeat u h (s.sl h).decaySet) (fun u k hu => readHeat_sameHeat k hu)
      (List.range 16) (useLate_sameHeat s h 1 _)
    have hnd : ((List.range 16).map fun w => 16 * s.row h true (s.sl h).decaySet + w).Nodup :=
      List.nodup_range.map fun a b hab => by simpa using hab
    have hmem : 16 * s.row h true (s.sl h).decaySet + w ∈ (List.range 16).map fun w => 16 * s.row h true (s.sl h).decaySet + w :=
      List.mem_map_of_mem (List.mem_range.mpr hw)
    rw [State.held_sl, State.updSl_sl_same, hrow, ← hheat]
    exact (heatAt_foldl_cooled _ hnd _ _).trans (if_pos hmem)

/-! ## The window (R229) -/

/-- The three published fields of a window. -/
def State.published (s : State) (h th on ev : Nat) : State :=
  ((s.setFld (oSl h 0x38) 0 3 th).setFld (oSl h 0x38) 8 17 on).setFld (oSl h 0x38) 32 17 ev

theorem published_reg_other (s : State) {h o : Nat} (th on ev : Nat) (ho : o ≠ oSl h 0x38) : (s.published h th on ev).reg o = s.reg o := by
  rw [State.published, reg_setFld_other _ _ _ _ ho, reg_setFld_other _ _ _ _ ho, reg_setFld_other _ _ _ _ ho]

theorem published_flds (s : State) (h th on ev : Nat) :
    (s.published h th on ev).fld (oSl h 0x38) 0 3 = th % 8 ∧ (s.published h th on ev).fld (oSl h 0x38) 8 17 = on % 2 ^ 17 ∧
      (s.published h th on ev).fld (oSl h 0x38) 32 17 = ev % 2 ^ 17 := by
  refine ⟨?_, ?_, fld_setFld_same _ _ _ _ _ (by decide)⟩
  · rw [State.published, fld_setFld_apart _ _ _ _ _ _ _ (by decide), fld_setFld_apart _ _ _ _ _ _ _ (by decide)]
    exact fld_setFld_same _ _ _ _ _ (by decide)
  · rw [State.published, fld_setFld_apart _ _ _ _ _ _ _ (by decide), fld_setFld_same _ _ _ _ _ (by decide)]

/-- The threshold that follows the window (R229). -/
def State.nextTheta (s : State) (h : Nat) : Nat := thetaNext (min 100 (s.fld oFilter 8 7)) (s.sl h).hOn (s.sl h).hEv (s.sl h).theta

/-- The window is published unless its slice has failed (R229). -/
def State.windowShown (s : State) (h : Nat) : State := if s.sliceFailed h then s else s.published h (s.nextTheta h) (s.sl h).hOn (s.sl h).hEv

theorem placeClose_eq {s : State} {h : Nat} (hdue : s.placeDue h = true) :
    ∃ n, s.placeClose h = (s.windowShown h).updSl h fun sl => { sl with theta := s.nextTheta h, hOn := 0, hEv := 0, windows := n } := by
  rw [State.placeClose, if_neg (by simp [hdue])]
  exact ⟨_, rfl⟩

/-- A window that closes leaves the threshold that follows, publishes what it counted, and counts anew (R229). -/
theorem placeClose_reads {s : State} {h : Nat} (hdue : s.placeDue h = true) :
    ((s.placeClose h).sl h).theta = thetaNext (min 100 (s.fld oFilter 8 7)) (s.sl h).hOn (s.sl h).hEv (s.sl h).theta ∧
    ((s.placeClose h).sl h).hOn = 0 ∧ ((s.placeClose h).sl h).hEv = 0 ∧ (∀ o, o ≠ oSl h 0x38 → (s.placeClose h).reg o = s.reg o) ∧
    (s.sliceFailed h = false → (s.placeClose h).fld (oSl h 0x38) 0 3 = ((s.placeClose h).sl h).theta % 8 ∧
      (s.placeClose h).fld (oSl h 0x38) 8 17 = (s.sl h).hOn % 2 ^ 17 ∧ (s.placeClose h).fld (oSl h 0x38) 32 17 = (s.sl h).hEv % 2 ^ 17) := by
  obtain ⟨n, hclose⟩ := placeClose_eq hdue
  rw [hclose, State.updSl_sl_same]
  refine ⟨rfl, rfl, rfl, fun o ho => ?_, fun hf => ?_⟩
  · rw [State.updSl_reg, State.windowShown]
    split
    · rfl
    · exact published_reg_other s _ _ _ ho
  · rw [State.updSl_fld, State.updSl_fld, State.updSl_fld, State.windowShown, if_neg (by simp [hf])]
    exact published_flds s h _ _ _

/-- Settles O35: the window publishes three separate fields of one register; the reads of a decay visit leave the row and what every counter
reads as, and its sixteen counters are distinct; each other row is due. -/
theorem placementLoop : Obligations.PlacementLoop := by
  intro s h hin hr hh ho
  refine ⟨fun hp hf hw => ?_, fun hp hd hb => decayVisit_cools hin hr hh ho hp hd hb, fun x l hq hm hp hb => ?_,
    fun m hm hf => ?_, fun m hm he => ?_⟩
  · have hdue : s.placeDue h = true := by simp [State.placeDue, State.inService, hin, hr, ho, hp, hf, hw]
    have hc : exec (.placementWindowClose h) s = .next (s.lapseAt (.place h)) :=
      (row_due hin (decide_eq_true hh) hdue).trans (by rw [held_lapseAt])
    obtain ⟨hth, hon, hev, hreg, hfld⟩ := placeClose_reads hdue
    exact ⟨hc, hth, hon, hev, hreg, hfld⟩
  · show execPlacementMoveStart h s = _
    rw [execPlacementMoveStart, hq, hm]
    exact row_due hin (decide_eq_true hh) (by simp [State.inService, hin, hr, ho, hp, hb])
  · show execPlacementMoveCommit h s = _
    rw [execPlacementMoveCommit, hm]
    exact (row_due hin (decide_eq_true hh) (by simp [hf, ho])).trans (by rw [State.held_eq] <;> rfl)
  · rw [State.endMove, hm]
    exact if_pos he

end Sys2Proof.Machine
end

section
/-! SUPPORT. The statement about the set reads of the walks and the debug read: what a set read leaves of the walk that reads it. -/

namespace Sys2Proof.Machine

/-! ## Reads of words keep what their reports and their marks leave alone (R204, R205, R214, R359) -/

section
variable {h : Nat} {P : State → Prop}

theorem readLine_keeps {l : Loc} (hP : ErrFree h (bankOf l) P)
    (hc : ∀ (u : State) (c : Slice → List (Nat × Loc)), P u → P (u.updSl h fun sl => { sl with correct := c sl })) {s : State} (j : Nat)
    (hs : P s) : P (s.readLine h l j) := by
  unfold State.readLine
  split
  · exact hs
  · split
    · exact hs
    · exact hc _ (fun sl => sl.correct ++ [_]) (hP.correctable _ _ hs)
  · exact hP.uncorrectable _ _ hs

theorem readLines_keeps {l : Loc} (hP : ErrFree h (bankOf l) P)
    (hc : ∀ (u : State) (c : Slice → List (Nat × Loc)), P u → P (u.updSl h fun sl => { sl with correct := c sl })) {s : State} (hs : P s) :
    P (s.readLines h l) := foldSt_keeps (fun _ j hu => readLine_keeps hP hc j hu) _ hs

theorem orphan_keeps {ls : List Loc} (hP : ∀ l ∈ ls, ErrFree h (bankOf l) P)
    (ho : ∀ (u : State) (c : Slice → List Loc), P u → P (u.updSl h fun sl => { sl with orphans := c sl })) {s : State} (hs : P s) :
    P (s.orphan h ls) := by
  refine foldl_keeps ls hs fun u l hl hu => ?_
  split
  · exact hu
  · exact ho _ (fun sl => sl.orphans ++ [l]) ((hP l hl).uncorrectable _ _ hu)

end

/-! ## A walk that stands at a position -/

/-- The slice runs an operation whose next position is `p`, and its LZ_SF_CTL reads as `x`. -/
def State.Walks (u : State) (h p : Nat) (op : MaintOp) (x : Reg) : Prop :=
  (u.sl h).maint.pos = p ∧ (u.sl h).maint.running = some op ∧ u.reg (oSl h 0x28) = x

section
variable {h p : Nat} {op : MaintOp} {x : Reg}

theorem errFree_walks {b : Nat} (hb : b ≤ 12) : ErrFree h b fun u => u.Walks h p op x := by
  have hreg : ¬ ErrReg h b (oSl h 0x28) := by
    rintro (h | h | h | h | h) <;> simp only [oSl, oLifeCe, oCisternStat] at h <;> omega
  exact (errFree_slice (g := fun v => v.maint.pos) (fun _ _ _ _ => rfl) h b h p).and
    ((errFree_slice (g := fun v => v.maint.running) (fun _ _ _ _ => rfl) h b h (some op)).and (errFree_reg hreg x))

theorem State.Walks.updSl {u : State} (hu : u.Walks h p op x) {f : Slice → Slice} (k : Nat)
    (hf : ∀ v, (f v).maint.pos = v.maint.pos ∧ (f v).maint.running = v.maint.running) : (u.updSl k f).Walks h p op x :=
  ⟨(updSl_keeps (fun v => v.maint.pos) (fun v => (hf v).1) u k h).trans hu.1,
    (updSl_keeps (fun v => v.maint.running) (fun v => (hf v).2) u k h).trans hu.2.1, hu.2.2⟩

theorem State.Walks.incFld {u : State} (hu : u.Walks h p op x) {o : Nat} (ho : oSl h 0x28 ≠ o) (lo w n : Nat) :
    (u.incFld o lo w n).Walks h p op x := ⟨hu.1, hu.2.1, (reg_incFld_other u lo w n ho).trans hu.2.2⟩

theorem State.Walks.scrubCount {u : State} (hu : u.Walks h p op x) (e lo w n : Nat) : (u.incFld (oSl e 0x80) lo w n).Walks h p op x :=
  hu.incFld (by simp only [oSl]; omega) lo w n

theorem bankOf_placesAt {q : Nat} {l : Loc} (h : l ∈ placesAt q) : bankOf l ≤ 12 := by
  unfold placesAt at h
  split at h
  · obtain ⟨w, -, rfl⟩ := List.mem_map.mp h
    simp only [bankOf, Config.ondieSets] at *
    omega
  · split at h
    · obtain ⟨w, -, rfl⟩ := List.mem_map.mp h
      simp only [bankOf, stagePos, Config.ondieSets, Config.evganSets] at *
      omega
    · obtain ⟨w, -, rfl⟩ := List.mem_map.mp h
      exact le_rfl

theorem State.Walks.readLines {u : State} (hu : u.Walks h p op x) {l : Loc} (hb : bankOf l ≤ 12) : (u.readLines h l).Walks h p op x :=
  readLines_keeps (errFree_walks hb) (fun _ _ hv => hv.updSl h fun _ => ⟨rfl, rfl⟩) hu

theorem State.Walks.orphan {u : State} (hu : u.Walks h p op x) {ls : List Loc} (hb : ∀ l ∈ ls, bankOf l ≤ 12) :
    (u.orphan h ls).Walks h p op x :=
  orphan_keeps (fun l hl => errFree_walks (hb l hl)) (fun _ _ hv => hv.updSl h fun _ => ⟨rfl, rfl⟩) hu

/-! ### What the operations do with a set that they have read -/

theorem State.Walks.findSectors {u : State} (hu : u.Walks h p op x) (o : MaintOp) (ls : List Loc) : (State.findSectors h o u ls).Walks h p op x :=
  hu.updSl h fun _ => ⟨rfl, rfl⟩

theorem State.Walks.recountSet {u : State} (hu : u.Walks h p op x) (ls : List Loc) : (State.recountSet h u ls).Walks h p op x :=
  foldl_keeps (P := fun v : State => v.Walks h p op x) ls hu fun _ _ _ hv => hv.updSl h fun _ => ⟨rfl, rfl⟩

theorem State.Walks.readRepl {u : State} (hu : u.Walks h p op x) {ev : Bool} {set : Nat} (hb : (if ev then 4 + set / 2048 else set / 1024) ≤ 12) :
    (u.readRepl h ev set).Walks h p op x := by
  unfold State.readRepl
  refine iteInduction (motive := fun v : State => v.Walks h p op x) (fun _ => ?_) fun _ => hu
  exact ((errFree_walks hb).correctable _ _ hu).updSl h fun v => by cases ev <;> exact ⟨rfl, rfl⟩

theorem State.Walks.readHeat {u : State} (hu : u.Walks h p op x) {set : Nat} (hb : 4 + set / 2048 ≤ 12) (way : Nat) :
    (u.readHeat h set way).Walks h p op x := by
  unfold State.readHeat
  dsimp only
  split
  · exact ((errFree_walks hb).correctable _ _ hu).updSl h fun _ => ⟨rfl, rfl⟩
  · exact hu

theorem State.Walks.scrubSide {u : State} (hu : u.Walks h p op x) (q : Nat) : (u.scrubSide h q).Walks h p op x := by
  unfold State.scrubSide
  split
  · exact hu
  next hq =>
    have hq : q < 20480 := Nat.lt_of_not_le hq
    dsimp only
    generalize hev : Nat.ble Config.ondieSets q = ev
    cases ev with
    | false =>
      have hlt : q < 4096 := Nat.lt_of_not_le fun hle => Bool.false_ne_true (hev.symm.trans (Nat.ble_eq_true_of_le hle))
      have hb : q / 1024 ≤ 12 := by omega
      simp only [Bool.false_eq_true, if_false]
      exact (hu.readRepl (ev := false) hb).scrubCount _ _ _ _
    | true =>
      have hb : 4 + (q - Config.ondieSets) / 2048 ≤ 12 := by simp only [Config.ondieSets]; omega
      simp only [if_true]
      exact (foldSt_keeps (P := fun v : State => v.Walks h p op x) (fun _ w hv => hv.readHeat hb w) (List.range 16)
        (hu.readRepl (ev := true) hb)).scrubCount _ _ _ _

theorem State.Walks.scrubWord {u : State} (hu : u.Walks h p op x) {l : Loc} (hb : bankOf l ≤ 12) : (u.scrubWord h l).Walks h p op x := by
  unfold State.scrubWord
  refine iteInduction (motive := fun v : State => v.Walks h p op x) (fun _ => State.Walks.updSl ?_ h fun _ => ⟨rfl, rfl⟩) fun _ => ?_
  all_goals
    refine foldl_keeps (P := fun v : State => v.Walks h p op x) _ hu fun v j _ hv => ?_
    have hce := (errFree_walks (p := p) (op := op) (x := x) hb).correctable (setOf l).1 (setOf l).2 hv
    have hue := (errFree_walks (p := p) (op := op) (x := x) hb).uncorrectable (setOf l).1 (setOf l).2 hv
    split
    · exact hv
    · have hc : State.Walks (if (u.sl h).fixDue l then v else v.correctable h (bankOf l) (setOf l).1 (setOf l).2) h p op x :=
        iteInduction (motive := fun v : State => v.Walks h p op x) (fun _ => hv) fun _ => hce
      exact iteInduction (motive := fun v : State => v.Walks h p op x) (fun _ => hc.scrubCount _ _ _ _) fun _ => hc
    · refine iteInduction (motive := fun v : State => v.Walks h p op x) (fun _ => hue.scrubCount _ _ _ _) fun _ => ?_
      exact iteInduction (motive := fun v : State => v.Walks h p op x) (fun _ => hue.scrubCount _ _ _ _) fun _ => hue.updSl h fun _ => ⟨rfl, rfl⟩

theorem State.Walks.scrubSet {u : State} (hu : u.Walks h p op x) (ls : List Loc) : (State.scrubSet h u ls).Walks h p op x := by
  unfold State.scrubSet
  dsimp only
  refine foldl_keeps (P := fun v : State => v.Walks h p op x) _ ?_ fun v l hl hv => hv.scrubWord (bankOf_placesAt hl)
  refine (State.Walks.scrubSide ?_ _).scrubCount _ _ _ _
  split
  · exact hu.scrubCount _ _ _ _
  · exact hu

end

/-! ## A set read (R239, R364, R382, R446, R458) -/

section
variable {s : State} {h : Nat} {op : MaintOp}

theorem maintCheck_underway {u : State} {q : Nat} {x : Reg} (hu : u.Walks h q op x) (hq : q ≤ stagePos) (hheld : u.maintHeld h op = false) :
    u.maintCheck h = u := by
  obtain ⟨hpos, hrun, -⟩ := hu
  have hsus : u.suspend h = u := by
    unfold State.suspend
    dsimp only
    rw [hrun]
    exact if_neg (by simp [hheld])
  unfold State.maintCheck
  dsimp only
  rw [hsus, hrun]
  refine if_pos ?_
  rw [hpos]
  simp only [Bool.or_eq_true, decide_eq_true_eq]
  exact .inl (.inl (.inl (.inl (.inl (.inl hq)))))

theorem count_reg_other (s : State) (k ev : Nat) (f : Option (Nat × Nat)) {o : Nat} (ho : ∀ i, i < 8 → o ≠ oSl k (0x540 + 8 * i)) :
    (s.count k ev f).reg o = s.reg o :=
  count_keeps (P := fun u => u.reg o = s.reg o) k ev f (fun u i lo w v hi hu => (reg_setFld_other u lo w v (ho i hi)).trans hu)
    (fun _ _ _ _ _ hu => hu) rfl

/-- The selvedge slot is used and the budget charged: the walk stands behind the position. -/
theorem walks_taken (u : State) (h e n q : Nat) (hrun : (u.sl h).maint.running = some op) :
    (((u.useSelvedge e).useLate h n).updSl h fun sl => { sl with maint := { sl.maint with pos := q } }).Walks h q op (u.reg (oSl h 0x28)) := by
  have hmaint : ((u.useSelvedge e).sl h).maint = (u.sl h).maint :=
    (congrArg (fun l => (tget {} l h).maint) (count_slices _ e 4 none)).trans
      (updSl_keeps Slice.maint (f := fun sl => { sl with slots := sl.slots ||| 0x8000 }) (fun _ => rfl) u e h)
  have hreg : (u.useSelvedge e).reg (oSl h 0x28) = u.reg (oSl h 0x28) := count_reg_other _ e 4 none fun i hi => by simp only [oSl]; omega
  have hlate (v : State) : ((v.useLate h n).sl h).maint = (v.sl h).maint ∧ (v.useLate h n).reg (oSl h 0x28) = v.reg (oSl h 0x28) := by
    unfold State.useLate State.useEvgan
    split
    · exact ⟨rfl, rfl⟩
    · exact ⟨by rw [State.updSl_sl_same, State.updSl_sl_same], rfl⟩
  refine ⟨by rw [State.updSl_sl_same], ?_, (hlate _).2.trans hreg⟩
  rw [State.updSl_sl_same, (hlate _).1, hmaint, hrun]

/-- What a set read leaves of its walk, whatever the operation does with the set. -/
theorem readSet_walks {u : State} {f : State → List Loc → State} {q : Nat} (hrun : (u.sl h).maint.running = some op)
    (hheld : u.maintHeld h op = false) (hn : u.nextPos op (u.sl h).maint.pos = q) (hq : q < stagePos)
    (hf : ∀ (v : State) ls x, v.Walks h (q + 1) op x → (f v ls).Walks h (q + 1) op x) :
    (u.readSet h op f).Walks h (q + 1) op (u.reg (oSl h 0x28)) := by
  unfold State.readSet
  rw [hn]
  have h0 := walks_taken u h (u.engine h) (readCost q) (q + 1) hrun
  generalize hx : u.reg (oSl h 0x28) = x at h0
  dsimp only
  generalize ((u.useSelvedge (u.engine h)).useLate h (readCost q)).updSl h (fun sl => { sl with maint := { sl.maint with pos := q + 1 } }) = v at h0
  have h1 := h0.orphan (ls := v.usedAt h q false) fun l hl => bankOf_placesAt (List.mem_filter.mp hl).1
  generalize v.orphan h (v.usedAt h q false) = v at h1
  have h2 : State.Walks (if op = .scrub then v else (v.usedAt h q true).foldl (fun s l => s.readLines h l) v) h (q + 1) op x :=
    iteInduction (motive := fun v : State => v.Walks h (q + 1) op x) (fun _ => h1) fun _ =>
      foldl_keeps (P := fun v : State => v.Walks h (q + 1) op x) _ h1 fun v l hl hv => hv.readLines (bankOf_placesAt (List.mem_filter.mp hl).1)
  generalize (if op = .scrub then v else (v.usedAt h q true).foldl (fun s l => s.readLines h l) v) = v at h2
  have h3 := hf v (v.usedAt h q true) x h2
  have hheld' : (f v (v.usedAt h q true)).maintHeld h op = false := by
    rw [State.maintHeld, flag_congr (h3.2.2.trans hx.symm)]
    exact hheld
  rw [maintCheck_underway h3 hq hheld']
  exact h3

/-- A row that reads a set for the operation that runs. -/
theorem readRow_reads {p : MaintOp → Bool} {f : MaintOp → State → List Loc → State} (hin : s.inReset = false) (hh : h < s.nSlices)
    (hrun : ((s.maintTidy h).sl h).maint.running = some op) (hready : (s.maintTidy h).readReady h p = true)
    (hf : ∀ (v : State) ls q x, v.Walks h q op x → (f op v ls).Walks h q op x) :
    readRow h p f s = .next (s.held ((s.maintTidy h).readSet h op (f op))) ∧
      ((s.maintTidy h).nextPos op ((s.maintTidy h).sl h).maint.pos < stagePos → ∃ t, readRow h p f s = .next t ∧
        (t.sl h).maint.pos = (s.maintTidy h).nextPos op ((s.maintTidy h).sl h).maint.pos + 1 ∧ (t.sl h).maint.running = some op) := by
  have hx : readRow h p f s = .next (s.held ((s.maintTidy h).readSet h op (f op))) := by
    unfold readRow
    dsimp only
    rw [need_of (decide_eq_true hh), hrun]
    exact live_due hin hready
  have hheld : (s.maintTidy h).maintHeld h op = false := by
    unfold State.readReady at hready
    dsimp only at hready
    rw [hrun] at hready
    simp only [Bool.and_eq_true, Bool.not_eq_true'] at hready
    exact hready.1.1.1.1.2
  refine ⟨hx, fun hq => ?_⟩
  obtain ⟨hpos, hr, -⟩ := readSet_walks hrun hheld rfl hq fun v ls x hv => hf v ls _ x hv
  exact ⟨_, hx, hpos, hr⟩

end

/-! ## The debug read (R533) -/

theorem debugRead_reads {s : State} {h : Nat} (hin : s.inReset = false) (hr : s.ready = true) (hh : h < s.nSlices) (hd : s.bus.dbgStart = true)
    (hs : s.fld oDbg 0 4 = h) (hv : s.selvedge (s.engine h) 6 = true) (he : s.evRoom h (if s.fld oDbg 4 2 = 1 then 1 else 0) = true) :
    ∃ t w c, exec (.debugRead h) s = .next t ∧ t.bus.dbgStart = false ∧ t.bus.debug = some (h, dbgWords w c, 0) ∧
      (s.fld oDbg 4 2 = 0 → w = (s.wayAt h false (s.fld oDbg 6 14 % 4096) (s.fld oDbg 20 4)).setWidth 256 ∧ c = 0) ∧
      (s.fld oDbg 4 2 = 1 → w = (s.wayAt h true (s.fld oDbg 6 14 % 16384) (s.fld oDbg 20 4)).setWidth 256 ∧ c = 0) ∧
      (s.fld oDbg 4 2 = 2 → w = (s.stageAt h (s.fld oDbg 6 14 % 8)).word.setWidth 256 ∧ c = 0) ∧
      (s.fld oDbg 4 2 = 3 → w = tget 0 (s.sl h).journal (s.fld oDbg 6 14 % 1024)) := by
  have hs' : (bits (s.reg oDbg) 0 4).toNat = h := hs
  have he' : s.evRoom h (if (bits (s.reg oDbg) 4 2).toNat = 1 then 1 else 0) = true := he
  refine ⟨_, _, _, row_due hin (decide_eq_true hh) (by simp [State.inService, hin, hr, hd, hs', hv, he']), rfl, rfl, fun h0 => ?_, fun h1 => ?_,
    fun h2 => ?_, fun h3 => ?_⟩
  · rw [show (bits (s.reg oDbg) 4 2).toNat = 0 from h0]
    exact ⟨rfl, rfl⟩
  · rw [show (bits (s.reg oDbg) 4 2).toNat = 1 from h1]
    exact ⟨rfl, rfl⟩
  · rw [show (bits (s.reg oDbg) 4 2).toNat = 2 from h2]
    exact ⟨rfl, rfl⟩
  · rw [show (bits (s.reg oDbg) 4 2).toNat = 3 from h3]
    rfl

/-- Settles O43: neither the reads of a set, nor the reports of their errors, nor what the operation finds in it move the walk, and a walk with
sets left does not end; the debug read is due. -/
theorem setsAndWordsAreRead : Obligations.SetsAndWordsAreRead := by
  refine ⟨fun s h op hin hh hrun => ⟨fun hr => ?_, fun hr => ?_, fun hr => ?_, fun hr => ?_, fun hr => ?_⟩,
    fun s h hin hr hh hd hs hv he => debugRead_reads hin hr hh hd hs hv he⟩
  · exact readRow_reads hin hh hrun hr fun v ls q x hv => hv.findSectors _ ls
  · exact readRow_reads hin hh hrun hr fun v ls q x hv => hv.findSectors _ ls
  · exact readRow_reads hin hh hrun hr fun v ls q x hv => hv.findSectors _ ls
  · exact readRow_reads (f := fun _ => State.scrubSet h) hin hh hrun hr fun v ls q x hv => hv.scrubSet ls
  · exact readRow_reads (f := fun _ => State.recountSet h) hin hh hrun hr fun v ls q x hv => hv.recountSet ls

end Sys2Proof.Machine
end

section
/-! SUPPORT. The statement about the words of the filter: a word written back, a word reread, and a row remapped. -/

namespace Sys2Proof.Machine

/-! ## A word that is written reads back (R205, R213, R404) -/

theorem zeroSet_zeroed (s : State) (k : Nat) (ev : Bool) (set : Nat) : ((s.zeroSet k ev set).sl k).unzeroed ev set = false := by
  unfold State.zeroSet
  split
  · dsimp only
    rw [State.updSl_sl_same]
    cases ev <;> simp [Slice.unzeroed]
  next h => simpa using h

section
variable {s : State} (hf : s.flag oFlip 0 = false)
include hf

theorem zeroSet_reg (k : Nat) (ev : Bool) (set o : Nat) : (s.zeroSet k ev set).reg o = s.reg o := by
  unfold State.zeroSet
  simp only [flipWord_of_disarmed hf]
  split
  · cases ev <;> rfl
  · rfl

theorem zeroSet_reread (k : Nat) (ev : Bool) (set : Nat) : ((s.zeroSet k ev set).sl k).reread = (s.sl k).reread := by
  unfold State.zeroSet
  refine iteInduction (motive := fun v : State => (v.sl k).reread = (s.sl k).reread) (fun _ => ?_) fun _ => rfl
  cases ev with
  | false => simp only [flipWord_of_disarmed hf, Bool.false_eq_true, if_false, State.updSl_sl_same]
  | true => simp only [if_true, State.updSl_sl_same, State.useEvgan]

/-- A word that is written reads back, and the slice has noted the write (R205, R213). -/
theorem putEntry_reads (k : Nat) (l : Loc) (e : Entry) :
    (s.putEntry k l e).entry k l = e ∧ ((s.putEntry k l e).sl k).reread = ((s.sl k).wordWritten l).reread := by
  have hw : (s.updSl k fun sl => sl.wordWritten l).flag oFlip 0 = false := hf
  have hz (ev : Bool) (set : Nat) : ((s.updSl k fun sl => sl.wordWritten l).zeroSet k ev set).flag oFlip 0 = false :=
    (flag_congr (zeroSet_reg hw k ev set oFlip) 0).trans hw
  unfold State.putEntry
  cases l with
  | ondie set way =>
    simp only [flipWord_of_disarmed (hz false set)]
    have hun := zeroSet_zeroed (s.updSl k fun sl => sl.wordWritten (.ondie set way)) k false set
    have hre := zeroSet_reread hw k false set
    generalize (s.updSl k fun sl => sl.wordWritten (.ondie set way)).zeroSet k false set = u at hun hre
    refine ⟨?_, ?_⟩
    · simp only [State.entry, State.wayAt, State.updSl_sl_same]
      rw [if_neg (by simpa [Slice.unzeroed] using hun), if_neg (by decide)]
      exact tget_tputD_same _ _ _ _
    · rw [State.updSl_sl_same] at hre ⊢
      exact hre
  | evgan set way =>
    dsimp only
    have hun := zeroSet_zeroed (s.updSl k fun sl => sl.wordWritten (.evgan set way)) k true set
    have hre := zeroSet_reread hw k true set
    generalize (s.updSl k fun sl => sl.wordWritten (.evgan set way)).zeroSet k true set = u at hun hre
    refine ⟨?_, ?_⟩
    · simp only [State.entry, State.wayAt, State.updSl_sl_same]
      rw [if_neg (by simpa [Slice.unzeroed] using hun), if_pos trivial, List.reverse_append, List.reverse_singleton, List.singleton_append,
        List.find?_cons_of_pos]
      exact beq_self_eq_true _
    · rw [State.updSl_sl_same] at hre ⊢
      exact hre
  | stage i =>
    simp only [flipWord_of_disarmed hw]
    refine ⟨?_, by rw [State.updSl_sl_same, State.updSl_sl_same]⟩
    rw [State.entry, State.stageAt, State.updSl_sl_same, tget_tput_same]

/-- A word that is written back reads as corrected (R205). -/
theorem writeBack_reads (h : Nat) (l : Loc) :
    (s.writeBack h l).entry h l = fixEntry (s.entry h l) ∧ ((s.writeBack h l).sl h).reread = ((s.sl h).wordWritten l).reread := by
  unfold State.writeBack
  cases l with
  | ondie set way => exact putEntry_reads hf h _ _
  | evgan set way => exact putEntry_reads hf h _ _
  | stage i =>
    dsimp only
    split
    · exact putEntry_reads hf h _ _
    · refine ⟨?_, by rw [State.updSl_sl_same]⟩
      rw [State.entry, State.stageAt, State.updSl_sl_same, tget_tputD_same]

end

/-- A word in which a read found an error is to be reread once it is written (R367). -/
theorem wordWritten_reread {sl : Slice} {l : Loc} (h : (∃ f, (f, l) ∈ sl.correct) ∨ l ∈ sl.maint.fixes) :
    l ∈ (sl.wordWritten l).reread := by
  have hdue : ((sl.correct.any fun c => c.2 == l) || sl.maint.fixes.contains l) = true := by
    rw [Bool.or_eq_true]
    refine h.imp (fun ⟨f, hc⟩ => List.any_eq_true.mpr ⟨_, hc, beq_self_eq_true _⟩) fun hl => by simpa using hl
  unfold Slice.wordWritten
  dsimp only
  rw [if_pos hdue]
  unfold Slice.addReread
  dsimp only
  split
  next hc => simpa using hc
  next => exact List.mem_append_right _ (List.mem_singleton_self _)

/-! ## A row is copied to a spare row (R366, R368) -/

/-- The words of a row's ways, written in order (R368). -/
theorem tget_copied (f : Nat → Entry) (n : Nat) (ws : List Nat) (t : Tbl Entry) (i : Nat) :
    tget 0 (ws.foldl (fun t w => tputD 0 (n + w) (f w) t) t) (n + i) = if i ∈ ws then f i else tget 0 t (n + i) := by
  induction ws generalizing t with
  | nil => rfl
  | cons w ws ih =>
    rw [List.foldl_cons, ih, tget_tputD]
    by_cases hi : i = w
    · simp [hi]
    · simp [hi]

/-- The array of a tier. -/
def Slice.rows (sl : Slice) (ev : Bool) : Tbl Entry := if ev then sl.evgan else sl.ondie

/-- The words of the spare row are the corrected words of the row that it replaces (R368). -/
theorem copyRow_words {s : State} {h : Nat} {ev : Bool} {set old new w : Nat} (hf : s.flag oFlip 0 = false) (hw : w < 16) :
    tget 0 (((s.copyRow h ev set old new).sl h).rows ev) (16 * new + w) = fixEntry (tget 0 ((s.sl h).rows ev) (16 * old + w)) := by
  have hcopy (src t : Tbl Entry) :
      tget 0 (tputD 0 (16 * new) (fixEntry (tget 0 src (16 * old)))
        ((List.range 16).foldl (fun t w => tputD 0 (16 * new + w) (fixEntry (tget 0 src (16 * old + w))) t) t)) (16 * new + w) =
        fixEntry (tget 0 src (16 * old + w)) := by
    rw [tget_tputD, tget_copied (fun w => fixEntry (tget 0 src (16 * old + w))), if_pos (List.mem_range.mpr hw)]
    split
    next h0 => rw [show w = 0 by omega]; rfl
    · rfl
  unfold State.copyRow
  simp only [flipWord_of_disarmed hf]
  cases ev with
  | false => rw [State.updSl_sl_same]; exact hcopy _ _
  | true => rw [State.updSl_sl_same]; exact hcopy _ _

theorem copyRow_copies {s : State} {h : Nat} {ev : Bool} {set old new : Nat} (hf : s.flag oFlip 0 = false) :
    ((s.copyRow h ev set old new).sl h).copies = (s.sl h).copies := by
  unfold State.copyRow
  simp only [flipWord_of_disarmed hf]
  cases ev with
  | false => rw [State.updSl_sl_same]; rfl
  | true => rw [State.updSl_sl_same]; rfl

/-- A slice source sets its event bit (R535). -/
theorem raiseSl_flag (s : State) (k code : Nat) {i : Nat} (d : BitVec 64) (hi : i < 64) : (s.raiseSl k i code d).flag (oSl k 0xA8) i = true := by
  have hp : (s.pendSl k i).flag (oSl k 0xA8) i = true := by
    rw [State.pendSl, if_pos hi]
    exact flag_setFlag_same _ _ _ _ hi
  unfold State.raiseSl
  dsimp only
  split
  · split
    · exact hp
    · rw [flag_congr (reg_incFld_other _ _ _ _ (by simp only [oSl]; omega)), hp]
  · exact hp

/-- The offset of a remap word (R366). -/
def oSpare (h : Nat) (ev : Bool) (k : Nat) : Nat := oSl h ((if ev then 0x400 else 0x300) + 8 * k)

/-- What a remap leaves: the words of the spare row, its remap word in force, and its event (R368). -/
def State.Remapped (s t : State) (h : Nat) (ev : Bool) (set k source : Nat) : Prop :=
  (t.sl h).copies = (s.sl h).copies ∧ t.reg (oSpare h ev k) = BitVec.ofNat 64 (set * 16 + source * 4) ||| 1 ∧
  (∀ w, w < 16 → tget 0 ((t.sl h).rows ev) (16 * ((if ev then 16384 else 4096) + k) + w) =
    fixEntry (tget 0 ((s.sl h).rows ev) (16 * s.row h ev set + w))) ∧
  t.flag (oSl h 0xA8) 40 = true

theorem remap_remapped {s : State} {h : Nat} {ev : Bool} {set k source : Nat} (hf : s.flag oFlip 0 = false) (hh : h < 16)
    (hk : k < if ev then 32 else 16) : s.Remapped (s.remap h ev set k source) h ev set k source := by
  have hne : ¬ ErrReg h 0 (oSpare h ev k) := by
    have hk' : k < 32 := lt_of_lt_of_le hk (by cases ev <;> decide)
    rintro (hx | hx | hx | hx | hx) <;> cases ev <;> simp [oSpare, oSl, oLifeCe, oCisternStat] at hx <;> omega
  have hu : ∃ u : State, u.flag oFlip 0 = false ∧ (∀ j, u.sl j = s.sl j) ∧
      s.remap h ev set k source = (((u.copyRow h ev set (s.row h ev set) ((if ev then 16384 else 4096) + k)).setReg (oSpare h ev k)
        (BitVec.ofNat 64 (set * 16 + source * 4) ||| 1)).raiseSl h 40 source (setDetail set (if ev then 1 else 0))) := by
    unfold State.remap
    dsimp only
    refine ⟨_, ?_, ?_, rfl⟩
    · refine iteInduction (motive := fun v : State => v.flag oFlip 0 = false) (fun _ => ?_) fun _ => hf
      have ho (p : Nat) : oFlip ≠ oSl h p := by simp only [oFlip, oSl]; omega
      rw [flag_setFlag_other _ _ _ _ (ho _), flag_setFlag_other _ _ _ _ (ho _), hf]
    · exact iteInduction (motive := fun v : State => ∀ j, v.sl j = s.sl j) (fun _ j => by rw [State.setFlag_sl, State.setFlag_sl]) fun _ _ => rfl
  obtain ⟨u, huf, hus, hr⟩ := hu
  have hkeep := ((errFree_slice (g := Slice.copies) (fun _ _ _ _ => rfl) h 0 h _).and ((errFree_slice (g := fun v => v.rows ev)
    (fun _ _ _ _ => rfl) h 0 h _).and (errFree_reg hne _))).raiseSl 40 source (setDetail set (if ev then 1 else 0))
    (s := (u.copyRow h ev set (s.row h ev set) ((if ev then 16384 else 4096) + k)).setReg (oSpare h ev k)
        (BitVec.ofNat 64 (set * 16 + source * 4) ||| 1)) ⟨rfl, rfl, rfl⟩
  rw [hr]
  obtain ⟨hcop, hrows, hreg⟩ := hkeep
  refine ⟨?_, ?_, fun w hw => ?_, raiseSl_flag _ _ _ _ (by decide)⟩
  · rw [hcop, State.setReg_sl, copyRow_copies huf, hus]
  · rw [hreg, reg_setReg_same]
  · rw [hrows, State.setReg_sl, copyRow_words huf hw, hus]

theorem State.Remapped.congr {s t u : State} {h : Nat} {ev : Bool} {set k source : Nat} (ht : s.Remapped t h ev set k source)
    (hs : u.sl h = t.sl h) (ho : u.reg (oSpare h ev k) = t.reg (oSpare h ev k)) (hf : u.reg (oSl h 0xA8) = t.reg (oSl h 0xA8)) :
    s.Remapped u h ev set k source := by
  obtain ⟨hc, hr, hw, hb⟩ := ht
  exact ⟨by rw [hs, hc], ho.trans hr, fun w hi => by rw [hs, hw w hi], (flag_congr hf 40).trans hb⟩

theorem oSpare_ne {h k : Nat} {ev : Bool} {o : Nat} (hk : k < 32) (ho : o < 0x100000 ∨ ∃ e p, o = oSl e p ∧ p < 0x300) :
    oSpare h ev k ≠ o := by
  rcases ho with ho | ⟨e, p, rfl, hp⟩
  · cases ev <;> simp only [oSpare, oSl] <;> omega
  · cases ev <;> simp [oSpare, oSl] <;> omega

/-- The end of the frame in which the spare row is written: the remap, its fault record and the scrub's count (R368, R384, R547). -/
theorem endCopies_remaps {s : State} {h : Nat} {c : RowCopy} (hc : (s.sl h).copies = [c]) (hd : c.start + (if c.ev then 2 else 0) ≤ s.frame)
    (hh : h < 16) (hk : c.k < if c.ev then 32 else 16) (hf : s.flag oFlip 0 = false) :
    (s.updSl h fun sl => { sl with copies := [] }).Remapped (s.endCopies h) h c.ev c.set c.k c.source := by
  have hk' : c.k < 32 := lt_of_lt_of_le hk (by split <;> decide)
  have herase : (s.updSl h fun sl => { sl with copies := sl.copies.erase c }) = s.updSl h fun sl => { sl with copies := [] } := by
    simp only [State.updSl, hc, List.erase_cons_head]
  have hrem := remap_remapped (s := s.updSl h fun sl => { sl with copies := [] }) (ev := c.ev) (set := c.set) (k := c.k) (source := c.source) hf hh hk
  have hdone : (s.sl h).copies.filter (fun c => decide (c.start + (if c.ev then 2 else 0) ≤ s.frame)) = [c] := by
    rw [hc]
    simp [hd]
  unfold State.endCopies
  dsimp only
  rw [hdone, List.foldl_cons, List.foldl_nil, herase]
  generalize (s.updSl h fun sl => { sl with copies := [] }) = s0 at hrem
  generalize s0.remap h c.ev c.set c.k c.source = t at hrem
  have hfault := hrem.congr (u := t.faultDue (72 * h + 40) c.source (setDetail c.set (if c.ev then 1 else 0)))
    (State.setFlag_sl _ _ _ _ _) (faultDue_reg_other t _ _ _ (oSpare_ne hk' (.inl (by decide))))
    (faultDue_reg_other t _ _ _ (by simp only [oSl, oCisternStat]; omega))
  generalize t.faultDue (72 * h + 40) c.source (setDetail c.set (if c.ev then 1 else 0)) = t at hfault
  refine iteInduction (motive := fun v : State => s0.Remapped v h c.ev c.set c.k c.source) (fun _ => ?_) fun _ => hfault
  exact hfault.congr (State.incFld_sl _ _ _ _ _ _) (reg_incFld_other _ _ _ _ (oSpare_ne hk' (.inr ⟨_, _, rfl, by decide⟩)))
    (reg_incFld_other _ _ _ _ (by simp only [oSl]; omega))

/-! ## The selvedge slot that a maintenance access takes (R236, R544) -/

section
variable (s : State) (e h n : Nat)

theorem taken_keeps {α : Type} {g : Slice → α} (hg : ∀ v a b c, g { v with slots := a, evUsed := b, evLate := c } = g v) (k : Nat) :
    g (((s.useSelvedge e).useLate h n).sl k) = g (s.sl k) := by
  have hsel : g ((s.useSelvedge e).sl k) = g (s.sl k) := (congrArg (fun l => g (tget {} l k)) (count_slices _ e 4 none)).trans
    (updSl_keeps g (f := fun sl => { sl with slots := sl.slots ||| 0x8000 }) (fun v => hg v _ v.evUsed v.evLate) s e k)
  have hev (v : State) : g ((v.useEvgan h n).sl k) = g (v.sl k) := updSl_keeps g (fun v => hg v v.slots _ v.evLate) v h k
  rw [← hsel]
  refine iteInduction (motive := fun v : State => g (v.sl k) = g ((s.useSelvedge e).sl k)) (fun _ => rfl) fun _ => ?_
  exact (updSl_keeps g (fun v => hg v v.slots v.evUsed _) _ h k).trans (hev _)

theorem taken_reads : ((s.useSelvedge e).useLate h n).failDue = s.failDue ∧ ((s.useSelvedge e).useLate h n).fusing = s.fusing ∧
    ((s.useSelvedge e).useLate h n).frame = s.frame ∧ ∀ k p, p < 0x500 → ((s.useSelvedge e).useLate h n).reg (oSl k p) = s.reg (oSl k p) := by
  have hlate (v : State) : (v.useLate h n).failDue = v.failDue ∧ (v.useLate h n).fusing = v.fusing ∧ (v.useLate h n).frame = v.frame ∧
      ∀ o, (v.useLate h n).reg o = v.reg o :=
    iteInduction (motive := fun w : State => w.failDue = v.failDue ∧ w.fusing = v.fusing ∧ w.frame = v.frame ∧ ∀ o, w.reg o = v.reg o)
      (fun _ => ⟨rfl, rfl, rfl, fun _ => rfl⟩) fun _ => ⟨rfl, rfl, rfl, fun _ => rfl⟩
  have hsel : (s.useSelvedge e).failDue = s.failDue ∧ (s.useSelvedge e).fusing = s.fusing :=
    count_keeps (P := fun u => u.failDue = s.failDue ∧ u.fusing = s.fusing) e 4 none (fun _ _ _ _ _ _ hu => hu) (fun _ _ _ _ _ hu => hu)
      ⟨rfl, rfl⟩
  obtain ⟨hfail, hfus, hframe, hreg⟩ := hlate (s.useSelvedge e)
  refine ⟨hfail.trans hsel.1, hfus.trans hsel.2, hframe.trans (useSelvedge_frame s e), fun k p hp => (hreg _).trans ?_⟩
  exact count_reg_other _ e 4 none fun i hi => by simp only [oSl]; omega

end

theorem row_eq {s t : State} {k : Nat} (h : ∀ p, p < 0x500 → t.reg (oSl k p) = s.reg (oSl k p)) (ev : Bool) (set : Nat) :
    t.row k ev set = s.row k ev set := by
  have hf (n base : Nat) (hn : base + 8 * n ≤ 0x500) :
      (List.range n).find? (fun i => (t.reg (oSl k (base + 8 * i))).getLsbD 0 && (bits (t.reg (oSl k (base + 8 * i))) 4 14).toNat == set) =
        (List.range n).find? fun i => (s.reg (oSl k (base + 8 * i))).getLsbD 0 && (bits (s.reg (oSl k (base + 8 * i))) 4 14).toNat == set :=
    List.find?_congr fun i hi => by rw [h _ (by have := List.mem_range.mp hi; omega)]
  unfold State.row
  cases ev with
  | false => simp only [Bool.false_eq_true, if_false, hf 16 0x300 (by decide)]
  | true => simp only [if_true, hf 32 0x400 (by decide)]

/-- What a read of a word reads in its slice. -/
def Slice.words (v : Slice) : Takeover × List (Nat × Entry × Nat) × Tbl Entry × Tbl Entry × Tbl Stage :=
  (v.tk, v.wbuf, v.evgan, v.ondie, v.stage)

theorem entry_eq {s t : State} {k : Nat} (hr : ∀ ev set, t.row k ev set = s.row k ev set) (hs : (t.sl k).words = (s.sl k).words) (l : Loc) :
    t.entry k l = s.entry k l := by
  simp only [Slice.words, Prod.mk.injEq] at hs
  obtain ⟨htk, hwb, hev, hon, hst⟩ := hs
  cases l with
  | ondie set way => simp only [State.entry, State.wayAt, Slice.unzeroed, htk, hon, hr, Bool.false_eq_true, if_false]
  | evgan set way => simp only [State.entry, State.wayAt, Slice.unzeroed, htk, hwb, hev, hr, if_true]
  | stage i => simp only [State.entry, State.stageAt, hst]

/-! ## A reread (R367) -/

/-- The records of a word without errors are read without effect (R204). -/
theorem readLines_clean {u : State} {h : Nat} {l : Loc} (hf : anyFixed (u.entry h l) = false) (hb : anyBad (u.entry h l) = false) :
    u.readLines h l = u := by
  unfold State.readLines foldSt
  refine foldl_keeps (P := fun v => v = u) (List.range 4) rfl fun v j hj hv => ?_
  subst hv
  have hf' := List.any_eq_false.mp hf j hj
  have hb' := List.any_eq_false.mp hb j hj
  unfold State.readLine
  split
  · rfl
  next hx => simp [hx] at hf'
  next hx => simp [hx] at hb'

/-- The row of a word that still errs is marked, unless it is being remapped (R367). -/
def State.rowMarked (v : State) (h : Nat) (scrub : Bool) (r : Bool × Nat) : State :=
  v.updSl h fun sl =>
    { sl with hardRows := if sl.hardRows.contains r || sl.copies.any (fun c => (c.ev, c.set) == r) then sl.hardRows else sl.hardRows ++ [r]
              maint := if scrub && !(sl.copies.any fun c => (c.ev, c.set) == r) then { sl.maint with rows := sl.maint.rows ++ [r] } else sl.maint }

theorem rowMarked_mem (v : State) (h : Nat) (scrub : Bool) (r : Bool × Nat) :
    r ∈ ((v.rowMarked h scrub r).sl h).hardRows ∨ ∃ c ∈ (v.sl h).copies, (c.ev, c.set) = r := by
  rw [State.rowMarked, State.updSl_sl_same]
  by_cases hc : (v.sl h).copies.any fun c => (c.ev, c.set) == r
  · obtain ⟨c, hc, he⟩ := List.any_eq_true.mp hc
    exact .inr ⟨c, hc, eq_of_beq he⟩
  · refine .inl ?_
    split
    next hx => simpa [hc] using hx
    next => exact List.mem_append_right _ (List.mem_singleton_self _)

/-- The word is out of the queue of rereads, and the slot and the budget are used. -/
def State.rereadTaken (s : State) (h : Nat) (l : Loc) (rest : List Loc) : State :=
  ((s.useSelvedge (s.engine h)).useLate h (evCost l.inEvgan)).updSl h fun sl =>
    { sl with reread := rest, maint := { sl.maint with rereads := sl.maint.rereads.filter fun p => p != l } }

/-- The word has been read, and an error that the read alone shows is counted. -/
def State.rereadDone (u : State) (h : Nat) (l : Loc) (badTag rowError : Bool) : State :=
  let v := if badTag then u.orphan h [l] else u.readLines h l
  if rowError then v.correctable h (bankOf l) (setOf l).1 (setOf l).2 else v

theorem rereadDone_clean (u : State) (h : Nat) (l : Loc) : u.rereadDone h l false false = u.readLines h l := rfl

theorem exec_wordReread {s : State} {h : Nat} {l : Loc} {rest : List Loc} (b : Bool) (hin : s.inReset = false) (hr : s.ready = true)
    (hh : h < s.nSlices) (hq : (s.sl h).reread = l :: rest) (ho : s.rangeOpen h = true) (ht : s.selvTurn h (.reread l) = true)
    (he : s.evRoom h (if l.inEvgan then 1 else 0) = true) :
    let w := s.entry h l
    let badTag := !isFree w && !tagOk w
    let v := (s.rereadTaken h l rest).rereadDone h l badTag b
    exec (.wordReread h b) s = .next (s.held ((rowOf l).elim v fun r =>
      if !(b || anyFixed w || anyBad w || badTag) then v else v.rowMarked h ((s.sl h).maint.rereads.contains l) r)) := by
  show execWordReread h b s = _
  unfold execWordReread
  rw [hq]
  refine (row_due hin (decide_eq_true hh) ?_).trans ?_
  · rw [State.inService, hin, hr, ho, ht]
    cases l <;> exact he
  · cases l with
    | ondie set way => rfl
    | evgan set way => rfl
    | stage i => rfl

/-- What a reread leaves of its slice's queues, whatever it reports (R367). -/
def State.RereadKeeps (s u : State) (h : Nat) (rest : List Loc) : Prop :=
  (u.sl h).reread = rest ∧ (u.sl h).hardRows = (s.sl h).hardRows ∧ (u.sl h).copies = (s.sl h).copies

section
variable {s u : State} {h : Nat} {rest : List Loc}

theorem State.RereadKeeps.updSl (hu : s.RereadKeeps u h rest) {f : Slice → Slice}
    (hf : ∀ v, ((f v).reread, (f v).hardRows, (f v).copies) = (v.reread, v.hardRows, v.copies)) : s.RereadKeeps (u.updSl h f) h rest := by
  obtain ⟨hre, hrw, hcp⟩ := hu
  have hk := updSl_keeps (fun v => (v.reread, v.hardRows, v.copies)) hf u h h
  simp only [Prod.mk.injEq] at hk
  obtain ⟨kre, krw, kcp⟩ := hk
  exact ⟨kre.trans hre, krw.trans hrw, kcp.trans hcp⟩

theorem errFree_rereadKeeps (b : Nat) : ErrFree h b fun u => s.RereadKeeps u h rest :=
  (errFree_slice (g := Slice.reread) (fun _ _ _ _ => rfl) h b h _).and
    ((errFree_slice (g := Slice.hardRows) (fun _ _ _ _ => rfl) h b h _).and (errFree_slice (g := Slice.copies) (fun _ _ _ _ => rfl) h b h _))

theorem State.RereadKeeps.rereadDone (hu : s.RereadKeeps u h rest) (l : Loc) (badTag rowError : Bool) :
    s.RereadKeeps (u.rereadDone h l badTag rowError) h rest := by
  have hread : s.RereadKeeps (if badTag then u.orphan h [l] else u.readLines h l) h rest :=
    iteInduction (motive := fun v : State => s.RereadKeeps v h rest)
      (fun _ => orphan_keeps (fun l _ => errFree_rereadKeeps (bankOf l)) (fun _ _ hv => hv.updSl fun _ => rfl) hu)
      fun _ => readLines_keeps (errFree_rereadKeeps (bankOf l)) (fun _ _ hv => hv.updSl fun _ => rfl) hu
  exact iteInduction (motive := fun v : State => s.RereadKeeps v h rest) (fun _ => (errFree_rereadKeeps (bankOf l)).correctable _ _ hread)
    fun _ => hread

end

theorem rereadTaken_keeps (s : State) (h : Nat) (l : Loc) (rest : List Loc) : s.RereadKeeps (s.rereadTaken h l rest) h rest := by
  unfold State.rereadTaken
  refine ⟨by rw [State.updSl_sl_same], ?_, ?_⟩
  · rw [State.updSl_sl_same]
    exact taken_keeps (g := Slice.hardRows) s _ h _ (fun _ _ _ _ => rfl) h
  · rw [State.updSl_sl_same]
    exact taken_keeps (g := Slice.copies) s _ h _ (fun _ _ _ _ => rfl) h

theorem rereadTaken_entry (s : State) (h : Nat) (l : Loc) (rest : List Loc) : (s.rereadTaken h l rest).entry h l = s.entry h l := by
  obtain ⟨-, -, -, hreg⟩ := taken_reads s (s.engine h) h (evCost l.inEvgan)
  have hreg' : ∀ p, p < 0x500 → (s.rereadTaken h l rest).reg (oSl h p) = s.reg (oSl h p) := hreg h
  refine entry_eq (row_eq hreg') ?_ l
  rw [State.rereadTaken, State.updSl_sl_same]
  exact taken_keeps (g := Slice.words) s _ h _ (fun _ _ _ _ => rfl) h

/-- What marking the row leaves of the queues; without an error it leaves everything. -/
theorem rereadRow_reads {s v : State} {h : Nat} {rest : List Loc} (hv : s.RereadKeeps v h rest) (err scrub : Bool) (o : Option (Bool × Nat)) :
    let t := s.held (o.elim v fun r => if !err then v else v.rowMarked h scrub r)
    (t.sl h).reread = rest ∧ (err = true → ∀ r, o = some r → r ∈ (t.sl h).hardRows ∨ ∃ c ∈ (s.sl h).copies, (c.ev, c.set) = r) ∧
      (err = false → t = s.held v) := by
  obtain ⟨hre, -, hcp⟩ := hv
  cases o with
  | none => exact ⟨hre, fun _ _ => nofun, fun _ => rfl⟩
  | some r =>
    cases err with
    | false => exact ⟨hre, nofun, fun _ => rfl⟩
    | true =>
      refine ⟨?_, ?_, nofun⟩
      · show ((v.rowMarked h scrub r).sl h).reread = rest
        rw [State.rowMarked, State.updSl_sl_same, hre]
      · rintro - _ ⟨⟩
        rw [← hcp]
        exact rowMarked_mem v h scrub r

/-- A word without errors leaves its row, its correction, and the counts of its slice's banks. -/
theorem rereadTaken_reads (s : State) (h : Nat) (l : Loc) (rest : List Loc) :
    let t := s.held (s.rereadTaken h l rest)
    (t.sl h).hardRows = (s.sl h).hardRows ∧ (t.sl h).correct = (s.sl h).correct ∧ t.failDue = s.failDue ∧
      ∀ k, k < 16 → t.reg (oSl h (0x200 + 8 * k)) = s.reg (oSl h (0x200 + 8 * k)) := by
  obtain ⟨-, hrows, -⟩ := rereadTaken_keeps s h l rest
  obtain ⟨hfail, hfus, -, hreg⟩ := taken_reads s (s.engine h) h (evCost l.inEvgan)
  refine ⟨hrows, ?_, hfail, fun k hk => ?_⟩
  · rw [State.held_sl, State.rereadTaken, State.updSl_sl_same]
    exact taken_keeps (g := Slice.correct) s _ h _ (fun _ _ _ _ => rfl) h
  · rw [State.held_reg s (t := s.rereadTaken h l rest) hfus]
    exact hreg h _ (by omega)

theorem wordReread_reads {s : State} {h : Nat} {l : Loc} {rest : List Loc} (b : Bool) (hin : s.inReset = false) (hr : s.ready = true)
    (hh : h < s.nSlices) (hq : (s.sl h).reread = l :: rest) (ho : s.rangeOpen h = true) (ht : s.selvTurn h (.reread l) = true)
    (he : s.evRoom h (if l.inEvgan then 1 else 0) = true) :
    let w := s.entry h l
    let errs := b = true ∨ anyFixed w = true ∨ anyBad w = true ∨ (isFree w = false ∧ tagOk w = false)
    ∃ t, exec (.wordReread h b) s = .next t ∧ (t.sl h).reread = rest ∧
      (errs → ∀ r, rowOf l = some r → r ∈ (t.sl h).hardRows ∨ ∃ c ∈ (s.sl h).copies, (c.ev, c.set) = r) ∧
      (¬ errs → (t.sl h).hardRows = (s.sl h).hardRows ∧ (t.sl h).correct = (s.sl h).correct ∧ t.failDue = s.failDue ∧
        ∀ k, k < 16 → t.reg (oSl h (0x200 + 8 * k)) = s.reg (oSl h (0x200 + 8 * k))) := by
  intro w errs
  have hx := exec_wordReread b hin hr hh hq ho ht he
  have hv := (rereadTaken_keeps s h l rest).rereadDone l (!isFree w && !tagOk w) b
  have herr : errs ↔ (b || anyFixed w || anyBad w || (!isFree w && !tagOk w)) = true := by
    simp only [errs, Bool.or_eq_true, Bool.and_eq_true, Bool.not_eq_true', or_assoc]
  obtain ⟨hre, hmark, hsame⟩ := rereadRow_reads hv (b || anyFixed w || anyBad w || (!isFree w && !tagOk w))
    ((s.sl h).maint.rereads.contains l) (rowOf l)
  refine ⟨_, hx, hre, fun he => hmark (herr.mp he), fun hnone => ?_⟩
  have hnone' := Bool.eq_false_iff.mpr (mt herr.mpr hnone)
  obtain ⟨hb, hfix, hbad, htag⟩ : b = false ∧ anyFixed w = false ∧ anyBad w = false ∧ (!isFree w && !tagOk w) = false := by
    simpa only [Bool.or_eq_false_iff, and_assoc] using hnone'
  have hdone : (s.rereadTaken h l rest).rereadDone h l (!isFree w && !tagOk w) b = s.rereadTaken h l rest := by
    rw [htag, hb, rereadDone_clean]
    exact readLines_clean ((congrArg anyFixed (rereadTaken_entry s h l rest)).trans hfix)
      ((congrArg anyBad (rereadTaken_entry s h l rest)).trans hbad)
  rw [hsame hnone', hdone]
  exact rereadTaken_reads s h l rest

/-! ## A remap begins, or its bank fails (R368, R370) -/

/-- The row is out of the queue of hard-failed rows, and the slot and the budget are used. -/
def State.remapTaken (s : State) (h : Nat) (ev : Bool) (set : Nat) (rest : List (Bool × Nat)) : State :=
  ((s.useSelvedge (s.engine h)).useLate h (if ev then 1 else 0)).updSl h fun sl =>
    { sl with hardRows := rest, maint := { sl.maint with rows := sl.maint.rows.filter fun r => r != (ev, set) } }

theorem freeRemap_eq {s t : State} {h : Nat} (hr : ∀ p, p < 0x500 → t.reg (oSl h p) = s.reg (oSl h p)) (hc : (t.sl h).copies = (s.sl h).copies)
    (ev : Bool) : t.freeRemap h ev = s.freeRemap h ev := by
  refine List.find?_congr fun k hk => ?_
  have hlt : (if ev then 0x400 else 0x300) + 8 * k < 0x500 := by
    have := List.mem_range.mp hk
    cases ev <;> simp only [Bool.false_eq_true, if_false, if_true] at this ⊢ <;> omega
  dsimp only
  rw [flag_congr (hr _ hlt), flag_congr (hr _ hlt), hc]

theorem exec_rowRemap {s : State} {h : Nat} {ev : Bool} {set : Nat} {rest : List (Bool × Nat)} (hin : s.inReset = false) (hr : s.ready = true)
    (hh : h < s.nSlices) (hq : (s.sl h).hardRows = (ev, set) :: rest) (ho : s.rangeOpen h = true) (ht : s.selvTurn h (.remap ev set) = true)
    (he : s.evRoom h (if ev then 1 else 0) = true) :
    let u := s.remapTaken h ev set rest
    exec (.rowRemap h) s = .next (s.held ((u.freeRemap h ev).elim (u.bankFailure h (if ev then 4 + set / 2048 else set / 1024)) fun k =>
      u.updSl h fun sl => { sl with copies := sl.copies ++
        [{ ev := ev, set := set, k := k, source := 2, start := u.frame, scrub := (s.sl h).maint.rows.contains (ev, set) }] })) := by
  show execRowRemap h s = _
  unfold execRowRemap
  rw [hq]
  refine (row_due hin (decide_eq_true hh) ?_).trans ?_
  · rw [State.inService, hin, hr, ho, ht]
    exact he
  · unfold State.remapTaken
    dsimp only
    generalize State.freeRemap _ h ev = o
    cases o <;> rfl

/-- A bank failure makes a failure of its slice due, with CAUSE 0x5 unless one is due already (R370, R394). -/
theorem bankFailure_due (u : State) (h b : Nat) :
    ∃ c, (h, c) ∈ (u.bankFailure h b).failDue ∧ ((∀ p ∈ u.failDue, p.1 ≠ h) → c = 5) := by
  unfold State.bankFailure
  dsimp only
  rw [faultDue_failDue]
  split
  next hdue =>
    obtain ⟨p, hp, hph⟩ := List.any_eq_true.mp hdue
    exact ⟨p.2, failSlice_mem (by rwa [← eq_of_beq hph]), fun hno => absurd (eq_of_beq hph) (hno p hp)⟩
  next hdue =>
    refine ⟨5, ?_, fun _ => rfl⟩
    rw [State.failSlice, State.updSl_failDue, if_neg hdue]
    exact List.mem_append_right _ (List.mem_singleton_self _)

theorem rowRemap_reads {s : State} {h : Nat} {ev : Bool} {set : Nat} {rest : List (Bool × Nat)} (hin : s.inReset = false) (hr : s.ready = true)
    (hh : h < s.nSlices) (hq : (s.sl h).hardRows = (ev, set) :: rest) (ho : s.rangeOpen h = true) (ht : s.selvTurn h (.remap ev set) = true)
    (he : s.evRoom h (if ev then 1 else 0) = true) :
    (∀ k, s.freeRemap h ev = some k →
      ∃ t c, exec (.rowRemap h) s = .next t ∧ (t.sl h).hardRows = rest ∧ (t.sl h).copies = (s.sl h).copies ++ [c] ∧
        c.ev = ev ∧ c.set = set ∧ c.k = k ∧ c.source = 2 ∧ c.start = s.frame) ∧
    (s.freeRemap h ev = none → ∃ t c, exec (.rowRemap h) s = .next t ∧ (t.sl h).hardRows = rest ∧ (h, c) ∈ t.failDue ∧
      (t.sl h).copies = (s.sl h).copies ∧ ((∀ p ∈ s.failDue, p.1 ≠ h) → c = 5)) := by
  have hx := exec_rowRemap hin hr hh hq ho ht he
  obtain ⟨hfail, -, hframe, hreg⟩ := taken_reads s (s.engine h) h (if ev then 1 else 0)
  have hrows : ((s.remapTaken h ev set rest).sl h).hardRows = rest := by rw [State.remapTaken, State.updSl_sl_same]
  have hcopies : ((s.remapTaken h ev set rest).sl h).copies = (s.sl h).copies := by
    rw [State.remapTaken, State.updSl_sl_same]
    exact taken_keeps (g := Slice.copies) s _ h _ (fun _ _ _ _ => rfl) h
  have hreg' : ∀ p, p < 0x500 → (s.remapTaken h ev set rest).reg (oSl h p) = s.reg (oSl h p) := hreg h
  have hframe' : (s.remapTaken h ev set rest).frame = s.frame := hframe
  have hfail' : (s.remapTaken h ev set rest).failDue = s.failDue := hfail
  dsimp only at hx
  rw [freeRemap_eq hreg' hcopies] at hx
  generalize s.remapTaken h ev set rest = u at hx hrows hcopies hframe' hfail'
  refine ⟨fun k hk => ?_, fun hn => ?_⟩
  · rw [hk] at hx
    refine ⟨_, ⟨ev, set, k, 2, u.frame, (s.sl h).maint.rows.contains (ev, set)⟩, hx, ?_, ?_, rfl, rfl, rfl, rfl, hframe'⟩
    · rw [State.held_sl, Option.elim_some, State.updSl_sl_same, hrows]
    · rw [State.held_sl, Option.elim_some, State.updSl_sl_same, hcopies]
  · rw [hn] at hx
    obtain ⟨c, hc, h5⟩ := bankFailure_due u h (if ev then 4 + set / 2048 else set / 1024)
    have hkeep {α : Type} (g : Slice → α) (hg : ∀ v q c d, g (Slice.noted v q c d) = g v) :
        g ((u.bankFailure h (if ev then 4 + set / 2048 else set / 1024)).sl h) = g (u.sl h) := (errFree_slice hg h 0 h _).bankFailure _ rfl
    refine ⟨_, c, hx, ?_, hc, ?_, fun hno => h5 fun p hp => hno p (hfail' ▸ hp)⟩
    · exact (hkeep Slice.hardRows fun _ _ _ _ => rfl).trans hrows
    · exact (hkeep Slice.copies fun _ _ _ _ => rfl).trans hcopies

/-! ## A correction is written back (R205, R382) -/

theorem exec_correctionWriteback {s : State} {h f : Nat} {l : Loc} (hin : s.inReset = false) (hr : s.ready = true) (hh : h < s.nSlices)
    (hc : ((s.sl h).correct.find? fun c => c.1 < s.frame && s.backRoom h c.2) = some (f, l)) :
    exec (.correctionWriteback h) s = .next (s.held (s.writeBack h l)) := by
  show execCorrectionWriteback h s = _
  unfold execCorrectionWriteback
  rw [hc]
  exact row_due hin (decide_eq_true hh) (by simp [State.inService, hin, hr])

theorem exec_scrubWriteback {s : State} {h : Nat} {l : Loc} (hin : s.inReset = false) (hr : s.ready = true) (hh : h < s.nSlices)
    (hc : ((s.sl h).correct.find? fun c => c.1 < s.frame && s.backRoom h c.2) = none) :
    let u := s.skipLocked h
    ((u.sl h).maint.fixes.find? fun l => !u.placeLocked h l && u.backRoom h l) = some l → u.rangeOpen h = true → u.selvTurn h (.fix l) = true →
    let v := u.useSelvedge (u.engine h)
    exec (.correctionWriteback h) s = .next (s.held (((v.writeBack h l).incFld (oSl (v.engine h) 0x80) 16 16
      (fixedCount (u.entry h l))).maintCheck h)) := by
  intro u hl ho ht
  show execCorrectionWriteback h s = _
  unfold execCorrectionWriteback
  dsimp only
  rw [hc, hl]
  have hserve : u.inService = true := (skipLocked_inService s h).trans (by simp [State.inService, hin, hr])
  exact row_due hin (decide_eq_true hh) (by rw [hserve, ho, ht]; rfl)

/-- Settles O45: a word written back reads as corrected; a reread takes the slot, and only what it reports marks its row; a copied row's words are
the corrected ones of the row it replaces. -/
theorem wordsAreCorrectedRereadRemapped : Obligations.WordsAreCorrectedRereadRemapped := by
  refine ⟨fun s h hin hr hh => ⟨fun f l hc => exec_correctionWriteback hin hr hh hc, fun l hc => exec_scrubWriteback hin hr hh hc,
    fun l rest b hq ho ht he => wordReread_reads b hin hr hh hq ho ht he, fun ev set rest hq ho ht he => rowRemap_reads hin hr hh hq ho ht he⟩,
    fun s h l hf => ?_, fun s h c hc => ⟨fun hlt => ?_, fun hd hh hk hf => ?_⟩⟩
  · obtain ⟨he, hre⟩ := writeBack_reads hf h l
    exact ⟨he, fun hdue => hre ▸ wordWritten_reread hdue⟩
  · unfold State.endCopies
    dsimp only
    rw [hc, List.filter_cons_of_neg (by simpa using hlt)]
    rfl
  · obtain ⟨hcop, hreg, hw, hev⟩ := endCopies_remaps hc hd hh hk hf
    rw [State.updSl_sl_same] at hcop hw
    exact ⟨hcop, hreg, hw, hev⟩

end Sys2Proof.Machine
end

section
/-! SUPPORT. The statement about what writes start: the operations of the maintenance engine that wait or run, and the other starts. -/

namespace Sys2Proof.Machine

/-! ## An operation that runs or waits keeps doing so (R238, R381, R446, R448) -/

/-- The slice runs an operation or has it queued. -/
def State.Has (u : State) (k : Nat) (op : MaintOp) : Prop := (u.sl k).maint.running = some op ∨ op ∈ (u.sl k).maint.queue

theorem mem_insertBy {α : Type} {p : α → α → Bool} {x y : α} {l : List α} : x ∈ insertBy p y l ↔ x = y ∨ x ∈ l := by
  induction l with
  | nil => rw [insertBy, List.mem_cons]
  | cons z l ih =>
    rw [insertBy]
    split
    · exact List.mem_cons
    · rw [List.mem_cons, ih, List.mem_cons]
      exact or_left_comm

section
variable {k : Nat} {op : MaintOp}

/-- A change of a slice in which the operation still runs or waits, where it did. -/
theorem State.Has.updSl {u : State} (hu : u.Has k op) {j : Nat} {f : Slice → Slice}
    (hf : k = j → (f (u.sl k)).maint.running = some op ∨ op ∈ (f (u.sl k)).maint.queue) : (u.updSl j f).Has k op := by
  by_cases hk : k = j
  · subst hk
    rw [State.Has, State.updSl_sl_same]
    exact hf rfl
  · rw [State.Has, State.updSl_sl_other _ hk]
    exact hu

theorem State.Has.suspend {u : State} (hu : u.Has k op) (j : Nat) : (u.suspend j).Has k op := by
  unfold State.suspend
  dsimp only
  split
  next o hrun =>
    refine iteInduction (motive := fun v : State => v.Has k op) (fun _ => hu.updSl fun hk => .inr (mem_insertBy.mpr ?_)) fun _ => hu
    subst hk
    exact hu.imp (fun hr => Option.some.inj (hr.symm.trans hrun)) id
  next => exact hu

theorem State.Has.queueRecount {u : State} (hu : u.Has k op) (j : Nat) : (u.queueRecount j).Has k op := by
  unfold State.queueRecount
  refine iteInduction (motive := fun v : State => v.Has k op) (fun _ => hu.updSl ?_) fun _ => hu
  rintro rfl
  exact hu.imp id fun hq => mem_insertBy.mpr (.inr hq)

theorem State.Has.clearSummary {u : State} (hu : u.Has k op) (j o : Nat) (p : MaintOp) : (u.clearSummary j o p).Has k op := by
  unfold State.clearSummary
  exact iteInduction (motive := fun v : State => v.Has k op) (fun _ => hu) fun _ => State.Has.updSl (u := u.setReg _ 0) hu fun _ => hu

/-- The engine's operations with those that the disabled filter holds put back, and the recounts that are due queued. -/
def State.settledOps (s : State) (h : Nat) : State :=
  foldSt (s.served (s.engine h)) State.queueRecount (foldSt (s.served (s.engine h)) State.suspend s)

theorem settledOps_reg (s : State) (h o : Nat) : (s.settledOps h).reg o = s.reg o := by
  refine foldSt_keeps (P := fun u => u.reg o = s.reg o) (fun u j hu => ?_) _ (foldSt_keeps (P := fun u => u.reg o = s.reg o) (fun u j hu => ?_) _ rfl)
  · exact iteInduction (motive := fun v : State => v.reg o = s.reg o) (fun _ => hu) fun _ => hu
  · unfold State.suspend
    dsimp only
    split
    · exact iteInduction (motive := fun v : State => v.reg o = s.reg o) (fun _ => hu) fun _ => hu
    · exact hu

theorem served_eq {s t : State} (h : ∀ o, t.reg o = s.reg o) (e : Nat) : t.served e = s.served e := by
  rw [State.served, State.served, sliceFailed_congr (h _)]

theorem nextOps_served {u : State} {e j : Nat} {o : MaintOp} (h : (j, o) ∈ u.nextOps e) : j ∈ u.served e := by
  obtain ⟨i, hi, hio⟩ := List.mem_filterMap.mp h
  obtain ⟨p, -, hp⟩ := Option.map_eq_some_iff.mp hio
  exact (Prod.mk.inj hp).1 ▸ (List.mem_filter.mp hi).1

/-- The engine starts only an operation of a slice that runs none. -/
theorem State.Has.maintNext {s : State} (hs : s.Has k op) (h : Nat) : (s.maintNext h).Has k op := by
  have hq : (s.settledOps h).Has k op :=
    foldSt_keeps (P := fun u => u.Has k op) (fun _ j hu => hu.queueRecount j) _
      (foldSt_keeps (P := fun u => u.Has k op) (fun _ j hu => hu.suspend j) _ hs)
  have hl : (s.settledOps h).served ((s.settledOps h).engine h) = s.served (s.engine h) := by
    rw [served_eq (settledOps_reg s h), engine_congr (settledOps_reg s h _)]
  unfold State.maintNext
  dsimp only
  rw [← State.settledOps]
  generalize s.settledOps h = q at hq hl
  refine iteInduction (motive := fun v : State => v.Has k op) (fun _ => hq) fun hidle => ?_
  split
  · exact hq
  next j o hmin =>
    have hstart : (q.updSl j fun sl => { sl with maint := { running := some o, queue := sl.maint.queue.erase o, since := q.frame } }).Has k op := by
      refine hq.updSl fun hk => ?_
      subst hk
      have hnone : (q.sl k).maint.running.isSome = false :=
        Bool.eq_false_iff.mpr fun hsome => hidle (List.any_eq_true.mpr ⟨k, hl ▸ nextOps_served (minBy_some hmin).1, hsome⟩)
      rcases hq with hr | hmem
      · simp [hr] at hnone
      · by_cases ho : op = o
        · exact .inl (congrArg some ho.symm)
        · exact .inr ((List.mem_erase_of_ne ho).mpr hmem)
    cases o with
    | rinv => exact hstart.clearSummary _ _ _
    | scrub => exact hstart.clearSummary _ _ _
    | lossSweep | agentWalk | recount => exact hstart

theorem State.Has.maintAdd {s : State} (hs : s.Has k op) (j : Nat) (o : MaintOp) : (s.maintAdd j o).Has k op :=
  State.Has.maintNext (hs.updSl fun hk => by subst hk; exact hs.imp id fun hq => mem_insertBy.mpr (.inr hq)) j

theorem maintAdd_has (s : State) (k : Nat) (op : MaintOp) : (s.maintAdd k op).Has k op := by
  refine State.Has.maintNext (.inr ?_) k
  rw [State.updSl_sl_same]
  exact mem_insertBy.mpr (.inl rfl)

/-- An operation queued in each slice of a list runs or waits in each. -/
theorem foldSt_maintAdd_has (l : List Nat) (s : State) (hk : k ∈ l) : (foldSt l (fun s k => s.maintAdd k op) s).Has k op := by
  induction l generalizing s with
  | nil => cases hk
  | cons j l ih =>
    rw [foldSt_cons]
    rcases List.mem_cons.mp hk with rfl | hk
    · exact foldSt_keeps (P := fun u => u.Has k op) (fun _ i hu => hu.maintAdd i op) l (maintAdd_has s k op)
    · exact ih _ hk

end

theorem foldSt_maintAdd_reg (l : List Nat) (s : State) (op : MaintOp) {o : Nat} (ho : o < 0x100000) :
    (foldSt l (fun s k => s.maintAdd k op) s).reg o = s.reg o := by
  have hne (e : Nat) : o ≠ oSl e 0x50 ∧ o ≠ oSl e 0x80 := by simp only [oSl]; omega
  exact foldSt_keeps (P := fun u => u.reg o = s.reg o) (fun u k hu => (maintNext_reg _ k hne).trans ((State.updSl_reg u k _ o).trans hu)) l rfl

/-! ## Range invalidation, scrub and agent walk (R238, R243, R381, R446) -/

/-- The slices have forgotten that they have summed an operation up. -/
def State.unsummed (s : State) (op : MaintOp) : State :=
  foldSt (List.range s.nSlices) (fun s k => s.updSl k fun sl => { sl with summed := sl.summed.erase op }) s

theorem unsummed_reg (s : State) (op : MaintOp) (o : Nat) : (s.unsummed op).reg o = s.reg o := by
  unfold State.unsummed
  exact foldSt_keeps (P := fun u => u.reg o = s.reg o) (fun u k hu => (State.updSl_reg u k _ o).trans hu) _ rfl

section
variable {s : State} {o b d i src : Nat} {op : MaintOp}

theorem startOp_busy (h : s.flag o b = true) : s.startOp o b d i src op = s.setFlag o i true := if_pos h

theorem startOp_none (h : s.flag o b = false) (hn : s.selected o = []) :
    s.startOp o b d i src op = ((s.unsummed op).setFlag o d true).raise src 0 0 := by
  unfold State.startOp
  rw [if_neg (by simp [h])]
  dsimp only
  rw [hn, ← State.unsummed]
  exact if_pos rfl

theorem startOp_some (h : s.flag o b = false) (hn : s.selected o ≠ []) :
    s.startOp o b d i src op = foldSt (s.selected o) (fun s k => s.maintAdd k op) ((s.unsummed op).setFlag o b true) := by
  unfold State.startOp
  rw [if_neg (by simp [h])]
  dsimp only
  rw [← State.unsummed]
  exact if_neg (by simpa using hn)

/-- A start sets IGNORED, DONE, or BUSY with the operation running or queued in every selected slice. -/
theorem startOp_reads (ho : o < 0x100000) (he : o ≠ oEvtPend (src / 64)) (hb : b < 64) (hd : d < 64) (hbd : b ≠ d) (hsrc : src < 64) :
    (s.flag o b = true → s.startOp o b d i src op = s.setFlag o i true) ∧
    (s.flag o b = false → s.selected o = [] → (s.startOp o b d i src op).flag o b = false ∧ (s.startOp o b d i src op).flag o d = true ∧
      (s.startOp o b d i src op).flag (oEvtPend (src / 64)) src = true) ∧
    (s.flag o b = false → s.selected o ≠ [] → (s.startOp o b d i src op).flag o b = true ∧
      ∀ k ∈ s.selected o, (s.startOp o b d i src op).Has k op) := by
  refine ⟨startOp_busy, fun h hn => ?_, fun h hn => ?_⟩
  · rw [startOp_none h hn]
    have hraise := raise_flag ((s.unsummed op).setFlag o d true) src 0 0
    rw [Nat.mod_eq_of_lt hsrc] at hraise
    refine ⟨?_, ?_, hraise⟩
    · rw [flag_congr (raise_reg_other _ _ _ he), flag_setFlag_apart _ _ _ _ _ hbd, flag_congr (unsummed_reg s op o), h]
    · rw [flag_congr (raise_reg_other _ _ _ he), flag_setFlag_same _ _ _ _ hd]
  · rw [startOp_some h hn]
    refine ⟨?_, fun k hk => foldSt_maintAdd_has _ _ hk⟩
    rw [flag_congr (foldSt_maintAdd_reg _ _ _ ho), flag_setFlag_same _ _ _ _ hb]

end

theorem walkStart_ignored {s : State} (h : s.flag oWalk 9 = true ∨ 24 ≤ s.fld oWalk 0 5 ∨ s.sluice (s.fld oWalk 0 5) = false) :
    s.walkStart = s.setFlag oWalk 11 true := by
  refine if_pos ?_
  simpa only [Bool.or_eq_true, decide_eq_true_eq, Bool.not_eq_true', or_assoc] using h

theorem walkStart_starts {s : State} (hb : s.flag oWalk 9 = false) (ha : s.fld oWalk 0 5 < 24) (hs : s.sluice (s.fld oWalk 0 5) = true) :
    s.walkStart.flag oWalk 9 = true ∧ ∀ h ∈ s.liveSlices, s.walkStart.Has h (.agentWalk (s.fld oWalk 0 5)) := by
  have hw : s.walkStart = s.startWalk (s.fld oWalk 0 5) := if_neg (by simp [hb, hs, Nat.not_le.mpr ha])
  rw [hw]
  refine ⟨?_, fun h hh => foldSt_maintAdd_has _ _ hh⟩
  rw [State.startWalk, flag_congr (foldSt_maintAdd_reg _ _ _ (by decide)), flag_setFlag_same _ _ _ _ (by decide)]

/-! ## Memory initialization (R531) -/

theorem initStart_starts {s : State} (h : s.flag oMeminit 1 = false) :
    s.initStart.flag oMeminit 1 = true ∧ ∀ k, k < s.nSlices → (s.initStart.sl k).initPos = some 0 := by
  have hs : s.initStart = foldSt (List.range s.nSlices) (fun s k => s.updSl k fun sl => { sl with initPos := some 0, initFound := [] })
      (s.setFlag oMeminit 1 true) := if_neg (by simp [h])
  have hall (l : List Nat) (u : State) (k : Nat) (hk : k ∈ l ∨ (u.sl k).initPos = some 0) :
      ((foldSt l (fun s k => s.updSl k fun sl => { sl with initPos := some 0, initFound := [] }) u).sl k).initPos = some 0 := by
    induction l generalizing u with
    | nil => exact hk.resolve_left List.not_mem_nil
    | cons j l ih =>
      rw [foldSt_cons]
      refine ih _ ?_
      by_cases hkj : k = j
      · exact .inr (by rw [hkj, State.updSl_sl_same])
      · rw [State.updSl_sl_other _ hkj]
        exact hk.imp (fun hm => (List.mem_cons.mp hm).resolve_left hkj) id
  rw [hs]
  refine ⟨?_, fun k hk => hall _ _ k (.inl (List.mem_range.mpr hk))⟩
  exact foldSt_keeps (P := fun u => u.flag oMeminit 1 = true) (fun u k hu => (State.updSl_flag u k _ _ _).trans hu) _
    (flag_setFlag_same _ _ _ _ (by decide))

/-! ## Failures and returns (R427, R429) -/

theorem force_fails {s : State} (ha : s.flag oTakeover 8 = true) (hf : s.fld oTakeover 0 4 < s.nSlices)
    (hb : s.sliceFailed (buddy (s.fld oTakeover 0 4)) = false) : s.force = s.failSlice (s.fld oTakeover 0 4) 6 :=
  if_pos (by simp [ha, hf, hb])

theorem force_refused {s : State}
    (h : s.flag oTakeover 8 = false ∨ s.nSlices ≤ s.fld oTakeover 0 4 ∨ s.sliceFailed (buddy (s.fld oTakeover 0 4)) = true) : s.force = s := by
  refine if_neg ?_
  rcases h with h | h | h
  · simp [h]
  · simp [Nat.not_lt.mpr h]
  · simp [h]

theorem failSlice_new {s : State} {f c : Nat} (h : ∀ p ∈ s.failDue, p.1 ≠ f) : (f, c) ∈ (s.failSlice f c).failDue := by
  rw [State.failSlice, if_neg]
  · exact List.mem_append_right _ (List.mem_singleton_self _)
  · rintro hany
    obtain ⟨p, hp, hpf⟩ := List.any_eq_true.mp hany
    exact h p hp (eq_of_beq hpf)

theorem returnStart_starts {s : State} (h : s.mayReturn (s.fld oTakeover 0 4) = true) :
    s.returnStart.flag oTakeover 6 = true ∧ (s.returnStart.sl (s.fld oTakeover 0 4)).tk.returning = true := by
  have hr : s.returnStart = (s.setFld oTakeover 6 1 1).updSl (s.fld oTakeover 0 4) fun sl => { sl with tk := { sl.tk with returning := true } } :=
    if_pos h
  rw [hr]
  refine ⟨?_, by rw [State.updSl_sl_same]⟩
  rw [State.updSl_flag, flag_eq_fld, fld_setFld_same _ _ _ _ _ (by decide)]
  rfl

/-! ## The firmware port (R554, R555) -/

theorem nvmStart_allowed {s : State} {op i : Nat} (h0 : 0 < op) (h4 : op ≤ 4) (hb : s.flag oNvm 3 = false) (ha : s.nvmAllowed op = true) :
    s.nvmStart op i = State.itemDue
      { s with cistern := { s.cistern with fwOp := op, fwInit := i, fwAddr := s.fld oNvm 16 32, fwLen := s.fld oNvm 8 8 } }
      .firmware := by
  rw [State.nvmStart, if_neg (by simp [hb]; omega), if_neg (by simp [ha])]

theorem mem_due (s : State) (i : NvmItem) : i ∈ (s.itemDue i).cistern.due := by
  have hd : (s.itemDue i).cistern.due = if i ∈ s.cistern.due then s.cistern.due else s.cistern.due ++ [i] := by
    cases i <;> exact congrArg Cistern.due (State.setFlag_cistern _ _ _ _)
  rw [hd]
  split
  · assumption
  · exact List.mem_append_right _ (List.mem_singleton_self _)

/-! ## REBUILD (R245) -/

theorem zeroOndie_disarmed {s : State} (hf : s.flag oFlip 0 = false) (k : Nat) :
    (∀ o, (s.zeroOndie k).reg o = s.reg o) ∧ ((s.zeroOndie k).sl k).ondie = [] := by
  unfold State.zeroOndie
  refine foldSt_keeps (P := fun u => (∀ o, u.reg o = s.reg o) ∧ (u.sl k).ondie = []) (fun u j hu => ?_) _
    ⟨fun o => State.updSl_reg s k _ o, by rw [State.updSl_sl_same]⟩
  obtain ⟨hreg, hon⟩ := hu
  rw [flipWord_of_disarmed ((flag_congr (hreg oFlip) 0).trans hf)]
  exact ⟨fun o => (State.updSl_reg u k _ o).trans (hreg o), by rw [State.updSl_sl_same, hon]; rfl⟩

theorem zeroStage_disarmed {s : State} (hf : s.flag oFlip 0 = false) (k : Nat) :
    s.zeroStage k = s.updSl k fun sl => { sl with stage := [] } := by
  rw [State.zeroStage, flipWord_of_disarmed hf]
  rfl

theorem rebuild_refused {s : State} {k : Nat} (h : s.flag (oSl k 0x28) 0 = true ∨ s.flag (oSl k 0x28) 4 = true) : s.rebuild k = s :=
  if_pos (by simpa using h)

theorem rebuild_starts {s : State} {k : Nat} (h0 : s.flag (oSl k 0x28) 0 = false) (h4 : s.flag (oSl k 0x28) 4 = false)
    (hf : s.flag oFlip 0 = false) :
    let t := s.rebuild k
    t.flag (oSl k 0x28) 4 = true ∧ (t.sl k).ondie = [] ∧ (t.sl k).evgan = [] ∧ (t.sl k).wbuf = [] ∧ (t.sl k).stage = [] ∧
      (t.sl k).presence = [] ∧ (t.sl k).rebuildOn = true ∧ (t.sl k).sweepDue = true := by
  have hf' : (s.setFld (oSl k 0x28) 4 1 1).flag oFlip 0 = false := by
    rw [flag_congr (reg_setFld_other _ _ _ _ (by simp only [oFlip, oSl]; omega)), hf]
  obtain ⟨hreg, hon⟩ := zeroOndie_disarmed hf' k
  have h4' : ((s.setFld (oSl k 0x28) 4 1 1).zeroOndie k).flag (oSl k 0x28) 4 = true := by
    rw [flag_congr (hreg _), flag_eq_fld, fld_setFld_same _ _ _ _ _ (by decide)]
    rfl
  rw [State.rebuild, if_neg (by simp [h0, h4])]
  dsimp only
  rw [zeroStage_disarmed ((flag_congr (hreg oFlip) 0).trans hf')]
  simp only [State.updSl_flag, State.updSl_sl_same, hon, h4', and_self]

/-! ## ENABLE of a filter (R233, R244, R246) -/

theorem maintNext_ctl (u : State) (k : Nat) {p : Nat} (hp : p < 0x10000) (h1 : p ≠ 0x50) (h2 : p ≠ 0x80) :
    (u.maintNext k).reg (oSl k p) = u.reg (oSl k p) := maintNext_reg u k fun e => by simp only [oSl]; omega

theorem enableChange_off {s b : State} {k : Nat} (hb : b.flag (oSl k 0x28) 0 = true) (hs : s.flag (oSl k 0x28) 0 = false) :
    let t := s.enableChange b k
    t.flag (oSl k 0x28) 0 = false ∧ t.flag (oSl k 0x28) 1 = true ∧ (t.sl k).promote = [] ∧ (t.sl k).move = none ∧
      (t.sl k).ondie = (s.sl k).ondie ∧ (t.sl k).evgan = (s.sl k).evgan ∧ (t.sl k).stage = (s.sl k).stage ∧ (t.sl k).txns = (s.sl k).txns := by
  have ht : s.enableChange b k = ((s.setFlag (oSl k 0x28) 1 true).stopPlacement k).maintNext k := if_pos (by simp [hb, hs])
  have hreg := maintNext_ctl ((s.setFlag (oSl k 0x28) 1 true).stopPlacement k) k (p := 0x28) (by decide) (by decide) (by decide)
  have hkeep {α : Type} (g : Slice → α) (hg : ∀ v m l, g { v with maint := m, summed := l } = g v) :
      g ((s.enableChange b k).sl k) = g { s.sl k with promote := [], move := none } := by
    rw [ht, maintNext_sl_keeps g hg, State.stopPlacement, State.updSl_sl_same, State.setFlag_sl]
  refine ⟨?_, ?_, hkeep Slice.promote fun _ _ _ => rfl, hkeep Slice.move fun _ _ _ => rfl, hkeep Slice.ondie fun _ _ _ => rfl,
    hkeep Slice.evgan fun _ _ _ => rfl, hkeep Slice.stage fun _ _ _ => rfl, hkeep Slice.txns fun _ _ _ => rfl⟩
  · rw [ht, flag_congr hreg, State.stopPlacement, State.updSl_flag, flag_setFlag_apart _ _ _ _ _ (by decide), hs]
  · rw [ht, flag_congr hreg, State.stopPlacement, State.updSl_flag, flag_setFlag_same _ _ _ _ (by decide)]

theorem enableChange_on {s b : State} {k : Nat} (hb : b.flag (oSl k 0x28) 0 = false) (h0 : s.flag (oSl k 0x28) 0 = true)
    (h1 : s.flag (oSl k 0x28) 1 = true) :
    let t := s.enableChange b k
    t.flag (oSl k 0x28) 0 = true ∧ t.flag (oSl k 0x28) 1 = true ∧ t.flag (oSl k 0x28) 2 = true ∧ t.flag (oSl k 0xA8) 36 = true := by
  have ht : s.enableChange b k = ((s.setFlag (oSl k 0x28) 2 true).raiseSl k 36 0 0).maintNext k := by
    rw [State.enableChange, if_neg (by simp [hb]), if_pos (by simp [hb, h0, h1])]
  have hctl := maintNext_ctl ((s.setFlag (oSl k 0x28) 2 true).raiseSl k 36 0 0) k (p := 0x28) (by decide) (by decide) (by decide)
  have hev := maintNext_ctl ((s.setFlag (oSl k 0x28) 2 true).raiseSl k 36 0 0) k (p := 0xA8) (by decide) (by decide) (by decide)
  have hne : ¬ ErrReg k 0 (oSl k 0x28) := by
    rintro (h | h | h | h | h) <;> simp only [oSl, oLifeCe, oCisternStat] at h <;> omega
  have hreg : ((s.setFlag (oSl k 0x28) 2 true).raiseSl k 36 0 0).reg (oSl k 0x28) = (s.setFlag (oSl k 0x28) 2 true).reg (oSl k 0x28) :=
    (errFree_reg hne _).raiseSl 36 0 0 rfl
  refine ⟨?_, ?_, ?_, ?_⟩
  · rw [ht, flag_congr (hctl.trans hreg), flag_setFlag_apart _ _ _ _ _ (by decide), h0]
  · rw [ht, flag_congr (hctl.trans hreg), flag_setFlag_apart _ _ _ _ _ (by decide), h1]
  · rw [ht, flag_congr (hctl.trans hreg), flag_setFlag_same _ _ _ _ (by decide)]
  · rw [ht, flag_congr hev, raiseSl_flag _ _ _ _ (by decide)]

theorem enableChange_same {s b : State} {k : Nat} (h : b.flag (oSl k 0x28) 0 = s.flag (oSl k 0x28) 0) : s.enableChange b k = s := by
  rw [State.enableChange, h, if_neg (by simp), if_neg (by simp)]

/-! ## LZ_DRAIN_MASK and LZ_LOG_PTR (R523, R542) -/

theorem weirSample_drained {s : State} {r : Req} (e h : Nat) (hi : s.intakeClosed r = false) (hd : (s.reg oDrain).getLsbD r.tenant = true)
    (h1 : r.op ≠ .wbDirty) (h2 : r.op ≠ .evictClean) (h3 : r.op ≠ .wrStream) (h4 : r.op ≠ .fence) :
    ∃ q, q.req = r ∧ s.weirSample e h r = (s.freeEntry h q).send (s.frame + 1) (portOf r.nc r.src) (retryMsg r h 0 2 15) := by
  refine ⟨{ req := r, home := h, c0pool := r.cls == 0 && r.op != .wbDirty }, rfl, ?_⟩
  rw [State.weirSample, if_neg (by simp [hi]), if_pos (by simp [hd, h1, h2, h3, h4])]

theorem putRd_word {s : State} {w : RegAccess} (hw : w.size = 8) :
    s.putRd w = if (s.ring.wr - bits w.val 16 13).toNat ≤ 4096 then { s with ring := { s.ring with rd := bits w.val 16 13 } } else s := by
  have hm : w.mask = BitVec.allOnes 64 := if_pos hw
  have hv : w.value = w.val := if_pos hw
  have hrd : ((s.ring.rd &&& ~~~(bits w.mask 16 13)) ||| (bits (w.value &&& w.mask) 16 13)) = bits w.val 16 13 := by
    rw [hm, hv, BitVec.and_allOnes, show bits (BitVec.allOnes 64) 16 13 = BitVec.allOnes 13 from by decide]
    simp
  unfold State.putRd
  rw [hrd]
  rfl

/-! ## Which write starts what (R556, R562) -/

theorem sliceOff_ctl {k : Nat} (h : k < 16) : sliceOff (oSl k 0x28) = some (k, 0x28) := by
  have ho : 0x100000 ≤ oSl k 0x28 ∧ oSl k 0x28 < 0x200000 := by simp only [oSl]; omega
  have hk : (oSl k 0x28 - 0x100000) / 0x10000 = k := by simp only [oSl]; omega
  have hp : (oSl k 0x28 - 0x100000) % 0x10000 = 0x28 := by simp only [oSl]; omega
  rw [sliceOff, if_pos ho, hk, hp]

theorem putWo_slice {s : State} {w : RegAccess} {k : Nat} (h : w.slot = oSl k 0x28) (hk : k < 16) :
    s.putWo w = if w.starts 3 then s.rebuild k else s := by
  rw [State.putWo, h, sliceOff_ctl hk]
  simp

theorem putWo_flip {s : State} {w : RegAccess} (h : w.slot = oFlip) (hm : w.mask.getLsbD 0 = true) : s.putWo w = s.armFlip (w.value.getLsbD 0) := by
  rw [State.putWo, h]
  exact if_pos hm

theorem putWo_nvm {s : State} {w : RegAccess} (h : w.slot = oNvm) (hm : w.mask.getLsbD 0 = true) :
    s.putWo w = s.nvmStart ((w.mask &&& w.value).toNat % 8) w.init := by
  rw [State.putWo, h]
  exact if_pos hm

theorem putWo_takeover {s : State} {w : RegAccess} (h : w.slot = oTakeover) :
    s.putWo w = (let t := if w.starts 4 then s.force else s; if w.starts 5 then t.returnStart else t) := by
  rw [State.putWo, h]; rfl

theorem putWo_dbg {s : State} {w : RegAccess} (h : w.slot = oDbg) : (s.putWo w).bus.dbgStart = (s.bus.dbgStart || w.starts 24) := by
  have hp : s.putWo w = if w.starts 24 then { s with bus := { s.bus with dbgStart := true } } else s := by rw [State.putWo, h]; rfl
  rw [hp]
  cases w.starts 24 <;> simp

/-- Settles O57: an operation that is queued in a slice runs or waits there whatever starts after it; every other start is a branch of its
definition. -/
theorem startsAtTheEdge : Obligations.StartsAtTheEdge := by
  refine ⟨fun s => ⟨?_, ⟨walkStart_ignored, walkStart_starts⟩, fun h => if_pos h, initStart_starts, fun hf ha => ?_,
      ⟨fun ha hf hb => ?_, force_refused, returnStart_starts, fun h => if_neg (by simp [h])⟩, fun h => ?_, fun n h => ?_,
      ⟨flag_setFlag_same _ _ _ _ (by decide), mem_due s .lifetime⟩, fun op i h0 h4 hb => ⟨fun ha => ?_, fun ha => ?_⟩, fun op i hb => ?_,
      fun k => rebuild_refused, fun k => rebuild_starts⟩,
    fun s b k => ⟨enableChange_off, enableChange_on, enableChange_same⟩, fun s h => ⟨if_pos h, fun k ev f => if_pos h⟩,
    fun s e h r => weirSample_drained e h, fun s w hw _ => ⟨fun h => ?_, fun h => ?_⟩,
    fun s w k => ⟨putWo_slice, ?_, ?_, ?_, ?_, putWo_flip, putWo_takeover, putWo_dbg, ?_, ?_, ?_, putWo_nvm, ?_⟩⟩
  · exact List.forall_mem_cons.mpr ⟨startOp_reads (by decide) (by decide) (by decide) (by decide) (by decide) (by decide),
      List.forall_mem_singleton.mpr (startOp_reads (by decide) (by decide) (by decide) (by decide) (by decide) (by decide))⟩
  · rw [State.armFlip, if_neg (by simp [hf]), if_neg (by simp [ha]), flag_eq_fld, fld_setFld_same _ _ _ _ _ (by decide)]
    rfl
  · have hs := force_fails ha hf hb
    obtain ⟨c, hc⟩ := failSlice_due s (s.fld oTakeover 0 4) 6
    exact ⟨hs, hs ▸ List.mem_map_of_mem hc, fun hno => hs ▸ failSlice_new hno⟩
  · rw [State.snap, if_neg (by simp [h])]
    exact ⟨rfl, rfl⟩
  · exact if_pos (by simp [h])
  · rw [nvmStart_allowed h0 h4 hb ha]
    exact ⟨flag_setFlag_same _ _ _ _ (by decide), mem_due _ .firmware, rfl, rfl, rfl, rfl⟩
  · rw [State.nvmStart, if_neg (by simp [hb]; omega), if_pos (by simp [ha])]
  · exact if_pos (by simp [hb])
  · rw [putRd_word hw, if_pos h]
  · rw [putRd_word hw, if_neg (Nat.not_le.mpr h)]
  all_goals
    intro h
    rw [State.putWo, h]
    rfl

end Sys2Proof.Machine
end

section
/-! SUPPORT. The statements about the frame's slots, COMMITs and the edge: the C0 allowance, the fields a COMMIT leaves in force, and where a
write at the register port waits. -/

namespace Sys2Proof.Machine

/-! ## The C0 allowance (R259) -/

@[simp] theorem c0Credit_setC0Credit (s : State) (e t v : Nat) : (s.setC0Credit e t v).c0Credit e t = v := by
  simp [State.c0Credit, State.setC0Credit]

@[simp] theorem setC0Credit_regs (s : State) (e t v : Nat) : (s.setC0Credit e t v).regs = s.regs := State.updSl_regs _ _ _

theorem allowance_noSlots {s : State} (h : s.c0Slots = 0) (e t : Nat) : s.allowance e t 0 false = (1, s.incFld (oSl e 0x18) 0 24 1) :=
  if_pos h

theorem allowance_kept {s : State} {e t : Nat} (h : s.c0Slots ≠ 0) (hc : 64 ≤ s.c0Credit e t) :
    s.allowance e t 0 false = (0, s.setC0Credit e t (s.c0Credit e t - 64)) := (if_neg h).trans (if_pos hc)

theorem allowance_noCredit {s : State} {e t : Nat} (h : s.c0Slots ≠ 0) (hc : s.c0Credit e t < 64) :
    s.allowance e t 0 false = (1, s.incFld (oSl e 0x18) 0 24 1) := (if_neg h).trans (if_neg (Nat.not_le.mpr hc))

/-- A demotion counts in DEMOTED, which saturates, and charges no credit. -/
theorem demoted_reads (s : State) (e t : Nat) :
    (s.incFld (oSl e 0x18) 0 24 1).c0Credit e t = s.c0Credit e t ∧
      (s.incFld (oSl e 0x18) 0 24 1).fld (oSl e 0x18) 0 24 = min (s.fld (oSl e 0x18) 0 24 + 1) (2 ^ 24 - 1) :=
  ⟨by rw [State.c0Credit, State.incFld_sl, State.c0Credit], fld_incFld_same _ _ _ _ _ (by decide)⟩

/-- Settles O20: the two demotions end in the same state, and a kept request leaves its slice 64 less. -/
theorem allowanceOfAC0Request : Obligations.AllowanceOfAC0Request := by
  intro s e t
  refine ⟨fun h => ?_, fun h hc => ?_, fun h hc => ?_⟩
  · rw [allowance_noSlots h]
    exact ⟨rfl, demoted_reads s e t⟩
  · rw [allowance_kept h hc]
    exact ⟨rfl, c0Credit_setC0Credit _ _ _ _, setC0Credit_regs _ _ _ _⟩
  · rw [allowance_noCredit h hc]
    exact ⟨rfl, demoted_reads s e t⟩

/-! ## Where the RWL fields stand (R518) -/

theorem rwlMask_beyond {o : Nat} (h : 0x200000 ≤ o) : rwlMask o = 0 := by
  have ho : sliceOff o = none := if_neg (by omega)
  have hne {n : Nat} (hn : n < 0x200000) : o ≠ n := by omega
  have hev : ¬ o < oEvtRoute 25 := by simp only [oEvtRoute]; omega
  simp [rwlMask, ho, hne, hev, show ¬ o < 0x24000 by omega, show ¬ o < 0x24C00 by omega, oHome, oProgress, oSlot, oWeir, oAtom, oIowr,
    oFilter, oWaylock, oEvgan]

/-- The RWL fields lie below the slice windows, but for ENABLE of each slice. -/
theorem rwl_place {o b : Nat} (h : (rwlMask o).getLsbD b = true) : o < 0x100000 ∨ b = 0 ∧ ∃ k, o = oSl k 0x28 := by
  by_cases hlow : o < 0x100000
  · exact .inl hlow
  by_cases hwin : o < 0x200000
  · have ho : sliceOff o = some ((o - 0x100000) / 0x10000, (o - 0x100000) % 0x10000) := if_pos ⟨by omega, hwin⟩
    simp only [rwlMask, ho] at h
    split at h
    next hp =>
      refine .inr ⟨?_, (o - 0x100000) / 0x10000, by simp only [oSl]; omega⟩
      by_contra hb
      exact absurd h (by simp [BitVec.getLsbD_one, hb])
    · simp at h
  · rw [rwlMask_beyond (by omega)] at h
    simp at h

/-- Of the registers of a slice window only ENABLE is RWL. -/
theorem rwl_window {k p b : Nat} (hp : p < 0x10000) (h : (rwlMask (oSl k p)).getLsbD b = true) : p = 0x28 ∧ b = 0 := by
  rcases rwl_place h with hlow | ⟨hb, j, hj⟩
  · simp only [oSl] at hlow; omega
  · simp only [oSl] at hj; exact ⟨by omega, hb⟩

/-- The RWL fields, and the number of COMMITs applied, are those of `s`. -/
def State.RwlKept (s u : State) : Prop :=
  u.commits = s.commits ∧ ∀ o b, (rwlMask o).getLsbD b = true → u.flag o b = s.flag o b

theorem State.RwlKept.refl (s : State) : s.RwlKept s := ⟨rfl, fun _ _ _ => rfl⟩

namespace State.RwlKept

section
variable {s u : State} (hu : s.RwlKept u)
include hu

theorem setReg {o : Nat} {v : Reg} (hv : ∀ b, (rwlMask o).getLsbD b = true → v.getLsbD b = u.flag o b) : s.RwlKept (u.setReg o v) := by
  refine ⟨hu.1, fun o' b hb => ?_⟩
  rw [← hu.2 o' b hb]
  by_cases ho : o' = o
  · subst ho
    rw [State.flag, reg_setReg_same, hv b hb]
  · exact flag_congr (reg_setReg_other u v ho) b

theorem setFld {o lo w : Nat} (v : Nat) (h : ∀ b, (rwlMask o).getLsbD b = true → b < lo ∨ lo + w ≤ b) : s.RwlKept (u.setFld o lo w v) :=
  hu.setReg fun b hb => by
    rw [getLsbD_setBits _ _ _ _ _ (BitVec.lt_of_getLsbD hb), if_neg (by have := h b hb; omega)]
    rfl

theorem setFlag {o i : Nat} (v : Bool) (h : ∀ b, (rwlMask o).getLsbD b = true → b ≠ i) : s.RwlKept (u.setFlag o i v) := by
  have hf (n : Nat) : s.RwlKept (u.setFld o i 1 n) := hu.setFld n fun b hb => by have := h b hb; omega
  cases v
  · exact hf 0
  · exact hf 1

theorem updSl (k : Nat) (f : Slice → Slice) : s.RwlKept (u.updSl k f) := hu

/-- A slice source sets pending and overflow bits of its slice only (R535, R541). -/
theorem raiseSl (k i code : Nat) (d : BitVec 64) : s.RwlKept (u.raiseSl k i code d) := by
  have hno {p : Nat} (hp : p < 0x10000) (h28 : p ≠ 0x28) {b : Nat} : ¬ (rwlMask (oSl k p)).getLsbD b = true :=
    fun hb => h28 (rwl_window hp hb).1
  have hp : s.RwlKept (u.pendSl k i) := by
    unfold State.pendSl
    split
    · exact hu.setFlag true fun _ hb => absurd hb (hno (by decide) (by decide))
    · exact hu.setFlag true fun _ hb => absurd hb (hno (by decide) (by decide))
  unfold State.raiseSl
  dsimp only
  split
  · split
    · exact hp.updSl k _
    · exact hp.setFld _ fun _ hb => absurd hb (hno (by decide) (by decide))
  · exact hp

/-- The maintenance engine writes SL_RINV_STAT and the summary of the scrub, no RWL field. -/
theorem maintNext (k : Nat) : s.RwlKept (u.maintNext k) := by
  refine maintNext_keeps (P := s.RwlKept) k (fun u j m l hu => hu) (fun u e p v hp hu => hu.setReg fun b hb => ?_) hu
  have := (rwl_window (by omega) hb).1
  omega

theorem rebudget (k : Nat) : s.RwlKept (u.rebudget k) :=
  hu.setFld _ fun _ hb => absurd (rwl_window (by decide) hb).1 (by decide)

/-- Placement stops by a change of the slice alone (R233). -/
theorem stopPlacement (k : Nat) : s.RwlKept (u.stopPlacement k) := hu.updSl k _

/-- The change sets STALE or STALE_ENABLED; ENABLE itself the COMMIT has put in force (R244, R246). -/
theorem enableChange (b : State) (k : Nat) : s.RwlKept (u.enableChange b k) := by
  have hset {i : Nat} (hi : i ≠ 0) : s.RwlKept (u.setFlag (oSl k 0x28) i true) :=
    hu.setFlag true fun j hj => by rw [(rwl_window (by decide) hj).2]; exact hi.symm
  unfold State.enableChange
  dsimp only
  split
  · exact ((hset (by decide)).stopPlacement k).maintNext k
  · split
    · exact ((hset (by decide)).raiseSl k 36 0 0).maintNext k
    · exact hu

/-- A tenant's buckets, credits and colors are no registers (R258, R296). -/
theorem tenantChange (b : State) (t : Nat) : s.RwlKept (u.tenantChange b t) := by
  have hbkt (l : List Nat) (c p : State → Nat → Int) {v : State} (hv : s.RwlKept v) :
      s.RwlKept (foldSt l (fun v e => v.setBuckets e t (c v e) (p v e)) v) := foldSt_keeps (fun v e hv => hv.updSl e _) l hv
  have hcap (l : List Nat) (cap : Nat) : s.RwlKept (foldSt l (fun v e => v.setC0Credit e t (min (v.c0Credit e t) cap)) u) :=
    foldSt_keeps (fun v e hv => hv.updSl e _) l hu
  have hc := iteInduction (motive := s.RwlKept) (c := u.reg (oTn t 0x10) = b.reg (oTn t 0x10)) (fun _ => hu)
    fun _ => hcap u.weirs (64 * u.fld (oTn t 0x10) 8 4)
  unfold State.tenantChange
  dsimp -zeta only
  extract_lets cap slices capped resized sized
  have hs : s.RwlKept sized := iteInduction (motive := s.RwlKept) (fun _ => hbkt slices _ _ hc) fun _ => hc
  split
  · exact hbkt _ _ _ hc
  · split
    · split
      · exact hs
      · exact hs
    · split
      · exact hs
      · exact hs

/-- The effects of a COMMIT follow from the fields in force and change none of them. -/
theorem commitEffects (b : State) (written : List Nat) : s.RwlKept (u.commitEffects b written) := by
  unfold State.commitEffects
  extract_lets slices tens ofTenants ofFilters ofPlacement
  have hten : s.RwlKept ofTenants := foldSt_keeps (fun v t hv => hv.tenantChange b t) tens hu
  have hfil : s.RwlKept ofFilters := foldSt_keeps (fun v k hv => hv.enableChange b k) slices hten
  have hpla : s.RwlKept ofPlacement :=
    iteInduction (motive := s.RwlKept) (fun _ => foldSt_keeps (fun v k hv => hv.stopPlacement k) slices hfil) fun _ => hfil
  split
  · exact hpla
  · exact foldSt_keeps (fun v k hv => hv.rebudget k) slices hpla

end

end State.RwlKept

/-! ## The shadowed fields in force (R518, R519) -/

/-- A bit that no shadow of its register covers stays. -/
theorem putShadow_flag_kept (s : State) {l : List (Nat × Reg × Reg)} {o b : Nat} (hb : b < 64)
    (h : ∀ e ∈ l, e.1 = o → e.2.1.getLsbD b = false ∧ e.2.2.getLsbD b = false) : (s.putShadow l).flag o b = s.flag o b := by
  refine foldl_keeps (P := fun u => u.flag o b = s.flag o b) l rfl fun u e he hu => ?_
  by_cases ho : o = e.1
  · obtain ⟨hm, hv⟩ := h e he ho.symm
    rw [← hu, ho, State.flag, reg_setReg_same]
    simp [State.flag, -BitVec.getLsbD_eq_getElem, hm, hv, hb]
  · exact (flag_congr (reg_setReg_other u _ ho) b).trans hu

/-- A bit that the one shadow of its register covers has the shadow's value. -/
theorem putShadow_flag_put (s : State) {l : List (Nat × Reg × Reg)} (hn : (l.map Prod.fst).Nodup) {e : Nat × Reg × Reg} (he : e ∈ l) {b : Nat}
    (hb : e.2.1.getLsbD b = true) : (s.putShadow l).flag e.1 b = e.2.2.getLsbD b := by
  induction l generalizing s with
  | nil => cases he
  | cons x l ih =>
    obtain ⟨hx, hl⟩ := List.nodup_cons.mp hn
    show ((s.setReg x.1 ((s.reg x.1 &&& ~~~x.2.1) ||| x.2.2)).putShadow l).flag e.1 b = _
    rcases List.mem_cons.mp he with rfl | he
    · rw [putShadow_flag_kept _ (BitVec.lt_of_getLsbD hb) fun y hy hye => absurd (List.mem_map.mpr ⟨y, hy, hye⟩) hx, State.flag, reg_setReg_same]
      simp [hb]
    · exact ih _ hl he

/-! ## A COMMIT (R519, R522) -/

/-- The RESULT that a COMMIT gets (R519). -/
def State.commitResult (s : State) (v : CfgView) : Nat :=
  if 4096 < v.writes then 4 else if (s.conflict v).isSome then 5 else if (s.shadowed v).r260 then 1 else 6

/-- RESULT of an initiator. -/
def State.answered (s : State) (i r : Nat) : State := s.setView i { s.view i with result := r }

/-- What a refused COMMIT leaves: its RESULT and the event of R522. -/
def State.commitRefused (s : State) (i r o : Nat) : State := (s.answered i r).cfgRefused i r o

/-- The fields of an accepted COMMIT in force, before its effects. -/
def State.inForce (s : State) (v : CfgView) : State :=
  { s.shadowed v with commits := s.commits + 1
                      committed := (v.shadow.map Prod.fst).foldl (fun c o => tput o (s.commits + 1) c) s.committed }

/-- Everything a COMMIT can do. -/
theorem commit_cases (s : State) (i : Nat) (v : CfgView) :
    (s.commitResult v ≠ 1 ∧ ∃ o, s.commit i v = s.commitRefused i (s.commitResult v) o) ∨
      (s.commitResult v = 1 ∧ s.commit i v = ((s.inForce v).commitEffects s (v.shadow.map Prod.fst)).answered i 1) := by
  unfold State.commit State.commitResult
  by_cases hw : 4096 < v.writes
  · simp only [hw, if_true]
    exact .inl ⟨by decide, 0, rfl⟩
  · cases hc : s.conflict v with
    | some o =>
      simp only [hw, if_false, Option.isSome_some, if_true]
      exact .inl ⟨by decide, o, rfl⟩
    | none =>
      cases hr : (s.shadowed v).r260
      · simp only [hw, hr, if_false, Option.isSome_none, Bool.false_eq_true, Bool.not_false, if_true]
        exact .inl ⟨by decide, 0, rfl⟩
      · simp only [hw, hr, if_false, Option.isSome_none, Bool.false_eq_true, Bool.not_true, if_true]
        exact .inr ⟨trivial, rfl⟩

/-- A refusal writes the view of its initiator and the pending bit of its event. -/
theorem commitRefused_reads (s : State) (i r o : Nat) :
    ((s.commitRefused i r o).view i).result = r ∧ (∀ p, rwlMask p ≠ 0 → (s.commitRefused i r o).reg p = s.reg p) ∧
      (s.commitRefused i r o).slices = s.slices ∧ (s.commitRefused i r o).commits = s.commits ∧
      (s.commitRefused i r o).committed = s.committed := by
  unfold State.commitRefused State.cfgRefused
  refine ⟨?_, fun p hp => ?_, ?_, ?_⟩
  · rw [raise_view, State.answered, State.setView_view_same]
  · have hne : p ≠ oEvtPend (36 / 64) := by rintro rfl; exact hp (by decide)
    exact raise_reg_other _ _ _ hne
  · exact raise_slices _ _ _ _
  · obtain ⟨g, m, l, n, h⟩ := raise_same (s.answered i r) 36 r (BitVec.ofNat 64 i ||| (BitVec.ofNat 64 o <<< 8))
    rw [h]
    exact ⟨rfl, rfl⟩

/-- What an accepted COMMIT leaves of the RWL fields is what the shadow put in force. -/
theorem inForce_rwlKept (s : State) (i : Nat) (v : CfgView) :
    (s.inForce v).RwlKept (((s.inForce v).commitEffects s (v.shadow.map Prod.fst)).answered i 1) :=
  (State.RwlKept.refl (s.inForce v)).commitEffects s (v.shadow.map Prod.fst)

/-- A shadow outside the windows of failed slices and lost pairs comes into force. -/
theorem inForce_flag_put (s : State) {v : CfgView} (hn : (v.shadow.map Prod.fst).Nodup) {e : Nat × Reg × Reg} (he : e ∈ v.shadow)
    (hw : ∀ k p, sliceOff e.1 = some (k, p) → s.sliceFailed k = false ∧ s.pairLost k = false) {b : Nat} (hb : e.2.1.getLsbD b = true) :
    (s.inForce v).flag e.1 b = e.2.2.getLsbD b := by
  refine putShadow_flag_put s (hn.sublist (List.filter_sublist.map Prod.fst)) (List.mem_filter.mpr ⟨he, ?_⟩) hb
  cases ho : sliceOff e.1 with
  | none => rfl
  | some q =>
    obtain ⟨hf, hp⟩ := hw q.1 q.2 ho
    simp [hf, hp]

theorem inForce_flag_kept (s : State) {v : CfgView} {o b : Nat} (hb : b < 64)
    (h : ∀ e ∈ v.shadow, e.1 = o → e.2.1.getLsbD b = false ∧ e.2.2.getLsbD b = false) : (s.inForce v).flag o b = s.flag o b :=
  putShadow_flag_kept s hb fun e he => h e (List.mem_filter.mp he).1

/-- Settles O24: a refusal ends in the event of R522, and the effects of an accepted COMMIT keep the fields that it has put in force. -/
theorem commitIsRefusedWholeOrApplied : Obligations.CommitIsRefusedWholeOrApplied := by
  intro s i v
  change ((s.commit i v).view i).result = s.commitResult v ∧ (s.commitResult v ≠ 1 → _) ∧ (s.commitResult v = 1 → _)
  rcases commit_cases s i v with ⟨hr, o, hc⟩ | ⟨hr, hc⟩
  · obtain ⟨hres, hreg, hsl, hn, hw⟩ := commitRefused_reads s i (s.commitResult v) o
    rw [hc]
    exact ⟨hres, fun _ => ⟨hreg, hsl, hn, hw⟩, fun h => absurd h hr⟩
  · obtain ⟨hn, hrwl⟩ := inForce_rwlKept s i v
    rw [hc, hr]
    refine ⟨by rw [State.answered, State.setView_view_same], fun h => absurd rfl h, fun _ =>
      ⟨hn, fun e he hnd hwin b hm hb => ?_, fun o b hb h => ?_⟩⟩
    · rw [hrwl _ b hb, inForce_flag_put s hnd he hwin hm]
    · rw [hrwl o b hb, inForce_flag_kept s (BitVec.lt_of_getLsbD hb) h]

/-! ## Writes that wait for the edge or for the bus (R251, R562) -/

theorem mask_of_starts {w : RegAccess} {b : Nat} (h : w.starts b = true) : w.mask.getLsbD b = true := by
  rw [RegAccess.starts, BitVec.getLsbD_and, Bool.and_eq_true] at h
  exact h.1

/-- A write covers a half of its slot, or all of it (R560). -/
theorem mask_half (w : RegAccess) : w.mask.getLsbD 0 = true ∨ w.mask.getLsbD 32 = true := by
  unfold RegAccess.mask
  split
  · exact .inl (by decide)
  · split
    · exact .inr (by decide)
    · exact .inl (by decide)

/-- An operation of LZ_NVM_CTL writes one of the three bits of START. -/
theorem mask_of_op {w : RegAccess} (h : (w.mask &&& w.value).toNat % 8 ≠ 0) : ∃ b < 3, w.mask.getLsbD b = true := by
  obtain ⟨b, hb⟩ := Nat.exists_testBit_of_ne_zero h
  rw [show 8 = 2 ^ 3 from rfl, Nat.testBit_mod_two_pow, Bool.and_eq_true, decide_eq_true_eq] at hb
  exact ⟨b, hb.1, mask_of_starts hb.2⟩

/-- A write of something else than an RWL field or CMD, which has an effect at the edge. -/
def EdgeOnly (w : RegAccess) : Prop :=
  rwlMask w.slot = 0 ∧ w.slot ≠ oCfg ∧ (rwMask w.slot ||| w1cMask w.slot ||| woMask w.slot) &&& w.mask ≠ 0

/-- A bit of a register without RWL fields whose write has an effect at the edge. -/
def edgeBit (o b : Nat) : Bool := (rwMask o ||| w1cMask o ||| woMask o).getLsbD b && rwlMask o == 0 && o != oCfg

theorem edgeOnly_of_bit {w : RegAccess} {b : Nat} (hb : edgeBit w.slot b = true) (hm : w.mask.getLsbD b = true) : EdgeOnly w := by
  simp only [edgeBit, Bool.and_eq_true, beq_iff_eq, bne_iff_ne] at hb
  obtain ⟨⟨hb, hr⟩, hc⟩ := hb
  refine ⟨hr, hc, fun hz => ?_⟩
  have hzb := congrArg (BitVec.getLsbD · b) hz
  simp [-BitVec.getLsbD_eq_getElem, -BitVec.getLsbD_or, hb, hm] at hzb

section
variable {w : RegAccess} {o : Nat}

theorem edgeOnly_of_starts {b : Nat} (hb : edgeBit o b = true) (h : (decide (w.slot = o) && w.starts b) = true) : EdgeOnly w := by
  obtain ⟨hs, hst⟩ := Bool.and_eq_true_iff.mp h
  exact edgeOnly_of_bit (of_decide_eq_true hs ▸ hb) (mask_of_starts hst)

/-- Whatever half a write covers of a register with such bits in both. -/
theorem edgeOnly_of_word (hb : edgeBit o 0 = true ∧ edgeBit o 32 = true) (hs : decide (w.slot = o) = true) : EdgeOnly w := by
  obtain rfl := of_decide_eq_true hs
  exact (mask_half w).elim (edgeOnly_of_bit hb.1) (edgeOnly_of_bit hb.2)

theorem edgeOnly_of_op {n : Nat} (hn : n ≠ 0)
    (h : (decide (w.slot = oNvm) && decide ((w.mask &&& w.value).toNat % 8 = n)) = true) : EdgeOnly w := by
  obtain ⟨hs, ho⟩ := Bool.and_eq_true_iff.mp h
  obtain ⟨b, hb, hm⟩ := mask_of_op (of_decide_eq_true ho ▸ hn)
  exact edgeOnly_of_bit (of_decide_eq_true hs ▸ (by decide : ∀ b < 3, edgeBit oNvm b = true) b hb) hm

end

/-- The writes that the rows name act at the edge, and on no RWL field. -/
theorem writeRows_edgeOnly : ∀ p ∈ writeRows, ∀ w, p.2 w = true → EdgeOnly w := by
  have hpend (w : RegAccess) (h : (decide (w.slot = oEvtPend 0) || decide (w.slot = oEvtPend 1)) = true) : EdgeOnly w :=
    (Bool.or_eq_true_iff.mp h).elim (edgeOnly_of_word (by decide)) (edgeOnly_of_word (by decide))
  have hptr (w : RegAccess) (h : (decide (w.slot = oLogPtr) && ((0x1FFF0000 &&& w.mask) != 0)) = true) : EdgeOnly w := by
    obtain ⟨hs, hm⟩ := Bool.and_eq_true_iff.mp h
    rw [EdgeOnly, of_decide_eq_true hs]
    exact ⟨by decide, by decide, bne_iff_ne.mp hm⟩
  have hfreeze (w : RegAccess) (h : (decide (w.slot = oPmcCtl) && w.mask.getLsbD 0) = true) : EdgeOnly w := by
    obtain ⟨hs, hm⟩ := Bool.and_eq_true_iff.mp h
    exact edgeOnly_of_bit (of_decide_eq_true hs ▸ by decide) hm
  have hany (w : RegAccess) (h : (decide (rwlMask w.slot = 0) && w.slot != oCfg &&
      ((rwMask w.slot ||| w1cMask w.slot ||| woMask w.slot) &&& w.mask) != 0) = true) : EdgeOnly w := by
    obtain ⟨h, hm⟩ := Bool.and_eq_true_iff.mp h
    obtain ⟨hr, hc⟩ := Bool.and_eq_true_iff.mp h
    exact ⟨of_decide_eq_true hr, bne_iff_ne.mp hc, bne_iff_ne.mp hm⟩
  simp only [writeRows, List.forall_mem_cons]
  refine ⟨?_, ?_, ?_, ?_, ?_, ?_, ?_, fun w h => edgeOnly_of_word (by decide) (Bool.and_eq_true_iff.mp h).1, hptr, hpend, ?_, hfreeze, ?_,
    fun w => edgeOnly_of_word (by decide), fun w => edgeOnly_of_op (by decide), fun w => edgeOnly_of_op (by decide),
    fun w => edgeOnly_of_op (by decide), fun w => edgeOnly_of_op (by decide), hany, List.forall_mem_nil _⟩
  all_goals exact fun w => edgeOnly_of_starts (by decide)

theorem registerWrite_row {w : RegAccess} (h : w.read = false) (s : State) : exec (.registerWrite w) s = writeRow true w s := by
  show accessRow true w s = accessRow (true && !w.read) w s
  rw [h]
  rfl

/-- A row takes every write that it names; some rows take more. -/
theorem writeRows_exec : ∀ p ∈ writeRows, ∀ (s : State) (w : RegAccess), p.2 w = true → w.read = false →
    ∃ c, c = true ∧ exec (p.1 w) s = writeRow c w s := by
  simp only [writeRows, List.forall_mem_cons]
  refine ⟨?_, ?_, ?_, ?_, ?_, ?_, ?_, fun s w h _ => ⟨_, (Bool.and_eq_true_iff.mp h).1, rfl⟩,
    fun s w h _ => ⟨_, (Bool.and_eq_true_iff.mp h).1, rfl⟩, fun s w h _ => ⟨_, Bool.or_eq_true_iff.mpr (.inl h), rfl⟩, ?_,
    fun s w h _ => ⟨_, (Bool.and_eq_true_iff.mp h).1, rfl⟩, ?_, ?_, ?_, ?_, ?_, ?_,
    fun s w _ hrd => ⟨true, rfl, registerWrite_row hrd s⟩, List.forall_mem_nil _⟩
  all_goals exact fun s w h _ => ⟨_, h, rfl⟩

/-- A write that is served at once waits for the edge, and nothing else changes. -/
theorem portAccess_edge {s : State} {w : RegAccess} (hs : s.Serves w) (hw : EdgeOnly w) :
    s.portAccess w = { s with edgeQ := s.edgeQ ++ [.write w] } := by
  obtain ⟨-, hr, -, ha, hrd, hp, ht, hu⟩ := hs
  obtain ⟨hrwl, hc, hm⟩ := hw
  have hi : s.isRwl w = false := by simp [State.isRwl, hrwl]
  have hv : s.serve w = { s with edgeQ := s.edgeQ ++ [.write w] } := by
    simpa [State.serve, hrd, hu, hc, hi] using fun hz => absurd hz hm
  rw [← hv]
  simp [State.portAccess, ha, hr, hp, ht]

/-- An access of a slice window waits for its transfer. -/
theorem portAccess_bus {s : State} {w : RegAccess} {k : Nat} (hr : s.ready = true) (ha : w.accepted = true) (ht : s.toSlice w = some k) :
    s.portAccess w = { s with bus := { s.bus with port := s.bus.port ++ [w] } } := by
  simp [State.portAccess, ha, hr, ht]

/-- Settles O55: the bits that a row names are among those of its register that act at the edge, and a window that exists sends its accesses to
the bus. -/
theorem writesWaitForTheirEdge : Obligations.WritesWaitForTheirEdge := by
  refine ⟨fun p hp s w hw hs => ?_, fun s w k p hin hr hi ha hrd ht ho => ?_⟩
  · have hx := portAccess_edge hs (writeRows_edgeOnly p hp w hw)
    obtain ⟨hin, -, hi, -, hrd, -⟩ := hs
    obtain ⟨c, hc, he⟩ := writeRows_exec p hp s w hw hrd
    rw [he, writeRow_next hin hc hi hrd, hx, State.held_eq] <;> rfl
  · have hrow {c : Bool} (hc : c = true) : writeRow c w s = .next { s with bus := { s.bus with port := s.bus.port ++ [w] } } := by
      rw [writeRow_next hin hc hi hrd, portAccess_bus hr ha ht, State.held_eq] <;> rfl
    refine ⟨fun hp hm hv => hrow ?_, fun hp hm hv => hrow ?_, fun hp hst => hrow ?_, fun hp => hrow ?_, ?_⟩
    · rw [enables, ho, hm, hv, hp]; rfl
    · rw [enables, ho, hm, hv, hp]; rfl
    · rw [ho, hst, hp]; rfl
    · simp [ho, hp]
    · rw [registerWrite_row hrd]
      exact hrow rfl

end Sys2Proof.Machine
end

section
/-! SUPPORT. The statements about the weir's arithmetic and about the clocks that stand at an edge: the order of finish times, the colors and
charges of the meters, and the refill, the leak, the second and the checkpoint. -/

namespace Sys2Proof.Machine

/-! ## Finish times (R285) -/

theorem before32_iff (a b : Nat) : before32 a b = true ↔ 1 ≤ (b + 2 ^ 32 - a) % 2 ^ 32 ∧ (b + 2 ^ 32 - a) % 2 ^ 32 ≤ 2 ^ 31 - 1 := by
  simp only [before32, Bool.and_eq_true, decide_eq_true_eq]

/-- A distance below 2^32 is what the comparison reads, wherever the sum wraps. -/
theorem distance_add {a d : Nat} (ha : a < 2 ^ 32) (hd : d < 2 ^ 32) : ((a + d) % 2 ^ 32 + 2 ^ 32 - a) % 2 ^ 32 = d := by omega

/-- Settles O17: the distances in the two directions add up to 2^32, and that of a value from itself is 0. -/
theorem finishTimesAreOrdered : Obligations.FinishTimesAreOrdered := by
  refine ⟨fun a d ha hd => ?_, fun a b ha hb => ?_, fun a => ?_⟩
  · rw [before32_iff, distance_add ha hd]
  · rw [before32_iff, before32_iff]
    omega
  · rw [← Bool.not_eq_true, before32_iff, Nat.add_sub_cancel_left]
    omega

/-! ## The buckets (R275, R276) -/

theorem cBucket_setBuckets (s : State) (e t u : Nat) (c p : Int) : (s.setBuckets e t c p).cBucket e u = if u = t then c else s.cBucket e u := by
  simp [State.cBucket, State.setBuckets, tget_tputD]

theorem pBucket_setBuckets (s : State) (e t u : Nat) (c p : Int) : (s.setBuckets e t c p).pBucket e u = if u = t then p else s.pBucket e u := by
  simp [State.pBucket, State.setBuckets, tget_tputD]

theorem setBuckets_same (s : State) (e t : Nat) (c p : Int) :
    (s.setBuckets e t c p).cBucket e t = c ∧ (s.setBuckets e t c p).pBucket e t = p := by
  rw [cBucket_setBuckets, pBucket_setBuckets, if_pos rfl, if_pos rfl]
  exact ⟨rfl, rfl⟩

theorem setBuckets_other (s : State) (e : Nat) {t u : Nat} (hu : u ≠ t) (c p : Int) :
    (s.setBuckets e t c p).cBucket e u = s.cBucket e u ∧ (s.setBuckets e t c p).pBucket e u = s.pBucket e u := by
  rw [cBucket_setBuckets, pBucket_setBuckets, if_neg hu, if_neg hu]
  exact ⟨rfl, rfl⟩

theorem refill_on {s : State} {t : Nat} (h : s.meterOff.getLsbD t = false) (e : Nat) :
    s.refill e t = s.setBuckets e t (min (s.cBucket e t + (s.meter t).1) (s.meter t).2.2.1)
      (min (s.pBucket e t + (s.meter t).2.1) (s.meter t).2.2.2) :=
  if_neg (by simp [h])

/-! ## The colors (R278) -/

section
variable {s : State} {e t : Nat}

theorem colorReq_off (h : s.meterEn t = false) (k : Nat) : s.colorReq e t k = (.green, s) := if_pos (by simp [h])

variable (h : s.meterEn t = true)
include h

theorem colorReq_on (k : Nat) : s.colorReq e t k =
    if s.pBucket e t ≤ 0 then (.red, s)
    else if s.cBucket e t ≤ 0 then (.yellow, s.setBuckets e t (s.cBucket e t) (charge (s.pBucket e t) k))
    else (.green, s.setBuckets e t (charge (s.cBucket e t) k) (charge (s.pBucket e t) k)) := if_neg (by simp [h])

theorem colorReq_red (hp : s.pBucket e t ≤ 0) (k : Nat) : s.colorReq e t k = (.red, s) := by
  rw [colorReq_on h, if_pos hp]

theorem colorReq_yellow (hp : 0 < s.pBucket e t) (hc : s.cBucket e t ≤ 0) (k : Nat) :
    s.colorReq e t k = (.yellow, s.setBuckets e t (s.cBucket e t) (charge (s.pBucket e t) k)) := by
  rw [colorReq_on h, if_neg (Int.not_le.mpr hp), if_pos hc]

theorem colorReq_green (hp : 0 < s.pBucket e t) (hc : 0 < s.cBucket e t) (k : Nat) :
    s.colorReq e t k = (.green, s.setBuckets e t (charge (s.cBucket e t) k) (charge (s.pBucket e t) k)) := by
  rw [colorReq_on h, if_neg (Int.not_le.mpr hp), if_neg (Int.not_le.mpr hc)]

end

/-- Coloring changes nothing, or the buckets of the tenant in the slice. -/
theorem colorReq_form (s : State) (e t k : Nat) : (s.colorReq e t k).2 = s ∨ ∃ c p, (s.colorReq e t k).2 = s.setBuckets e t c p := by
  cases h : s.meterEn t with
  | false => exact .inl (congrArg Prod.snd (colorReq_off h k))
  | true =>
    rw [colorReq_on h]
    split
    · exact .inl rfl
    · split
      · exact .inr ⟨_, _, rfl⟩
      · exact .inr ⟨_, _, rfl⟩

/-- Settles O19: each color is a branch of the meter, and only the tenant's own buckets are written. -/
theorem meterColorsAndCharges : Obligations.MeterColorsAndCharges := by
  refine ⟨fun s e t k => ⟨fun h => colorReq_off h k, fun h hp => colorReq_red h hp k, fun h hp hc => ?_, fun h hp hc => ?_⟩,
    fun s e t u k hu => ?_⟩
  · rw [colorReq_yellow h hp hc]
    exact ⟨rfl, setBuckets_same s e t _ _⟩
  · rw [colorReq_green h hp hc]
    exact ⟨rfl, setBuckets_same s e t _ _⟩
  · rcases colorReq_form s e t k with h | ⟨c, p, h⟩
    · rw [h]; exact ⟨rfl, rfl⟩
    · rw [h]; exact setBuckets_other s e hu c p

/-! ## What the weir does at an edge leaves the frame's number (R280, R288, R297) -/

theorem colorReq_frame (s : State) (e t k : Nat) : (s.colorReq e t k).2.frame = s.frame := by
  rcases colorReq_form s e t k with h | ⟨c, p, h⟩
  · rw [h]
  · rw [h]; rfl

theorem refill_frame (s : State) (e t : Nat) : (s.refill e t).frame = s.frame := by
  unfold State.refill
  split <;> rfl

theorem enqueue_frame (s : State) (e : Nat) (q : QReq) : (s.enqueue e q).frame = s.frame := State.updSl_frame _ _ _

theorem recolorList_frame (s : State) (e t : Nat) (l : List QReq) : (recolorList s e t l).frame = s.frame := by
  induction l generalizing s with
  | nil => rfl
  | cons q l ih =>
    have hc := colorReq_frame s e t q.cost
    unfold recolorList
    split
    · rfl
    next c u _ hu =>
      rw [ih, enqueue_frame, State.updSl_frame, ← hc, hu]
      split
      · exact State.incFld_frame _ _ _ _ _
      · rfl

theorem greenAll_frame (s : State) (e t : Nat) : (s.greenAll e t).frame = s.frame :=
  foldl_keeps (P := fun u => u.frame = s.frame) _ rfl fun _ _ _ hu => (enqueue_frame _ _ _).trans ((State.updSl_frame _ _ _).trans hu)

theorem clampQueue_frame (s : State) (e t c : Nat) : (s.clampQueue e t c).frame = s.frame := by
  unfold State.clampQueue
  dsimp only
  split
  · rfl
  · split <;> rfl

theorem clampEdge_frame (s : State) (e : Nat) : (s.clampEdge e).frame = s.frame :=
  foldl_keeps (P := fun u => u.frame = s.frame) _ rfl fun u p _ hu => (clampQueue_frame u e p.1 p.2).trans hu

/-- The refill is made in the frame that the edge begins, and leaves no recoloring due. -/
theorem weirEdge_refilled (s : State) : (s.weirEdge true).refillAt = s.frame ∧ (s.weirEdge true).recolorDue = [] := by
  refine ⟨?_, rfl⟩
  show (foldSt s.weirs _ s).frame = s.frame
  refine foldSt_keeps (P := fun u => u.frame = s.frame) (fun u e hu => ?_) _ rfl
  dsimp only
  rw [if_pos rfl, clampEdge_frame]
  refine foldl_keeps (P := fun v => v.frame = s.frame) _ ?_ fun v p _ hv => ?_
  · exact foldSt_keeps (P := fun v => v.frame = s.frame) (fun v t hv => (recolorList_frame v e t _).trans hv) _
      (foldSt_keeps (P := fun v => v.frame = s.frame) (fun v t hv => (refill_frame v e t).trans hv) _ hu)
  · split
    · exact (greenAll_frame v e p.1).trans hv
    · exact (recolorList_frame v e p.1 _).trans hv

/-! ## Commands that stand right after their edge -/

/-- A checkpoint falls due at powered time `p` (R547). -/
def State.checkpointAt (p : Nat) (s : State) : State := State.itemDue { s with cistern := { s.cistern with ckptAt := p } } .checkpoint

theorem checkpointAt_due (p : Nat) (s : State) : NvmItem.checkpoint ∈ (s.checkpointAt p).cistern.due ∧ (s.checkpointAt p).cistern.ckptAt = p :=
  ⟨mem_due _ _, rfl⟩

theorem checkpointAt_flag (p : Nat) (s : State) : (s.checkpointAt p).flag oCisternStat 41 = true := flag_setFlag_same _ _ _ _ (by decide)

section
variable {s : State} (hin : s.inReset = false)
include hin

theorem exec_meterRefill (h : s.refillDue = true) : exec .meterRefill s = .next (s.held s.refillNow) := live_due hin h

theorem exec_leakEdge (hf : s.frame % s.leakPeriod = 0) (ha : s.leakAt < s.frame) :
    exec .leakEdge s = .next (s.held (s.edgeDo State.leakAll)) := live_due hin (by simp [hf, ha])

theorem exec_secondTick (hf : s.frame % framesPerSecond = 0) (ha : s.secondAt < s.frame) :
    exec .secondTick s = .next (s.held (s.edgeDo State.secondTick)) := live_due hin (by simp [hf, ha])

theorem exec_checkpointDue (hr : s.ready = true) (hn : s.fld oCistern 0 8 ≠ 0)
    (hp : s.cistern.ckptAt + 60 * s.fld oCistern 0 8 ≤ (s.reg oPowered).toNat) :
    exec .checkpointDue s = .next (s.held (s.edgeDo (State.checkpointAt (s.reg oPowered).toNat))) :=
  live_due hin (by simp [hr, hn, hp])

end

/-- A register of the edge is the one that the step of the edge leaves. -/
theorem held_edgeDo_reg (s : State) {f : State → State} (h : (f s).fusing = s.fusing) (o : Nat) :
    (s.held (s.edgeDo f)).reg o = (f s).reg o := State.held_reg s h o

/-! ## The leak (R372) -/

/-- A reading that one step of a fold changes, and no other, is changed once. -/
theorem foldSt_changes_once {γ : Type} {obs : State → γ} {g : γ → γ} {f : State → Nat → State} {j : Nat}
    (hj : ∀ u, obs (f u j) = g (obs u)) (ho : ∀ u k, k ≠ j → obs (f u k) = obs u) {l : List Nat} (hn : l.Nodup) (hm : j ∈ l) (s : State) :
    obs (foldSt l f s) = g (obs s) := by
  induction l generalizing s with
  | nil => exact absurd hm List.not_mem_nil
  | cons k l ih =>
    obtain ⟨hk, hn⟩ := List.nodup_cons.mp hn
    rw [foldSt_cons]
    rcases List.mem_cons.mp hm with rfl | hm
    · have hrest : obs (foldSt l f (f s j)) = obs (f s j) := foldl_keeps (P := fun u => obs u = obs (f s j)) l rfl fun u i hi hu =>
        (ho u i (ne_of_mem_of_not_mem hi hk)).trans hu
      rw [hrest, hj]
    · rw [ih hn hm, ho s k (ne_of_mem_of_not_mem hm hk).symm]

/-- A bank's level one lower, with no uncorrectable errors counted in its period. -/
def State.lowered (s : State) (k b : Nat) : State :=
  (s.setFld (oSl k (0x200 + 8 * b)) 0 8 (s.fld (oSl k (0x200 + 8 * b)) 0 8 - 1)).setFld (oSl k (0x200 + 8 * b)) 40 3 0

/-- Beside the level a leak at most arms the bank again. -/
theorem leak_form (s : State) (k b : Nat) :
    s.leak k b = s.lowered k b ∨ s.leak k b = (s.lowered k b).setFld (oSl k (0x200 + 8 * b)) 8 1 1 := by
  unfold State.leak
  dsimp only
  split
  · exact .inr rfl
  · exact .inl rfl

theorem leak_same (s : State) (k b : Nat) : s.SameButRegs (s.leak k b) := by
  have hl : s.SameButRegs (s.lowered k b) := (setFld_same _ _ _ _ _).trans (setFld_same _ _ _ _ _)
  rcases leak_form s k b with h | h
  · rw [h]; exact hl
  · rw [h]; exact hl.trans (setFld_same _ _ _ _ _)

theorem lowered_level (s : State) (k b : Nat) :
    (s.lowered k b).fld (oSl k (0x200 + 8 * b)) 0 8 = s.fld (oSl k (0x200 + 8 * b)) 0 8 - 1 := by
  have hlt := fld_lt s (oSl k (0x200 + 8 * b)) 0 8
  rw [State.lowered, fld_setFld_apart _ _ _ _ _ _ _ (.inr (by decide)), fld_setFld_same _ _ _ _ _ (by decide)]
  exact Nat.mod_eq_of_lt (by omega)

theorem leak_level (s : State) (k b : Nat) :
    (s.leak k b).fld (oSl k (0x200 + 8 * b)) 0 8 = s.fld (oSl k (0x200 + 8 * b)) 0 8 - 1 := by
  rcases leak_form s k b with h | h
  · rw [h, lowered_level]
  · rw [h, fld_setFld_apart _ _ _ _ _ _ _ (.inr (by decide)), lowered_level]

theorem leak_reg_other (s : State) {k b o : Nat} (ho : o ≠ oSl k (0x200 + 8 * b)) : (s.leak k b).reg o = s.reg o := by
  have hl : (s.lowered k b).reg o = s.reg o := (reg_setFld_other _ _ _ _ ho).trans (reg_setFld_other _ _ _ _ ho)
  rcases leak_form s k b with h | h
  · rw [h, hl]
  · rw [h, reg_setFld_other _ _ _ _ ho, hl]

/-- The levels of a slice's banks leak, and the slice forgets the errors of the period. -/
def State.leakSlice (s : State) (k : Nat) : State :=
  (foldSt (List.range 16) (fun s b => s.leak k b) s).updSl k fun sl => { sl with ucSets := [], jrecErrs := [] }

theorem leakAll_eq (s : State) : s.leakAll = foldSt (List.range s.nSlices) State.leakSlice { s with leakAt := s.frame } := rfl

theorem leakSlice_same (s : State) (k : Nat) : s.SameButSlices (s.leakSlice k) :=
  .trans (foldSt_keeps (P := s.SameButSlices) (fun u b hu => hu.trans (leak_same u k b).slices) _ (.refl s)) ⟨_, _, _, rfl⟩

theorem leakAll_same (s : State) : State.SameButSlices { s with leakAt := s.frame } s.leakAll := by
  rw [leakAll_eq]
  exact foldSt_keeps (P := State.SameButSlices _) (fun u k hu => hu.trans (leakSlice_same u k)) _ (.refl _)

theorem leakSlice_sl_other (s : State) {k j : Nat} (hj : j ≠ k) : (s.leakSlice k).sl j = s.sl j := by
  rw [State.leakSlice, State.updSl_sl_other _ hj]
  refine foldSt_keeps (P := fun u => u.sl j = s.sl j) (fun u b hu => ?_) _ rfl
  obtain ⟨r, m, h⟩ := leak_same u k b
  rw [h]
  exact hu

theorem leakAll_forgets (s : State) {k : Nat} (hk : k < s.nSlices) : (s.leakAll.sl k).ucSets = [] ∧ (s.leakAll.sl k).jrecErrs = [] := by
  rw [leakAll_eq, ← Prod.mk.injEq]
  exact foldSt_changes_once (obs := fun u => ((u.sl k).ucSets, (u.sl k).jrecErrs)) (g := fun _ => ([], []))
    (fun u => by rw [State.leakSlice, State.updSl_sl_same]) (fun u i hi => by rw [leakSlice_sl_other u hi.symm]) List.nodup_range
    (List.mem_range.mpr hk) _

theorem leakSlice_level (s : State) (k : Nat) {b : Nat} (hb : b < 16) :
    (s.leakSlice k).fld (oSl k (0x200 + 8 * b)) 0 8 = s.fld (oSl k (0x200 + 8 * b)) 0 8 - 1 := by
  rw [State.leakSlice, State.updSl_fld]
  refine foldSt_changes_once (obs := fun u => u.fld (oSl k (0x200 + 8 * b)) 0 8) (g := (· - 1)) (fun u => leak_level u k b) (fun u c hc => ?_)
    List.nodup_range (List.mem_range.mpr hb) s
  exact fld_congr (leak_reg_other u (by simp only [oSl]; omega)) 0 8

theorem leakSlice_reg_other (s : State) {k o : Nat} (ho : ∀ b, b < 16 → o ≠ oSl k (0x200 + 8 * b)) : (s.leakSlice k).reg o = s.reg o := by
  rw [State.leakSlice, State.updSl_reg]
  exact foldl_keeps (P := fun u => u.reg o = s.reg o) _ rfl fun u b hb hu => (leak_reg_other u (ho b (List.mem_range.mp hb))).trans hu

theorem leakAll_level (s : State) {k b : Nat} (hk : k < s.nSlices) (hb : b < 16) :
    s.leakAll.fld (oSl k (0x200 + 8 * b)) 0 8 = s.fld (oSl k (0x200 + 8 * b)) 0 8 - 1 := by
  rw [leakAll_eq]
  exact foldSt_changes_once (obs := fun u => u.fld (oSl k (0x200 + 8 * b)) 0 8) (g := (· - 1)) (fun u => leakSlice_level u k hb)
    (fun u i hi => fld_congr (leakSlice_reg_other u fun c hc => by simp only [oSl]; omega) 0 8) List.nodup_range (List.mem_range.mpr hk) _

/-! ## The second (R553, R563) -/

/-- CALENDAR a second later: its count rises while VALID is 1. -/
def calendarNext (r : Reg) : Reg := if r.getLsbD 63 then setBits r 0 63 (bits r 0 63 + 1) else r

theorem calendarTick_seeded {s : State} {old m : Reg} (h : s.cistern.seededAt = some (s.frame, old, m)) :
    s.calendarTick = (calendarNext old &&& ~~~m) ||| (s.reg oCalendar &&& m) := by
  unfold State.calendarTick
  rw [h]
  exact if_pos rfl

theorem calendarTick_unseeded {s : State} (h : ∀ old m, s.cistern.seededAt ≠ some (s.frame, old, m)) :
    s.calendarTick = calendarNext (s.reg oCalendar) := by
  unfold State.calendarTick
  dsimp only
  split
  next f old m hf =>
    rw [if_neg fun e : f = s.frame => h old m (e ▸ hf)]
    rfl
  next => rfl

theorem hotNow_congr {s t : State} (hn : t.nSlices = s.nSlices) (h : ∀ k, t.reg (oSl k 0x48) = s.reg (oSl k 0x48)) : t.hotNow = s.hotNow := by
  unfold State.hotNow
  rw [hn]
  simp only [h]

/-- POWERED and CALENDAR a second later. -/
def State.clocked (s : State) : State :=
  (State.setReg { s with secondAt := s.frame } oPowered (s.reg oPowered + 1)).setReg oCalendar s.calendarTick

theorem clocked_reg_other (s : State) {o : Nat} (hp : o ≠ oPowered) (hc : o ≠ oCalendar) : s.clocked.reg o = s.reg o :=
  (reg_setReg_other _ _ hc).trans (reg_setReg_other _ _ hp)

theorem clocked_powered (s : State) : s.clocked.reg oPowered = s.reg oPowered + 1 :=
  (reg_setReg_other _ _ (by decide)).trans (reg_setReg_same _ _ _)

theorem clocked_calendar (s : State) : s.clocked.reg oCalendar = s.calendarTick := reg_setReg_same _ _ _

/-- Setting POWERED and CALENDAR bears on no temperature and not on HOT. -/
theorem secondTick_eq (s : State) : s.secondTick =
    if s.hotNow then s.clocked.setFld oHot 0 32 ((s.fld oHot 0 32 + 1) % 2 ^ 32) else s.clocked := by
  have hh : s.clocked.hotNow = s.hotNow :=
    hotNow_congr rfl fun k => clocked_reg_other s (by simp only [oSl, oPowered]; omega) (by simp only [oSl, oCalendar]; omega)
  rw [← hh, ← fld_congr (clocked_reg_other s (o := oHot) (by decide) (by decide)) 0 32]
  rfl

theorem secondTick_same (s : State) : State.SameButRegs { s with secondAt := s.frame } s.secondTick := by
  rw [secondTick_eq]
  split
  · exact ⟨_, _, rfl⟩
  · exact ⟨_, _, rfl⟩

theorem secondTick_reg (s : State) {o : Nat} (ho : o ≠ oHot) : s.secondTick.reg o = s.clocked.reg o := by
  rw [secondTick_eq]
  split
  · exact reg_setFld_other _ _ _ _ ho
  · rfl

theorem secondTick_hot (s : State) : s.secondTick.fld oHot 0 32 = if s.hotNow then (s.fld oHot 0 32 + 1) % 2 ^ 32 else s.fld oHot 0 32 := by
  rw [secondTick_eq]
  split
  · rw [fld_setFld_same _ _ _ _ _ (by decide), Nat.mod_mod]
  · exact fld_congr (clocked_reg_other s (by decide) (by decide)) 0 32

/-! ## The timers -/

/-- Settles O34: each command is due, so it makes the change of its edge; the leak reaches every bank of every slice once. -/
theorem timersAtAnEdge : Obligations.TimersAtAnEdge := by
  refine ⟨fun s hin hf ha => ⟨exec_meterRefill hin (by simp [State.refillDue, hf, ha]), weirEdge_refilled s⟩,
    fun s e t h => ?_, fun s hin hf ha => ?_, fun s hin hf ha => ?_, fun s hin hr hn hp => ?_⟩
  · rw [refill_on h]
    obtain ⟨hc, hp⟩ := setBuckets_same s e t (min (s.cBucket e t + (s.meter t).1) (s.meter t).2.2.1)
      (min (s.pBucket e t + (s.meter t).2.1) (s.meter t).2.2.2)
    exact ⟨hc, hp, fun u hu => setBuckets_other s e hu _ _⟩
  · obtain ⟨r, m, x, hx⟩ := leakAll_same s
    have hfu : s.leakAll.fusing = s.fusing := by rw [hx]
    have hat : s.leakAll.leakAt = s.frame := by rw [hx]
    exact ⟨_, exec_leakEdge hin hf ha, hat, fun k hk => leakAll_forgets s hk, fun k b hk hb =>
      (fld_congr (held_edgeDo_reg s hfu _) 0 8).trans (leakAll_level s hk hb)⟩
  · obtain ⟨r, m, hx⟩ := secondTick_same s
    have hfu : s.secondTick.fusing = s.fusing := by rw [hx]
    have hat : s.secondTick.secondAt = s.frame := by rw [hx]
    have hreg (o : Nat) : (s.held (s.edgeDo State.secondTick)).reg o = s.secondTick.reg o := held_edgeDo_reg s hfu o
    have hcal : (s.held (s.edgeDo State.secondTick)).reg oCalendar = s.calendarTick :=
      ((hreg _).trans (secondTick_reg s (by decide))).trans (clocked_calendar s)
    exact ⟨_, exec_secondTick hin hf ha, ((hreg _).trans (secondTick_reg s (by decide))).trans (clocked_powered s), hat,
      (fld_congr (hreg oHot) 0 32).trans (secondTick_hot s), fun old m h => hcal.trans (calendarTick_seeded h),
      fun h => hcal.trans (calendarTick_unseeded h),
      fun o hp hc hh => ((hreg o).trans (secondTick_reg s hh)).trans (clocked_reg_other s hp hc)⟩
  · obtain ⟨hdue, hat⟩ := checkpointAt_due (s.reg oPowered).toNat s
    exact ⟨_, exec_checkpointDue hin hr hn hp, hdue, (flag_congr (held_edgeDo_reg s rfl _) _).trans (checkpointAt_flag _ s), hat⟩

end Sys2Proof.Machine
end

section
/-! SUPPORT. The statements about atomics, about what ends by itself, and about streams and fences: the operations of the ALU, the expiries of
a run, of a watch entry and of a counter, and the tracker of a hub with the notices that it sends. -/

namespace Sys2Proof.Machine

/-! ## The operations of the ALU (R298) -/

section
variable {w : Nat} (m p : BitVec w)

/-- A field that a word holds is read back from it. -/
theorem setWidth_widened (hw : w ≤ 64) : (m.setWidth 64).setWidth w = m := by
  rw [BitVec.setWidth_setWidth_of_le _ hw, BitVec.setWidth_eq]

theorem toInt_ite_slt_min : (if m.slt p then m else p).toInt = min m.toInt p.toInt := by
  simp only [apply_ite BitVec.toInt, BitVec.slt_iff_toInt_lt, min_def_lt]

theorem toInt_ite_slt_max : (if m.slt p then p else m).toInt = max m.toInt p.toInt := by
  simp only [apply_ite BitVec.toInt, BitVec.slt_iff_toInt_lt, max_def_lt]

theorem toNat_ite_ult_min : (if m.ult p then m else p).toNat = min m.toNat p.toNat := by
  simp only [apply_ite BitVec.toNat, BitVec.ult_iff_lt, BitVec.lt_def, min_def_lt]

theorem toNat_ite_ult_max : (if m.ult p then p else m).toNat = max m.toNat p.toNat := by
  simp only [apply_ite BitVec.toNat, BitVec.ult_iff_lt, BitVec.lt_def, max_def_lt]

end

/-- Settles O18: an operation works on the two fields, and its result keeps its value in a word of 64 bits, for the field is no wider. -/
theorem atomicResults : Obligations.AtomicResults := by
  intro w v o x hw m p
  have hw : w ≤ 64 := by omega
  refine ⟨?_, rfl, rfl, rfl, rfl, rfl, ?_, ?_, ?_, ?_⟩
  · exact (BitVec.toNat_setWidth_of_le hw).trans (BitVec.toNat_add m p)
  · exact (congrArg BitVec.toInt (setWidth_widened _ hw)).trans (toInt_ite_slt_min m p)
  · exact (congrArg BitVec.toInt (setWidth_widened _ hw)).trans (toInt_ite_slt_max m p)
  · exact (BitVec.toNat_setWidth_of_le hw).trans (toNat_ite_ult_min m p)
  · exact (BitVec.toNat_setWidth_of_le hw).trans (toNat_ite_ult_max m p)

/-! ## What ends by itself (R310, R319, R545) -/

theorem nSlices_le (s : State) : s.nSlices ≤ 16 := by
  cases h : s.fusing <;> simp [State.nSlices, h]

/-- The event of a wrap takes it out of those to report. -/
theorem wrapEvent_keeps (s : State) (n : Nat) : (s.wrapEvent n).fusing = s.fusing ∧ (s.wrapEvent n).pmc.wraps = s.pmc.wraps.erase n := by
  unfold State.wrapEvent
  dsimp only
  split
  · obtain ⟨r, m, l, e, h⟩ := raise_same { s with pmc := { s.pmc with wraps := s.pmc.wraps.erase n } } 42 0 0
    rw [h]
    exact ⟨rfl, rfl⟩
  · obtain ⟨r, m, x, h⟩ := raiseSl_same { s with pmc := { s.pmc with wraps := s.pmc.wraps.erase n } } (n / 8) 43 (n % 8) 0
    rw [h]
    exact ⟨rfl, rfl⟩

theorem wrapEvent_flag_slice (s : State) {n : Nat} (h : n ≠ 128) : (s.wrapEvent n).flag (oSl (n / 8) 0xA8) 43 = true := by
  rw [State.wrapEvent, if_neg h]
  exact raiseSl_flag _ _ _ _ (by decide)

theorem wrapEvent_flag_cycles (s : State) : (s.wrapEvent 128).flag (oEvtPend 0) 42 = true := raise_flag _ 42 _ _

theorem exec_pmcWrap {s : State} {n : Nat} (hin : s.inReset = false) (hn : n = 128 ∨ n < 8 * s.nSlices) (hw : n ∈ s.pmc.wraps) :
    exec (.pmcWrap n) s = .next (s.held (s.wrapEvent n)) :=
  row_due hin (by simpa using hn) (by simpa using hw)

/-- A counter that wraps is to be reported, and its OVF is set (R545). -/
theorem wrapped_keeps (s : State) (n o : Nat) : (s.wrapped n o).flag o 48 = true ∧ (s.wrapped n o).fld o 0 48 = s.fld o 0 48 ∧
    (s.wrapped n o).pmc.wraps = s.pmc.wraps ++ [n] :=
  ⟨flag_setFlag_same _ _ _ _ (by decide), fld_setFlag_apart _ _ _ _ _ _ (by omega), rfl⟩

section
variable {s : State} (hc : s.flag oPmcCtl 0 = false)
include hc

theorem cycleEdge_counts (h : s.fld oCycles 0 48 + 32 < 2 ^ 48) :
    s.cycleEdge = s.setFld oCycles 0 48 ((s.fld oCycles 0 48 + 32) % 2 ^ 48) := by
  rw [State.cycleEdge, if_neg (by simp [hc])]
  exact if_neg (Nat.not_le.mpr h)

theorem cycleEdge_wraps (h : 2 ^ 48 ≤ s.fld oCycles 0 48 + 32) :
    s.cycleEdge = (s.setFld oCycles 0 48 ((s.fld oCycles 0 48 + 32) % 2 ^ 48)).wrapped 128 oCycles := by
  rw [State.cycleEdge, if_neg (by simp [hc])]
  exact if_pos h

end

/-- Settles O36: each row is due, and the counter of cycles wraps exactly when 32 more than it held do not fit. -/
theorem expiriesOfTables : Obligations.ExpiriesOfTables := by
  refine ⟨fun s a hin ha ha' hg => ?_, fun s h p e hin hh hp hf he => ?_, fun s n hin hn hw => ?_, fun s hin hw => ?_, fun s hc => ?_⟩
  · exact row_due hin (by simp [ha, ha']) (decide_eq_true hg)
  · change execWatchEntryExpiry h p s = _
    simp only [execWatchEntryExpiry, hf]
    exact row_due hin (by simp [hh, hp]) (decide_eq_true he)
  · have hne : n ≠ 128 := fun h => absurd (nSlices_le s) (by omega)
    obtain ⟨hfu, hwr⟩ := wrapEvent_keeps s n
    exact ⟨_, exec_pmcWrap hin (.inr hn) hw, hwr, (State.held_flag _ hfu _ _).trans (wrapEvent_flag_slice s hne)⟩
  · obtain ⟨hfu, hwr⟩ := wrapEvent_keeps s 128
    exact ⟨_, exec_pmcWrap hin (.inl rfl) hw, hwr, (State.held_flag _ hfu _ _).trans (wrapEvent_flag_cycles s)⟩
  · have hcount := (fld_setFld_same s oCycles 0 48 ((s.fld oCycles 0 48 + 32) % 2 ^ 48) (by decide)).trans (Nat.mod_mod _ _)
    rcases Nat.lt_or_ge (s.fld oCycles 0 48 + 32) (2 ^ 48) with hlt | hge
    · rw [cycleEdge_counts hc hlt]
      exact ⟨hcount, fun _ => ⟨flag_setFld_apart _ _ _ _ _ _ (by omega), rfl⟩, fun h => absurd hlt (Nat.not_lt.mpr h)⟩
    · rw [cycleEdge_wraps hc hge]
      obtain ⟨hflag, hfld, hwr⟩ := wrapped_keeps (s.setFld oCycles 0 48 ((s.fld oCycles 0 48 + 32) % 2 ^ 48)) 128 oCycles
      exact ⟨hfld.trans hcount, fun h => absurd hge (Nat.not_le.mpr h), fun _ => ⟨hflag, hwr⟩⟩

/-! ## The streams of a tracker (R326, R327) -/

theorem Tracker.req_of_stream {k : Tracker} {r : Nat} {x : Stream} (h : k.stream r = some x) : x.req = r := by
  simpa using List.find?_some h

/-- A stream stored in place of its requester's is read back. -/
theorem Tracker.stream_setStream {k : Tracker} {r : Nat} {x y : Stream} (h : k.stream r = some y) (hx : x.req = r) :
    (k.setStream x).stream r = some x := by
  have hy : y.req = x.req := (Tracker.req_of_stream h).trans hx.symm
  have hany : (k.streams.any fun z => z.req == x.req) = true := List.any_eq_true.mpr ⟨y, List.mem_of_find?_eq_some h, by simp [hy]⟩
  have hreq (z : Stream) : ((if z.req = x.req then x else z).req == r) = (z.req == r) := by
    split
    · simp [*]
    · rfl
  have hfind : k.streams.find? (fun z => z.req == r) = some y := h
  rw [Tracker.setStream, if_pos hany, Tracker.stream, List.find?_map]
  simp [hreq, hfind, hy]

theorem trackWrite_next {s : State} {r : Req} {x : Stream} (hx : (s.hub (hubOf r.lane)).stream r.src = some x) (hn : r.seq = x.next)
    (hl : x.inflight.length < 1024) : s.trackWrite r = s.acceptWrite x r := by
  simp [State.trackWrite, hx, hn, hl]

theorem acceptWrite_homed {s : State} (x : Stream) {r : Req} (hu : s.unhomed r = false) :
    s.acceptWrite x r = (s.setHub (hubOf r.lane) ((s.hub (hubOf r.lane)).setStream (x.accept r.seq))).inject r := by
  simp [State.acceptWrite, hu]

/-- A homed write that continues its stream is accepted and injected (R327). -/
theorem offerRequest_wrStream {s : State} {r : Req} {x : Stream} (ho : r.op = .wrStream) (hx : (s.hub (hubOf r.lane)).stream r.src = some x)
    (hn : r.seq = x.next) (hl : x.inflight.length < 1024) (hu : s.unhomed r = false)
    (hp : s.PoolFree r.lane (s.homeOf r) (decide (r.cls = 0))) :
    s.offerRequest r = ((s.setHub (hubOf r.lane) ((s.hub (hubOf r.lane)).setStream (x.accept r.seq))).addCredit r.lane (s.homeOf r)
      (decide (r.cls = 0)) (-1)).injectReq { dest := s.phys (s.homeOf r), home := s.homeOf r, req := r } := by
  have ht : s.offerRequest r = s.trackWrite r := by
    simp [State.offerRequest, State.takeRequest, ho, hu, queueFull_of_poolFree hp]
  rw [ht, trackWrite_next hx hn hl, acceptWrite_homed x hu]
  exact inject_of_poolFree (s := s.setHub _ _) hp

/-- A fence of a requester without a stream is injected as clear (R332). -/
theorem offerRequest_fence {s : State} {r : Req} (ho : r.op = .fence) (hx : (s.hub (hubOf r.lane)).stream r.src = none)
    (hp : s.PoolFree r.lane (s.homeOf r) (decide (r.cls = 0))) :
    s.offerRequest r = (s.addCredit r.lane (s.homeOf r) (decide (r.cls = 0)) (-1)).injectReq
      { dest := s.phys (s.homeOf r), home := s.homeOf r, req := { r with clear := true } } := by
  have ht : s.offerRequest r = s.inject { r with clear := true } := by
    simp [State.offerRequest, State.takeRequest, State.trackFence, ho, hx, queueFull_of_poolFree hp]
  rw [ht]
  exact inject_of_poolFree (r := { r with clear := true }) hp

/-! ## The notices of posted writes and of fences (R329, R331, R333) -/

/-- A release is noted in the tracker alone. -/
theorem released_form (s : State) (h r : Nat) (q : BitVec 16) (f : Nat) : ∃ k, s.released h r q f = { s with hubs := k } := by
  unfold State.released
  dsimp only
  split
  · exact ⟨_, rfl⟩
  · exact ⟨_, rfl⟩

@[simp] theorem released_txn (s : State) (h r : Nat) (q : BitVec 16) (f k t : Nat) : (s.released h r q f).txn k t = s.txn k t := by
  obtain ⟨l, e⟩ := released_form s h r q f; rw [e]; rfl

/-- A write that waits for its order alone completes with its record (R331). -/
theorem endWrite_complete {v u : State} {k t : Nat} (hst : (v.txn k t).st = .orderwait) (hc : (v.txn k t).cmpSent = false)
    (hs : (v.txn k t).waitStage = false) (hw : (v.txn k t).waitWbuf = false) (hr : v.recordDone k t = (true, u)) :
    v.endWrite k t = u.complete k t 0 false := by
  simp [State.endWrite, hst, hc, hs, hw, hr]

section
variable {s : State} {k t : Nat} (hin : s.inReset = false) (hk : k < s.nSlices) (ht : t < 1024) (hh : (s.txn k t).home = none)
  (hd : (s.txn k t).dAt < s.frame)
include hin hk ht hh hd

theorem exec_streamReadyReport (hst : (s.txn k t).st = .orderwait) (ho : (s.txn k t).req.op = .wrStream) (hn : (s.txn k t).noticed = false) :
    exec (.streamReadyReport k t) s =
      .next (s.held (s.takeReady (hubOf (s.txn k t).req.lane) (s.txn k t).req.src (s.txn k t).req.seq)) :=
  row_due hin (by simp [hk, ht]) (by simp [hh, hd, hst, ho, hn])

theorem exec_streamReleaseNotice (ho : (s.txn k t).req.op = .wrStream) (hn : (s.txn k t).noticed = true) (hc : (s.txn k t).cmpSent = false)
    (hop : s.tagOpen k t = true) : exec (.streamReleaseNotice k t) s = .next (s.held (s.recordedFor k t
      ((s.released (hubOf (s.txn k t).req.lane) (s.txn k t).req.src (s.txn k t).req.seq s.frame).endWrite k t))) :=
  row_due hin (by simp [hk, ht]) (by simp [hh, hd, ho, hn, hc, hop])

theorem exec_fenceNotice (hst : (s.txn k t).st = .orderwait) (ho : (s.txn k t).req.op = .fence) (hn : (s.txn k t).noticed = true)
    (hc : (s.txn k t).cmpSent = false) (hop : s.tagOpen k t = true) :
    exec (.fenceNotice k t) s = .next (s.held (s.recordedFor k t (s.complete k t 0 false))) :=
  row_due hin (by simp [hk, ht]) (by simp [hh, hd, hst, ho, hn, hc, hop])

end

/-- Settles O39: a request that passes its port reaches the tracker, and the notices that are due act on their transactions. -/
theorem streamsAndFences : Obligations.StreamsAndFences := by
  refine ⟨fun s a x he => ?_, fun s a he => ?_, fun s k t hin hk ht hh hd => ⟨?_, ?_, ?_⟩⟩
  · intro r h c0 hx hn hl hu hp
    have hex := he.exec_row (by decide)
    rw [offerRequest_wrStream (r := r) rfl hx hn hl hu hp] at hex
    refine ⟨_, hex, rfl, ?_, rfl, rfl, rfl⟩
    have hreq : x.req = r.src := Tracker.req_of_stream hx
    exact (congrArg (Tracker.stream · r.src) (State.setHub_hub_same s _ _)).trans (Tracker.stream_setStream hx hreq)
  · intro r h c0 hx hp
    have hex := he.exec_row (by decide)
    rw [offerRequest_fence (r := r) rfl hx hp] at hex
    exact ⟨_, hex, rfl, rfl, rfl, rfl, rfl⟩
  · exact exec_streamReadyReport hin hk ht hh hd
  · intro ho hn hc hop v
    have hex := exec_streamReleaseNotice hin hk ht hh hd ho hn hc hop
    refine ⟨hex, fun hf => hex.trans (congrArg _ (congrArg _ (recordedFor_of_fits hf))), fun u hst hs hw hr => ?_⟩
    have hv : v.txn k t = s.txn k t := released_txn _ _ _ _ _ _ _
    exact endWrite_complete (hv ▸ hst) (hv ▸ hc) (hv ▸ hs) (hv ▸ hw) hr
  · exact exec_fenceNotice hin hk ht hh hd

end Sys2Proof.Machine
end

section
/-! SUPPORT. The statement about pins: what a pin's row notes for the edge, the grants that the block drives, and the retirements at the edge. -/

namespace Sys2Proof.Machine

/-! ## A pin that is sampled (R345, R431, R443, R450) -/

/-- A row that names a part that exists and whose event has no condition. -/
theorem row_next {s t : State} {g : Bool} (hin : s.inReset = false) (hg : g = true) : live s (need g (.next t)) = .next (s.held t) := by
  rw [need_of hg, live_next hin]

theorem getLsbD_setBits_one {n : Nat} (x : BitVec n) {i : Nat} (h : i < n) : (setBits x i 1 1).getLsbD i = true := by
  rw [getLsbD_setBits _ _ _ _ _ h]
  simp

/-- The memory ports that are to fail at the edge, with one that has gone down: in service it is among them unless it has failed (R345). -/
def State.downDueWith (s : State) (p : Nat) : List Nat :=
  if s.ready && !s.memFailed.getLsbD p && !s.memDownDue.contains p then s.memDownDue ++ [p] else s.memDownDue

theorem mem_downDueWith {s : State} {p : Nat} (hr : s.ready = true) (hm : s.memFailed.getLsbD p = false) : p ∈ s.downDueWith p := by
  by_cases h : p ∈ s.memDownDue <;> simp [State.downDueWith, hr, hm, h]

section
variable {s : State} (hin : s.inReset = false)
include hin

theorem exec_memoryPortDown {p : Nat} (hp : p < 12) :
    exec (.memoryPortDown p) s = .next { s.setFlag oFill (40 + p) false with memDownDue := s.downDueWith p } := by
  have hx : exec (.memoryPortDown p) s = .next (s.held (if s.ready && !s.memFailed.getLsbD p && !s.memDownDue.contains p
      then { s.setFlag oFill (40 + p) false with memDownDue := s.memDownDue ++ [p] } else s.setFlag oFill (40 + p) false)) := by
    change execMemoryPortDown p s = _
    simp only [execMemoryPortDown, State.inService, State.setFlag_inReset, hin, State.setFlag_ready, State.setFlag_memFailed,
      State.setFlag_memDownDue, Bool.not_false, Bool.true_and]
    exact row_next hin (decide_eq_true hp)
  rw [hx, State.downDueWith]
  split <;> exact congrArg _ (s.held_eq (by simp) (by simp) (by simp) (by simp) (by simp))

/-- HP_SURPRISE is noted, and for an open sluice a loss is due (R431). -/
theorem exec_hpSurprise {a : Nat} (ha : 16 ≤ a) (ha' : a < 24) :
    ∃ t, exec (.hpSurprise a) s = .next t ∧ t.hpSurprise = setBits s.hpSurprise (a - 16) 1 1 ∧ t.regs = s.regs ∧
      (s.sluice a = true → 4 ∈ (t.ag a).lossDue) := by
  let n : State := { s with hpSurprise := setBits s.hpSurprise (a - 16) 1 1 }
  have hx : exec (.hpSurprise a) s = .next (s.held (if s.sluice a then n.lossCause a 4 else n)) := row_next hin (by simp [ha, ha'])
  refine ⟨_, hx, ?_⟩
  cases s.sluice a with
  | true => exact ⟨rfl, rfl, fun _ => lossCause_mem n a 4⟩
  | false => exact ⟨rfl, rfl, fun h => nomatch h⟩

/-- HP_RETIRE_REQ is noted, and an agent in service begins to retire (R450). -/
theorem exec_hpRetireReq {a : Nat} (ha : 16 ≤ a) (ha' : a < 24) :
    ∃ t, exec (.hpRetireReq a) s = .next t ∧ t.hpRetireReq = setBits s.hpRetireReq (a - 16) 1 1 ∧
      (s.ready = true → s.agSt a = agService → t.agSt a = agRetiring) ∧ (∀ o, o ≠ oAg a 0x18 → t.reg o = s.reg o) := by
  let n : State := { s with hpRetireReq := setBits s.hpRetireReq (a - 16) 1 1 }
  have hx : exec (.hpRetireReq a) s = .next (s.held
      (if s.inService && s.agSt a = agService then (n.setAgSt a agRetiring).updAg a fun g => { g with retire := .drain } else n)) :=
    row_next hin (by simp [ha, ha'])
  refine ⟨_, hx, ?_⟩
  by_cases hs : (s.inService && s.agSt a = agService) = true
  · rw [if_pos hs]
    obtain ⟨r, m, hn⟩ := setAgSt_same n a agRetiring
    have hreg (o : Nat) : (s.held ((n.setAgSt a agRetiring).updAg a fun g => { g with retire := .drain })).reg o = (n.setAgSt a agRetiring).reg o :=
      s.held_reg (by rw [State.updAg_fusing, hn]) o
    refine ⟨by rw [State.held_hpRetireReq, State.updAg_hpRetireReq, hn], fun _ _ => ?_, fun o ho => ?_⟩
    · rw [agSt_congr (hreg _), agSt_setAgSt _ _ _ (by decide)]
    · exact (hreg o).trans (reg_setAgSt_other n agRetiring ho)
  · rw [if_neg hs]
    exact ⟨rfl, fun hr hst => absurd (by simp [State.inService, hin, hr, hst]) hs, fun _ _ => rfl⟩

/-! ## The grants (R441, R450) -/

theorem exec_sleepGrantRise {a f : Nat} (ha : a < 16) (hg : (s.ag a).sleepGo = some f) (hf : f < s.frame) (hst : s.agSt a = agSleeping)
    (he : s.egress a = false) (hp : s.pmSleepReq.getLsbD a = true) :
    exec (.sleepGrantRise a) s = .next ({ s with pmGrant := setBits s.pmGrant a 1 1 }.updAg a fun g => { g with sleepGo := none }) := by
  change execSleepGrantRise a s = _
  simp only [execSleepGrantRise, hg]
  exact row_due hin (decide_eq_true ha) (by simp [hf, hst, he, hp])

theorem exec_hpPermitRise {a : Nat} (ha : 16 ≤ a) (ha' : a < 24) (hst : s.agSt a = agRetired) (hr : (s.ag a).retire = .closed)
    (hp : s.hpRetireReq.getLsbD (a - 16) = true) (he : s.egress a = false) :
    exec (.hpPermitRise a) s =
      .next ({ s with hpPermit := setBits s.hpPermit (a - 16) 1 1 }.updAg a fun g => { g with retire := .none, permitDue := false }) :=
  row_due hin (by simp [ha, ha']) (by simp [hst, hr, hp, he])

/-! ## The steps of a retirement (R450) -/

theorem exec_retireRequestsDrained {a : Nat} (ha : 16 ≤ a) (ha' : a < 24) (hst : s.agSt a = agRetiring) (hr : (s.ag a).retire = .drain)
    (hc : (s.ag a).intakeClosed = true) (hh : s.holdsReq a (fun r => !r.evict) = false) :
    exec (.retireRequestsDrained a) s = .next (s.held ((s.updAg a fun g => { g with retire := .walk }).startWalk a)) :=
  row_due hin (by simp [ha, ha']) (by simp [hst, hr, hc, hh])

theorem exec_retireSluiceClose {a : Nat} (ha : 16 ≤ a) (ha' : a < 24) (hst : s.agSt a = agRetiring)
    (hr : (s.ag a).retire = .walk ∨ (s.ag a).retire = .evictions) :
    exec (.retireSluiceClose a) s = .next (s.updAg a fun g => { g with retire := .closed }) :=
  row_due hin (by simp [ha, ha']) (by simp [hst, hr])

end

/-- The walks of an agent write LZ_WALK and registers of slices (R446). -/
theorem startWalk_reg (s : State) (a : Nat) {o : Nat} (ho : o < 0x100000) (hw : o ≠ oWalk) : (s.startWalk a).reg o = s.reg o := by
  rw [State.startWalk, foldSt_maintAdd_reg _ _ _ ho, reg_setFlag_other _ _ _ hw]

theorem startWalk_agSt (s : State) {a : Nat} (ha : a < 24) : (s.startWalk a).agSt a = s.agSt a :=
  agSt_congr (startWalk_reg s a (by simp only [oAg]; omega) (by simp only [oAg, oWalk]; omega))

section
variable {s : State} {a : Nat}

/-- The pin of an agent in service begins its retirement at the edge. -/
theorem retireEdge_begins (hin : s.inService = true) (hst : s.agSt a = agService) (hp : s.hpRetireReq.getLsbD (a - 16) = true) :
    s.retireEdge a = (s.setAgSt a agRetiring).updAg a fun g => { g with retire := .drain } :=
  if_pos (by simp [hin, hst, hp])

variable (hst : s.agSt a = agRetiring)
include hst

/-- At the edge of a retiring agent the pin decides first whether the retirement ends. -/
theorem retireEdge_cancelled (hp : s.hpRetireReq.getLsbD (a - 16) = false) :
    s.retireEdge a = (s.setAgSt a agService).updAg a fun g => { g with retire := .none, intakeClosed := false } := by
  simp [State.retireEdge, hst, hp]

theorem retireEdge_drain (hp : s.hpRetireReq.getLsbD (a - 16) = true) (hr : (s.ag a).retire = .drain) :
    s.retireEdge a = if (s.ag a).intakeClosed then s else s.updAg a fun g => { g with intakeClosed := true } := by
  simp [State.retireEdge, hst, hp, hr, show agRetiring ≠ agService by decide]

theorem retireEdge_closes (hp : s.hpRetireReq.getLsbD (a - 16) = true) (hr : (s.ag a).retire = .closed) (hm : s.mayRetire a = true) :
    s.retireEdge a = (s.setAgSt a agRetired).updAg a fun g => { g with upSince := false } := by
  simp [State.retireEdge, hst, hp, hr, hm, show agRetiring ≠ agService by decide]

/-- A sluice that may not close yet goes back to the walk or to the evictions. -/
theorem retireEdge_waits (hp : s.hpRetireReq.getLsbD (a - 16) = true) (hr : (s.ag a).retire = .closed) (hm : s.mayRetire a = false) :
    s.retireEdge a =
      if s.walking a then s.updAg a fun g => { g with retire := .walk }
      else if s.absent a then s.updAg a fun g => { g with retire := .evictions }
      else (s.updAg a fun g => { g with retire := .walk }).startWalk a := by
  simp [State.retireEdge, hst, hp, hr, hm, show agRetiring ≠ agService by decide]

theorem retireEdge_closed_agSt (ha : a < 24) (hp : s.hpRetireReq.getLsbD (a - 16) = true) (hr : (s.ag a).retire = .closed) :
    (s.retireEdge a).agSt a = if s.mayRetire a then agRetired else agRetiring := by
  cases hm : s.mayRetire a with
  | true =>
    rw [retireEdge_closes hst hp hr hm]
    exact agSt_setAgSt s a agRetired (by decide)
  | false =>
    rw [retireEdge_waits hst hp hr hm]
    split
    · exact hst
    · split
      · exact hst
      · exact (startWalk_agSt _ ha).trans hst

end

/-- Settles O30: each row notes its pin or drives its grant, and the edge takes one branch for each stage of a retirement. -/
theorem pinsAreSampledAndDriven : Obligations.PinsAreSampledAndDriven := by
  refine ⟨⟨fun s p hin hp => ?_, fun s a hin ha ha' => ⟨?_, ?_, ?_, ?_⟩, fun s a hin ha => row_next hin (decide_eq_true ha)⟩,
    fun s a f hin ha hg hf hst he hp => exec_sleepGrantRise hin ha hg hf hst he hp,
    fun s a hin ha ha' hst hr hp he => exec_hpPermitRise hin ha ha' hst hr hp he,
    fun s a hin ha ha' hst hr hc hh => exec_retireRequestsDrained hin ha ha' hst hr hc hh,
    fun s a hin ha ha' hst hr => exec_retireSluiceClose hin ha ha' hst hr,
    fun s a hin _ ha' => ⟨fun hst hp => ?_, fun hst hp => ?_, fun hst hp hr => ?_, fun hst hp hr => retireEdge_closed_agSt hst ha' hp hr⟩⟩
  · exact ⟨_, exec_memoryPortDown hin hp, flag_setFlag_same s oFill (40 + p) false (by omega), fun o ho => reg_setFlag_other s _ _ ho,
      State.setFlag_slices _ _ _ _, mem_downDueWith, State.setFlag_memFailed _ _ _ _⟩
  · obtain ⟨t, hx, hpin, hregs, hloss⟩ := exec_hpSurprise hin ha ha'
    exact ⟨t, hx, hpin ▸ getLsbD_setBits_one _ (by omega), hloss, hregs⟩
  · obtain ⟨t, hx, hpin, hst, hreg⟩ := exec_hpRetireReq hin ha ha'
    exact ⟨t, hx, hpin ▸ getLsbD_setBits_one _ (by omega), hst, hreg⟩
  · exact row_next hin (by simp [ha, ha'])
  · exact row_next hin (by simp [ha, ha'])
  · rw [retireEdge_begins hin hst hp]
    exact ⟨agSt_setAgSt s a agRetiring (by decide), by rw [State.updAg_ag_same]⟩
  · rw [retireEdge_cancelled hst hp]
    exact ⟨agSt_setAgSt s a agService (by decide), by rw [State.updAg_ag_same]⟩
  · rw [retireEdge_drain hst hp hr]
    split
    · assumption
    · rw [State.updAg_ag_same]

end Sys2Proof.Machine
end

section
/-! SUPPORT. The statement about the network and the runnel: lanes that change mode, refused flits, and records that arrive. -/

namespace Sys2Proof.Machine

/-! ## Lanes that change mode (R483) -/

/-- The lanes of a router that are still changing mode once lane `l` has changed. -/
def State.lanesLeft (s : State) (r l : Nat) : List Nat := (tget [] s.routers.changing r).filter fun m => m != l

/-- Lane `l` of router `r` has changed mode. -/
def State.laneChanged (s : State) (r l : Nat) : State :=
  { s with routers := { s.routers with changing := tputD [] r (s.lanesLeft r l) s.routers.changing } }

/-- Lane `l` of router `r` has changed mode; the last one ends the change of the router. -/
def State.laneOver (s : State) (r l n : Nat) : State :=
  if (s.lanesLeft r l).isEmpty then (s.laneChanged r l).bypassDone (r, tget 0 s.routers.changeAt r + n) else s.laneChanged r l

theorem exec_bypassLaneChange {s : State} {r l : Nat} (n : Nat) (hin : s.inReset = false) (hr : r < s.nSlices) (hl : l < 20)
    (hc : (tget [] s.routers.changing r).contains l = true) (he : s.routers.laneEmpty r l = true) :
    exec (.bypassLaneChange r l n) s = .next (s.held (s.laneOver r l n)) := by
  have hne : (tget [] s.routers.changing r).isEmpty = false :=
    List.isEmpty_eq_false_iff.mpr (List.ne_nil_of_mem (List.contains_iff_mem.mp hc))
  have hx : exec (.bypassLaneChange r l n) s = .next (s.held
      ((if (s.lanesLeft r l).isEmpty && !(tget [] s.routers.changing r).isEmpty then [(r, tget 0 s.routers.changeAt r + n)] else []).foldl
        State.bypassDone (s.laneChanged r l))) :=
    row_due hin (by simp [hr, hl]) (by simp only [hc, he, Bool.and_self])
  rw [hx, hne, State.laneOver]
  cases (s.lanesLeft r l).isEmpty <;> rfl

/-- The router is no longer changing mode, and LZ_NET_STATUS tells how many hclk the change took (R483). -/
theorem bypassDone_reads (s : State) {r : Nat} (n : Nat) (hr : r < 16) :
    (s.bypassDone (r, tget 0 s.routers.changeAt r + n)).flag oNetStatus (16 + r) = false ∧
      (s.bypassDone (r, tget 0 s.routers.changeAt r + n)).fld oNetStatus 40 8 = min n 255 := by
  refine ⟨?_, ?_⟩
  · rw [State.bypassDone, flag_setFld_apart _ _ _ _ _ _ (by omega), flag_setFlag_same _ _ _ _ (by omega)]
  · rw [State.bypassDone, fld_setFld_same _ _ _ _ _ (by omega), Nat.add_sub_cancel_left]
    omega

theorem bypassDone_fusing (s : State) (p : Nat × Nat) : (s.bypassDone p).fusing = s.fusing := by simp [State.bypassDone]

/-! ## Refused flits (R339, R340) -/

/-- A refusal on a hop is counted in LZ_NET_INTEG, and the hop stands at `n` in a row. -/
def State.hopCounted (s : State) (src dst n : Nat) : State :=
  let t := s.incFld oNetInteg 0 32 1
  { t with routers := { t.routers with refused := tputD 0 (32 * src + dst) n t.routers.refused } }

/-- DETAIL of a hard network fault: the routers of the hop (R340). -/
def hopDetail (src dst : Nat) : BitVec 64 := BitVec.ofNat 64 src ||| (BitVec.ofNat 64 dst <<< 5)

/-- The hop of a hard network fault and its flag in LZ_NET_INTEG (R340). -/
def State.hopFaulty (s : State) (src dst : Nat) : State := ((s.setFld oNetInteg 32 5 src).setFld oNetInteg 37 5 dst).setFlag oNetInteg 42 true

section
variable (s : State) (src dst : Nat)

theorem hopRefused_of_ne {n : Nat} (h : n ≠ 8) : s.hopRefused src dst n = s.hopCounted src dst n := by
  simp only [State.hopRefused, if_neg h]
  rfl

theorem hopRefused_eighth : s.hopRefused src dst 8 =
    ((((s.hopCounted src dst 0).hopFaulty src dst).raise 24 0 (hopDetail src dst)).faultDue (1152 + 24) 0 (hopDetail src dst)) := rfl

theorem hopCounted_count (n : Nat) : (s.hopCounted src dst n).fld oNetInteg 0 32 = min (s.fld oNetInteg 0 32 + 1) (2 ^ 32 - 1) :=
  fld_incFld_same s oNetInteg 0 32 1 (by omega)

theorem hopCounted_reg_other (n : Nat) {o : Nat} (h : o ≠ oNetInteg) : (s.hopCounted src dst n).reg o = s.reg o :=
  reg_incFld_other s 0 32 1 h

theorem hopFaulty_count : (s.hopFaulty src dst).fld oNetInteg 0 32 = s.fld oNetInteg 0 32 := by
  rw [State.hopFaulty, fld_setFlag_apart _ _ _ _ _ _ (by omega), fld_setFld_apart _ _ _ _ _ _ _ (by omega),
    fld_setFld_apart _ _ _ _ _ _ _ (by omega)]

theorem hopFaulty_hop (hs : src < 24) (hd : dst < 24) :
    (s.hopFaulty src dst).flag oNetInteg 42 = true ∧ (s.hopFaulty src dst).fld oNetInteg 32 5 = src ∧
      (s.hopFaulty src dst).fld oNetInteg 37 5 = dst := by
  refine ⟨flag_setFlag_same _ _ _ _ (by omega), ?_, ?_⟩
  · rw [State.hopFaulty, fld_setFlag_apart _ _ _ _ _ _ (by omega), fld_setFld_apart _ _ _ _ _ _ _ (by omega),
      fld_setFld_same _ _ _ _ _ (by omega)]
    omega
  · rw [State.hopFaulty, fld_setFlag_apart _ _ _ _ _ _ (by omega), fld_setFld_same _ _ _ _ _ (by omega)]
    omega

theorem faultDue_mem (x c : Nat) (d : BitVec 64) : NvmItem.fault ∈ (s.faultDue x c d).cistern.due := by
  have hdue : NvmItem.fault ∈ if NvmItem.fault ∈ s.cistern.due then s.cistern.due else s.cistern.due ++ [.fault] := by
    split
    · assumption
    · simp
  rw [State.faultDue, State.setFlag_cistern]
  dsimp only
  split
  · exact hdue
  · split <;> exact hdue

/-- The eighth refusal changes LZ_NET_INTEG only by its count and its hard fault (R340). -/
theorem hopRefused_eighth_reg :
    (s.hopRefused src dst 8).reg oNetInteg = ((s.hopCounted src dst 0).hopFaulty src dst).reg oNetInteg :=
  (faultDue_reg_other _ _ _ _ (by decide)).trans (raise_reg_other _ _ _ (by decide))

theorem hopRefused_eighth_event :
    (s.hopRefused src dst 8).flag (oEvtPend 0) 24 = true ∧ NvmItem.fault ∈ (s.hopRefused src dst 8).cistern.due :=
  ⟨(flag_congr (faultDue_reg_other _ _ _ _ (by decide)) _).trans (raise_flag _ 24 _ _), faultDue_mem _ _ _ _⟩

theorem hopRefused_keeps (n : Nat) :
    (s.hopRefused src dst n).fusing = s.fusing ∧ (s.hopRefused src dst n).routers.refuse = s.routers.refuse := by
  by_cases h : n = 8
  · subst h
    rw [hopRefused_eighth]
    obtain ⟨r, m, l, k, hr⟩ := raise_same ((s.hopCounted src dst 0).hopFaulty src dst) 24 0 (hopDetail src dst)
    obtain ⟨y, hy⟩ := faultDue_form (((s.hopCounted src dst 0).hopFaulty src dst).raise 24 0 (hopDetail src dst)) (1152 + 24) 0 (hopDetail src dst)
    rw [hy, hr]
    simp [State.hopFaulty, State.hopCounted]
  · rw [hopRefused_of_ne s src dst h]
    exact ⟨rfl, rfl⟩

/-- Every refusal is counted (R339). -/
theorem hopRefused_count (n : Nat) : (s.hopRefused src dst n).fld oNetInteg 0 32 = min (s.fld oNetInteg 0 32 + 1) (2 ^ 32 - 1) := by
  rw [← hopCounted_count s src dst n]
  by_cases h : n = 8
  · subst h
    rw [fld_congr (hopRefused_eighth_reg s src dst), hopFaulty_count, hopCounted_count, hopCounted_count]
  · rw [hopRefused_of_ne s src dst h]

end

/-- How many refusals in a row a hop stands at after one more, which is of the same flit if `again` (R340). -/
def State.hopTries (s : State) (src dst : Nat) (again : Bool) : Nat :=
  if again then tget 0 s.routers.refused (32 * src + dst) + 1 else 1

theorem hopTries_eq_eight {s : State} {src dst : Nat} {again : Bool} :
    s.hopTries src dst again = 8 ↔ again = true ∧ tget 0 s.routers.refused (32 * src + dst) = 7 := by
  cases again <;> simp [State.hopTries]

/-- The next flit to cross a hop is to be held back (log entry 37). -/
def State.hopHeld (s : State) (src dst : Nat) : State := { s with routers := { s.routers with refuse := s.routers.refuse ++ [(src, dst)] } }

theorem exec_flitHopRetry {s : State} {src dst : Nat} (again : Bool) (hin : s.inReset = false) (hs : src < 24) (hd : dst < 24)
    (hl : linked src dst = true) :
    exec (.flitHopRetry src dst again) s = .next (s.held ((s.hopRefused src dst (s.hopTries src dst again)).hopHeld src dst)) :=
  row_due hin (by simp [hs, hd]) hl

/-- A flit that is refused, or held back, stays at the head of its buffer to be sent again 4 hclk later (R339; log entry 37). -/
theorem move_refused (x : NetStep) (c k : Nat) {o : Nat} {f : NetFlit} (ho : o < 32)
    (hf : f.ok = false ∨ x.net.refuse.contains (kRouter k, o) = true) :
    ∃ tries refuse, (x.move c (k, o, f)).net = { x.net with
      bufs := tput k ({ f with since := c + 3, tries := tries } :: (tget [] x.net.bufs k).tail) x.net.bufs, refuse := refuse } := by
  cases hok : f.ok with
  | false => exact ⟨f.tries + 1, x.net.refuse, by simp [NetStep.move, ho, hok]⟩
  | true =>
    have hr : x.net.refuse.contains (kRouter k, o) = true := hf.resolve_left (by simp [hok])
    refine ⟨f.tries, x.net.refuse.erase (kRouter k, o), ?_⟩
    simp only [NetStep.move, ho, hok, hr]
    rfl

/-! ## Records on the runnel (R385, R390) -/

theorem buddy_buddy (k : Nat) : buddy (buddy k) = k := by simp [buddy]

theorem exec_journalRecordReceive {s : State} {k : Nat} {e : Nat × Nat × Record} {rest : List (Nat × Nat × Record)} (c : Ecc)
    (hin : s.inReset = false) (hk : k < s.nSlices) (hr : (s.sl (buddy k)).runnel = e :: rest) (he : e.1 ≤ s.frame) :
    exec (.journalRecordReceive k c) s = .next (s.held ((s.updSl (buddy k) fun sl => { sl with runnel := rest }).takeRecord k e c)) := by
  change execJournalRecordReceive k c s = _
  simp only [execJournalRecordReceive, hr, if_neg (Nat.not_lt.mpr he)]
  exact row_next hin (decide_eq_true hk)

/-- A record is stored as it is while the store is in use and the flip mask is disarmed (R378, R386). -/
theorem storeRecord_journal {s : State} {h : Nat} (t : Nat) (r : Record) (hu : s.flag (oSl (buddy h) 0x88) 1 = false)
    (hf : s.flag oFlip 0 = false) : tget 0 ((s.storeRecord h t r).sl (buddy h)).journal t = r := by
  simp [State.storeRecord, State.flipStore, hu, hf]

/-- A record that decodes is in the store (R390). -/
theorem takeRecord_clean {s : State} {h : Nat} (e : Nat × Nat × Record) (hu : s.flag (oSl h 0x88) 1 = false) (hf : s.flag oFlip 0 = false) :
    tget 0 ((s.takeRecord h e .clean).sl h).journal e.2.1 = e.2.2 := by
  have hst := storeRecord_journal (h := buddy h) e.2.1 e.2.2 ((buddy_buddy h).symm ▸ hu) hf
  rw [buddy_buddy] at hst
  simpa [State.takeRecord, hu] using hst

/-- Settles O53: each row by its lemma; of a refused flit, whether the refusal is the eighth in a row decides. -/
theorem networkAndRunnel : Obligations.NetworkAndRunnel := by
  refine ⟨⟨fun s r l n hin hr hl hc he => ⟨fun hn => ?_, fun hn => ?_⟩, fun s a b g hin ha hb hl => ?_, fun x c k o f rest ho hb hf => ?_⟩,
    fun s k e rest c hin hk hr he => ⟨exec_journalRecordReceive c hin hk hr he, fun hc hu hf => ?_⟩⟩
  · have hx := exec_bypassLaneChange n hin hr hl hc he
    have hz : (s.lanesLeft r l).isEmpty = true := List.isEmpty_iff.mpr hn
    rw [State.laneOver, if_pos hz] at hx
    have hreg := s.held_reg (bypassDone_fusing (s.laneChanged r l) (r, tget 0 s.routers.changeAt r + n))
    obtain ⟨hfl, hfld⟩ := bypassDone_reads (s.laneChanged r l) n (Nat.lt_of_lt_of_le hr (nSlices_le s))
    exact ⟨_, hx, (flag_congr (hreg _) _).trans hfl, (fld_congr (hreg _) _ _).trans hfld⟩
  · have hx := exec_bypassLaneChange n hin hr hl hc he
    have hz : ¬ (s.lanesLeft r l).isEmpty = true := fun h => hn (List.isEmpty_iff.mp h)
    rw [State.laneOver, if_neg hz] at hx
    exact ⟨_, hx, rfl, tget_tputD_same _ _ _ _⟩
  · have hx := exec_flitHopRetry g hin ha hb hl
    obtain ⟨hfu, hre⟩ := hopRefused_keeps s a b (s.hopTries a b g)
    have hreg := s.held_reg (t := (s.hopRefused a b (s.hopTries a b g)).hopHeld a b) hfu
    refine ⟨_, hx, (fld_congr (hreg _) _ _).trans (hopRefused_count s a b _), congrArg (· ++ [(a, b)]) hre, fun h8 => ?_, fun hne => ?_⟩
    · rw [hopTries_eq_eight.mpr h8] at hreg ⊢
      obtain ⟨hfl, hsrc, hdst⟩ := hopFaulty_hop (s.hopCounted a b 0) a b ha hb
      obtain ⟨hev, hdue⟩ := hopRefused_eighth_event s a b
      have hint := (hreg oNetInteg).trans (hopRefused_eighth_reg s a b)
      exact ⟨(flag_congr hint _).trans hfl, (fld_congr hint _ _).trans hsrc, (fld_congr hint _ _).trans hdst,
        (flag_congr (hreg _) _).trans hev, hdue⟩
    · rw [hopRefused_of_ne s a b fun h => hne (hopTries_eq_eight.mp h)] at hreg ⊢
      exact ⟨tget_tputD_same _ _ _ _, fun o ho => (hreg o).trans (hopCounted_reg_other s a b (s.hopTries a b g) ho)⟩
  · obtain ⟨tries, refuse, hm⟩ := move_refused x c k ho hf
    refine ⟨{ f with since := c + 3, tries := tries }, ?_, rfl, rfl, rfl, fun j hj => ?_, by rw [hm]⟩
    · rw [hm]
      exact (tget_tput_same _ _ _ _).trans (by rw [hb]; rfl)
    · rw [hm]
      exact tget_tput_other hj _ _ _
  · subst hc
    exact ⟨_, exec_journalRecordReceive .clean hin hk hr he, takeRecord_clean (s := s.updSl _ _) e hu hf⟩

end Sys2Proof.Machine
end

section
/-! SUPPORT. What work beside a takeover leaves of its range: reports of errors, transactions that end, and requests that are queued or sampled. -/

namespace Sys2Proof.Machine

/-! ## What other work leaves of a range that is taken over -/

/-- What the sequence of a takeover has set in the failed slice: its presence counts, whether its range has opened, and how far its sets are
zeroed (R398, R404). -/
def Slice.takenOver (v : Slice) : Tbl Nat × Bool × Nat × List Nat := (v.presence, v.tk.opened, v.tk.zeroPos, v.tk.zeroed)

/-- The part is the same, and slice `f` has the ROLE and the stage of its takeover that it has in `s`. -/
structure State.RangeKept (s : State) (f : Nat) (u : State) : Prop where
  fusing : u.fusing = s.fusing
  role : u.role f = s.role f
  slice : (u.sl f).takenOver = (s.sl f).takenOver

theorem State.RangeKept.refl (s : State) (f : Nat) : s.RangeKept f s := ⟨rfl, rfl, rfl⟩

theorem takenOver_journalFree : JournalFree Slice.takenOver := fun _ _ _ _ _ _ _ => rfl

theorem roleApart_tenant (t lo : Nat) : RoleApart (oTn t 0x30) lo := by
  intro k hk
  simp only [oTn, oSl] at hk
  omega

theorem raisePair_reg_other (s : State) {j o : Nat} (code : Nat) (x : Flit) (h : o ≠ oEvtPend (j / 64)) :
    (s.raisePair j code x).reg o = s.reg o := by
  have hp : (s.pendBlk j).reg o = s.reg o := reg_setFlag_other _ _ _ h
  unfold State.raisePair
  dsimp only
  split
  · exact hp
  · exact hp

/-- Without a free home tag the sweep of a range is due (R416, R422). -/
theorem sweepStart_waits {s : State} {h : Nat} (ht : s.homeTag h = none) :
    s.sweepStart h = (s.setFlag (oSl (s.engine h) 0x90) 6 true).updSl h fun sl => { sl with sweepDue := true } := by
  have hx : (s.setFlag (oSl (s.engine h) 0x90) 6 true).homeTag h = none := by
    rw [← ht]; simp [State.homeTag]
  unfold State.sweepStart
  simp only [hx]

/-- SWEEP rises in the engine that serves the range, whether or not a home tag is free (R416). -/
theorem sweepStart_flag (s : State) (h : Nat) : (s.sweepStart h).flag (oSl (s.engine h) 0x90) 6 = true := by
  cases ht : s.homeTag h with
  | some t =>
    obtain ⟨-, -, hflag, -⟩ := sweepStart_reads ht
    exact hflag
  | none =>
    rw [sweepStart_waits ht]
    exact flag_setFlag_same _ _ _ _ (by decide)

namespace State.RangeKept

section
variable {s u : State} {f : Nat} (hu : s.RangeKept f u)

theorem ite {c : Prop} [Decidable c] {a b : State} (ha : s.RangeKept f a) (hb : s.RangeKept f b) : s.RangeKept f (if c then a else b) :=
  iteInduction (motive := s.RangeKept f) (fun _ => ha) fun _ => hb

include hu

/-! Primitive changes. -/

theorem congr {v : State} (hf : v.fusing = u.fusing) (hr : v.regs = u.regs) (hs : v.slices = u.slices) : s.RangeKept f v where
  fusing := hf.trans hu.fusing
  role := (fld_congr (reg_eq_of_regs hf hr _) 0 2).trans hu.role
  slice := (congrArg (fun l => (tget {} l f).takenOver) hs).trans hu.slice

theorem setFld {o lo : Nat} (h : RoleApart o lo) (w v : Nat) : s.RangeKept f (u.setFld o lo w v) :=
  ⟨hu.fusing, ((unseen_role Txn.nothing f).fld u w v h).trans hu.role, hu.slice⟩

theorem incFld {o lo : Nat} (h : RoleApart o lo) (w n : Nat) : s.RangeKept f (u.incFld o lo w n) := (hu.setFld h w _).congr rfl rfl rfl

/-- A count of a slice that does not lie in ROLE. -/
theorem incSl (k p lo w n : Nat) (hp : p < 0x10000 := by decide) (h : p ≠ 0x90 ∨ 2 ≤ lo := by decide) :
    s.RangeKept f (u.incFld (oSl k p) lo w n) := hu.incFld (roleApart_sl hp h) w n

theorem setFlag {o b : Nat} (h : RoleApart o b) (v : Bool) : s.RangeKept f (u.setFlag o b v) := by
  cases v with
  | false => exact hu.setFld h 1 0
  | true => exact (hu.setFld h 1 1).congr rfl rfl rfl

theorem setReg {o : Nat} (h : oSl f 0x90 ≠ o) (v : Reg) : s.RangeKept f (u.setReg o v) :=
  ⟨hu.fusing, (fld_congr (reg_setReg_other u v h) 0 2).trans hu.role, hu.slice⟩

theorem updSl (k : Nat) {g : Slice → Slice} (hg : ∀ v, (g v).takenOver = v.takenOver := by exact fun _ => rfl) : s.RangeKept f (u.updSl k g) :=
  ⟨hu.fusing, hu.role, (updSl_keeps Slice.takenOver hg u k f).trans hu.slice⟩

theorem sameButLog {v : State} (h : u.SameButLog v) (hr : v.role f = u.role f) : s.RangeKept f v := by
  obtain ⟨r, m, l, n, rfl⟩ := h
  exact ⟨hu.fusing, hr.trans hu.role, hu.slice⟩

theorem send (n : Nat) (p : Port) (m : Msg) : s.RangeKept f (u.send n p m) := hu.congr rfl rfl rfl

theorem plan (n k t : Nat) (c : Act) : s.RangeKept f (u.plan n k t c) :=
  hu.congr (State.plan_fusing u n k t c) (State.plan_regs u n k t c) (State.plan_slices u n k t c)

theorem raise {j : Nat} (hj : j < 128) (code : Nat) (d : BitVec 64) : s.RangeKept f (u.raise j code d) :=
  hu.sameButLog (raise_same u j code d) (fld_congr (raise_reg_other u code d (by simp only [oSl, oEvtPend]; omega)) 0 2)

end

/-! Errors and events (R370 to R374, R535). -/

/-- The reports of errors in the banks of the journal, of the data buffers and of the stores are such work. -/
theorem errFree (s : State) (f k : Nat) {b : Nat} (hb : 13 ≤ b) (hb' : b < 16) : ErrFree k b (s.RangeKept f) where
  setFld u o lo w v ho hu := by
    refine hu.setFld ?_ w v
    rcases ho with rfl | rfl | rfl | rfl | rfl
    · exact roleApart_sl (by omega) (.inl (by omega))
    · intro j hj
      simp only [oSl, oLifeCe] at hj
      omega
    · exact roleApart_sl (by decide) (.inl (by decide))
    · exact roleApart_sl (by decide) (.inl (by decide))
    · exact roleApart_low (by decide)
  mark _ _ _ _ hu := hu.congr rfl rfl rfl
  slice _ _ _ _ hu := hu.updSl k
  fault _ _ _ hu := hu.congr rfl rfl rfl

section
variable {s u : State} {f : Nat} (hu : s.RangeKept f u)
include hu

theorem raiseSl (k i code : Nat) (d : BitVec 64) : s.RangeKept f (u.raiseSl k i code d) :=
  (errFree s f k (b := 13) (by decide) (by decide)).raiseSl i code d hu

theorem failSlice (k c : Nat) : s.RangeKept f (u.failSlice k c) := ite hu (hu.congr rfl rfl rfl)

theorem readDec {b : Nat} (hb : 13 ≤ b) (hb' : b < 16) (k set : Nat) (d : FlipDec) : s.RangeKept f (u.readDec k b set d) := by
  cases d with
  | clean => exact hu
  | bad => exact (errFree s f k hb hb').uncorrectable set 2 hu
  | fixed | wrong => exact (errFree s f k hb hb').correctable set 2 hu

/-! Transactions and their records (R378, R387). -/

theorem flipStore (k bank : Nat) : s.RangeKept f (u.flipStore k bank).2 := by
  unfold State.flipStore
  split
  · exact (hu.setFlag (roleApart_low (by decide)) false).setFlag (roleApart_low (by decide)) true
  · exact hu

theorem jr (h t : Nat) : s.RangeKept f (u.jr h t) where
  fusing := by obtain ⟨r, m, x, e⟩ := jr_same u h t; rw [e]; exact hu.fusing
  role := (fld_congr (reg_jr_other (by simp only [oSl, oFlip]; omega) u h t) 0 2).trans hu.role
  slice := (jr_keeps takenOver_journalFree u h t f).trans hu.slice

theorem put (h t : Nat) (x : Txn) : s.RangeKept f (u.put h t x) := (hu.updSl h).jr h t

theorem upd (h t : Nat) (g : Txn → Txn) : s.RangeKept f (u.upd h t g) := hu.put h t _

theorem bumpEpoch (h t : Nat) : s.RangeKept f (u.bumpEpoch h t) := by
  unfold State.bumpEpoch
  exact hu.updSl h

theorem setChain (h : Nat) (l : LineAddr) (new : List Nat) : s.RangeKept f (u.setChain h l new) :=
  foldl_keeps (P := s.RangeKept f) _ (hu.updSl h) fun _ t _ hv => ite hv (hv.jr h t)

theorem release (h t : Nat) : s.RangeKept f (u.release h t) := by
  have hc : s.RangeKept f (u.unclaim h t) := by
    unfold State.unclaim
    split
    · exact ite (hu.updSl h) hu
    · exact hu
  have hp : s.RangeKept f ((u.unclaim h t).unplan h t) := hc.congr rfl rfl rfl
  refine ite hu ((foldl_keeps (P := s.RangeKept f) _ hp fun v l _ hv => ?_).put h t _)
  unfold State.releaseLine
  dsimp only
  split
  · exact hv
  · exact hv.upd h _ _

/-! Requests that leave a queue (R152, R289, R324, R343, R397). -/

theorem setBuckets (e t : Nat) (c p : Int) : s.RangeKept f (u.setBuckets e t c p) := hu.updSl e

theorem freeEntry (h : Nat) (q : QReq) : s.RangeKept f (u.freeEntry h q) := ite hu (hu.updSl h)

theorem chargeP (e t k : Nat) : s.RangeKept f (u.chargeP e t k) := ite (hu.setBuckets _ _ _ _) hu

theorem dropQueued (e : Nat) (q : QReq) : s.RangeKept f (u.dropQueued e q) :=
  ((ite (hu.chargeP _ _ _) hu).updSl e).freeEntry _ q

theorem lostRequest (e : Nat) (q : QReq) : s.RangeKept f (u.lostRequest e q) :=
  ((hu.dropQueued e q).incSl _ 0x90 29 4 1).raiseSl _ _ _ _

theorem readStore (q : QReq) (w : StoreRead) : s.RangeKept f (u.readStore q w).1 := by
  have hd {v : State} (hv : s.RangeKept f v) (d : FlipDec) : s.RangeKept f (v.readDec q.home 15 0 d) := hv.readDec (by decide) (by decide) _ _ d
  unfold State.readStore
  dsimp only
  split
  · exact ite (hd (hd hu _) _) (hd hu _)
  · exact hd (ite (hd (hd hu _) _) (hd hu _)) _

theorem headerGone (e : Nat) (q : QReq) : s.RangeKept f (u.headerGone e q) := ite (hu.lostRequest e q) ((hu.failSlice _ _).updSl e)

theorem takeStored (e : Nat) (q : QReq) {g : State → Req → Bool → State} (hg : ∀ v r b, s.RangeKept f v → s.RangeKept f (g v r b)) :
    s.RangeKept f (u.takeStored e q g) := by
  have hr := hu.readStore q ⟨.clean, .clean, .clean⟩
  unfold State.takeStored
  split
  next n hn => rw [hn] at hr; exact hr.headerGone e q
  next n r b hn => rw [hn] at hr; exact hg _ _ _ (hr.dropQueued e q)

theorem recordedFor (h t : Nat) {r : State} (hr : s.RangeKept f r) : s.RangeKept f (u.recordedFor h t r) := by
  refine ite hr (State.RangeKept.updSl (ite hr (foldl_keeps (P := s.RangeKept f) _ hu fun v k _ hv => ite hv ?_)) h)
  exact (hv.incSl k 0x88 29 24 1).updSl k

theorem setMerge (h i : Nat) (m : Merge) : s.RangeKept f (u.setMerge h i m) := by
  unfold State.setMerge
  split
  next c v e =>
    refine State.RangeKept.updSl ?_ h
    split at e
    · exact (Prod.mk.inj e).2 ▸ hu.flipStore h 14
    · exact (Prod.mk.inj e).2 ▸ hu

theorem mergeReq (e : Nat) (q : QReq) (t m : Nat) : s.RangeKept f (u.mergeReq e q t m) :=
  hu.takeStored e q fun _ _ _ hv => ((hv.setMerge _ _ _).upd _ _ _).incSl _ 0x60 6 16 1

theorem mergeAll (e : Nat) : s.RangeKept f (u.mergeAll e) := by
  refine foldl_keeps (P := s.RangeKept f) _ hu fun v q _ hv => ?_
  split
  · exact hv.recordedFor _ _ (hv.mergeReq e q _ _)
  · exact hv

theorem absorb (h t : Nat) (r : Req) : s.RangeKept f (u.absorb h t r) := by
  unfold State.absorb State.addDirty State.withFlip
  exact (hu.flipStore h 14).upd h t _

/-! Requests that are sampled or change their queue (R268, R278 to R284). -/

theorem enqueue (e : Nat) (q : QReq) : s.RangeKept f (u.enqueue e q) := by
  unfold State.enqueue
  exact hu.updSl e

theorem colorReq (e t k : Nat) : s.RangeKept f (u.colorReq e t k).2 := by
  unfold State.colorReq
  dsimp only
  repeat' split
  · exact hu
  · exact hu
  · exact hu.setBuckets _ _ _ _
  · exact hu.setBuckets _ _ _ _

theorem recolorList (e t : Nat) (l : List QReq) : s.RangeKept f (recolorList u e t l) := by
  induction l generalizing u with
  | nil => exact hu
  | cons q l ih =>
    have hc := hu.colorReq e t q.cost
    unfold Machine.recolorList
    split
    · exact hu
    next c v _ e' =>
      rw [e'] at hc
      exact ih (((ite (hc.incFld (roleApart_tenant t 0) 24 1) hc).updSl e).enqueue e _)

theorem setC0Credit (e t n : Nat) : s.RangeKept f (u.setC0Credit e t n) := by
  unfold State.setC0Credit
  exact hu.updSl e

theorem allowance (e t cls : Nat) (r : Bool) : s.RangeKept f (u.allowance e t cls r).2 := by
  have hc := hu.incSl e 0x18 0 24 1
  unfold State.allowance
  repeat' split
  · exact hu
  · exact hc
  · exact hu.setC0Credit e t _
  · exact hc

theorem addCredit (l h : Nat) (c0 : Bool) (d : Int) : s.RangeKept f (u.addCredit l h c0 d) := hu.congr rfl rfl rfl

theorem sluiceViolation (a : Nat) (x : Flit) : s.RangeKept f (u.sluiceViolation a x) := by
  have hp : s.RangeKept f (u.raisePair 32 0 x) := hu.sameButLog (raisePair_same u 32 0 x)
    (fld_congr (raisePair_reg_other u 0 x (by simp only [oSl, oEvtPend]; omega)) 0 2)
  exact hp.incFld (fun k hk => by simp only [oAg, oSl] at hk; omega) 7 1

/-- The states of a sampling in turn: redirected, with its allowance, its lane's credit, the header stored, colored, and counted. -/
theorem weirSample (e h : Nat) (r : Req) : s.RangeKept f (u.weirSample e h r) := by
  have hretry (m : Msg) (n : Nat) (p : Port) (q : QReq) : s.RangeKept f ((u.freeEntry h q).send n p m) := (hu.freeEntry h q).send n p m
  unfold State.weirSample
  extract_lets q0 redirected s1 ten
  refine ite ?_ (ite (hretry _ _ _ _) ?_)
  · exact (hretry _ _ _ _).sluiceViolation _ _
  · have h1 : s.RangeKept f s1 := ite (hu.incSl e 0xB8 24 24 1) hu
    have h2 := h1.allowance e ten (if redirected then 3 else r.cls) redirected
    clear_value s1
    split
    next c1 v e1 =>
    rw [e1] at h2
    extract_lets cls s2 k
    have h3 : s.RangeKept f s2 := ite ((State.RangeKept.freeEntry h2 h q0).addCredit _ _ _ _) h2
    have h4 := h3.flipStore h 15
    clear_value s2
    split
    next flip w e2 =>
    rw [e2] at h4
    extract_lets q s3
    have h5 : s.RangeKept f s3 := h4.congr rfl rfl rfl
    have h6 := h5.colorReq e ten k
    clear_value s3
    split
    next color z e3 =>
    rw [e3] at h6
    extract_lets s4 p passed ab
    have h7 : s.RangeKept f s4 := ite (h6.incFld (roleApart_tenant _ _) 24 1) h6
    have h8 : s.RangeKept f (passed s4) := ite ((h7.chargeP e ten k).incFld (roleApart_tenant _ _) 8 1) h7
    clear_value s4 passed ab
    cases ab with
    | some t => exact h8.absorb h t r
    | none =>
      refine ite (h8.updSl e) (ite (State.RangeKept.mergeAll (State.RangeKept.updSl ?_ e) e) ((h7.enqueue e p).mergeAll e))
      exact h7.incFld (roleApart_tenant _ _) 24 1

theorem settle (h t : Nat) : s.RangeKept f (u.settle h t) := by
  unfold State.settle
  extract_lets x s1 s2
  have h1 : s.RangeKept f s1 := ite hu (hu.upd h t _)
  have h2 : s.RangeKept f s2 := ite hu (hu.upd h t _)
  exact ite hu (ite (ite hu (hu.upd h t _)) (ite (ite (h1.plan _ _ _ _) h1) (ite (h2.plan _ _ _ _) h2)))

theorem goOn (h t : Nat) : s.RangeKept f (u.goOn h t) := ite hu (ite (ite (hu.plan _ _ _ _) hu) (hu.settle h t))

theorem tookFrom (a : Nat) : s.RangeKept f (u.tookFrom a) := hu.congr rfl rfl rfl

theorem weirSampleOn (e h : Nat) (r : Req) : s.RangeKept f (u.weirSampleOn e h r) := by
  have hw := hu.weirSample e h r
  unfold State.weirSampleOn
  extract_lets ab v
  have hv : s.RangeKept f v := hw
  clear_value ab v
  cases ab with
  | some t => exact (hv.tookFrom _).goOn h t
  | none => exact hv

/-! The opening of a range (R398, R407, R416). -/

theorem adoptQueues (k b : Nat) : s.RangeKept f (u.adoptQueues k b) := by
  unfold State.adoptQueues
  extract_lets sl s1 s2 s3 s4
  have h1 : s.RangeKept f s1 := hu.updSl k
  have h2 : s.RangeKept f s2 := h1.updSl b
  have h3 : s.RangeKept f s3 := foldl_keeps (P := s.RangeKept f) _ h2 fun v q _ hv => hv.enqueue b q
  have h4 : s.RangeKept f s4 := h3.updSl b
  exact foldSt_keeps (P := s.RangeKept f) (fun v t hv => hv.recolorList b t _) _ h4

theorem sampleWaiting (k : Nat) : s.RangeKept f (u.sampleWaiting k) := by
  unfold State.sampleWaiting
  extract_lets w v
  have hv : s.RangeKept f v := hu.updSl k
  exact foldl_keeps (P := s.RangeKept f) _ hv fun x q _ hx => hx.weirSampleOn _ k q.req

theorem sweepBegun (h t : Nat) : s.RangeKept f (u.sweepBegun h t) := by
  have hs : s.RangeKept f (u.setFlag (oSl (u.engine h) 0x90) 6 true) := hu.setFlag (roleApart_sl (by decide) (.inr (by decide))) true
  have hp := (hs.bumpEpoch h t).put h t (sweepTxn u.frame)
  unfold State.sweepBegun State.sweepPut
  exact (hp.updSl h).setReg (by simp only [oSl]; omega) 0

theorem sweepStart (h : Nat) : s.RangeKept f (u.sweepStart h) := by
  cases ht : u.homeTag h with
  | some t =>
    rw [sweepStart_eq ht]
    refine foldl_keeps (P := s.RangeKept f) _ (hu.sweepBegun h t) fun v a _ hv => ?_
    obtain ⟨m, hm⟩ := rangeSnoop_eq v h t a
    exact hm ▸ (hv.upd h t _).send _ _ _
  | none =>
    rw [sweepStart_waits ht]
    exact (hu.setFlag (roleApart_sl (by decide) (.inr (by decide))) true).updSl h

end

end State.RangeKept

end Sys2Proof.Machine
end

section
/-! SUPPORT. The statement about a takeover and a return: the rows of the sequence, and the map switch that gives a range back. -/

namespace Sys2Proof.Machine

/-! ## The frames of a takeover until its range opens (R398) -/

theorem exec_takeoverMapWrite {s : State} {f : Nat} (hin : s.inReset = false) (hf : f < s.nSlices) (hp : s.pairLost f = false)
    (ha : (s.sl f).tk.active = true) (hm : (s.sl f).tk.mapped = false) (hd : (s.sl f).tk.frame0 + 1 ≤ s.frame) :
    exec (.takeoverMapWrite f) s = .next (({ s with routers := { s.routers with mapDue := s.routers.mapDue ++ [(f, buddy f)] } }.updSl f fun sl =>
      { sl with tk := { sl.tk with mapped := true } })) :=
  (row_due hin (decide_eq_true hf) (by simp [ha, hm, hd, hp])).trans (congrArg Host.Outcome.next (State.held_eq s rfl rfl rfl rfl rfl))

/-! ### The scan of the journal and of the stores -/

/-- A request that leaves its queue changes no register (R152, R289). -/
theorem dropQueued_reg (s : State) (e : Nat) (q : QReq) (o : Nat) : (s.dropQueued e q).reg o = s.reg o := by
  unfold State.dropQueued State.freeEntry State.chargeP
  dsimp only
  repeat' split
  all_goals rfl

/-- A register of a slice window other than the one with RECOUNT. -/
theorem oRecount_ne (f k : Nat) {p : Nat} (hp : p < 0x10000) (h : p ≠ 0x78) : oSl f 0x78 ≠ oSl k p := by
  simp only [oSl]
  omega

/-- A scan leaves the range as it was, and RECOUNT of its slice (R364, R398). -/
structure State.ScanKept (s : State) (f : Nat) (u : State) : Prop where
  kept : s.RangeKept f u
  recount : u.reg (oSl f 0x78) = s.reg (oSl f 0x78)

namespace State.ScanKept

section
variable {s u : State} {f : Nat}

theorem ite {c : Prop} [Decidable c] {a b : State} (ha : s.ScanKept f a) (hb : s.ScanKept f b) : s.ScanKept f (if c then a else b) :=
  iteInduction (motive := s.ScanKept f) (fun _ => ha) fun _ => hb

theorem setFld (hu : s.ScanKept f u) {o lo : Nat} (h : RoleApart o lo) (ho : oSl f 0x78 ≠ o) (w v : Nat) : s.ScanKept f (u.setFld o lo w v) :=
  ⟨hu.kept.setFld h w v, (reg_setFld_other u lo w v ho).trans hu.recount⟩

theorem updSl (hu : s.ScanKept f u) (k : Nat) {g : Slice → Slice} (hg : ∀ v, (g v).takenOver = v.takenOver := by exact fun _ => rfl) :
    s.ScanKept f (u.updSl k g) := ⟨hu.kept.updSl k hg, hu.recount⟩

/-- The reports of errors in the journal and in the stores leave RECOUNT alone. -/
theorem errFree (s : State) (f : Nat) {k b : Nat} (hb : 13 ≤ b) (hb' : b < 16) (hk : b = 15 → k < 16) : ErrFree k b (s.ScanKept f) where
  setFld u o lo w v ho hu := by
    refine ⟨(RangeKept.errFree s f k hb hb').setFld u o lo w v ho hu.kept, (reg_setFld_other u lo w v ?_).trans hu.recount⟩
    rcases ho with rfl | rfl | rfl | rfl | rfl <;> simp only [oSl, oLifeCe, oCisternStat] <;> omega
  mark _ _ _ _ hu := ⟨hu.kept.congr rfl rfl rfl, hu.recount⟩
  slice _ _ _ _ hu := hu.updSl k
  fault _ _ _ hu := ⟨hu.kept.congr rfl rfl rfl, hu.recount⟩

theorem journalErrFree (s : State) (f k : Nat) : ErrFree k 13 (s.ScanKept f) :=
  errFree s f (by decide) (by decide) fun h => absurd h (by decide)

variable (hu : s.ScanKept f u)
include hu

theorem setFlag {o b : Nat} (h : RoleApart o b) (ho : oSl f 0x78 ≠ o) (v : Bool) : s.ScanKept f (u.setFlag o b v) :=
  ⟨hu.kept.setFlag h v, (reg_setFlag_other u b v ho).trans hu.recount⟩

theorem incFld {o lo : Nat} (h : RoleApart o lo) (ho : oSl f 0x78 ≠ o) (w n : Nat) : s.ScanKept f (u.incFld o lo w n) :=
  ⟨hu.kept.incFld h w n, (reg_incFld_other u lo w n ho).trans hu.recount⟩

theorem faultDue (x c : Nat) (d : BitVec 64) : s.ScanKept f (u.faultDue x c d) := by
  have hc : s.ScanKept f { u with cistern := (u.faultDue x c d).cistern } := ⟨hu.kept.congr rfl rfl rfl, hu.recount⟩
  exact hc.setFlag (roleApart_low (by decide)) (by simp only [oSl, oCisternStat]; omega) true

theorem raiseSl (k i code : Nat) (d : BitVec 64) : s.ScanKept f (u.raiseSl k i code d) :=
  (journalErrFree s f k).raiseSl i code d hu

theorem retireJournal (k : Nat) : s.ScanKept f (u.retireJournal k) := by
  have hj (b : Nat) : RoleApart (oSl k 0x88) b := roleApart_sl (by decide) (.inl (by decide))
  refine ite hu (State.ScanKept.updSl (State.ScanKept.raiseSl (State.ScanKept.faultDue ?_ _ _ _) _ _ _ _) k)
  exact (hu.setFlag (hj 0) (oRecount_ne f k (by decide) (by decide)) false).setFlag (hj 1) (oRecount_ne f k (by decide) (by decide)) true

/-- A record that fails is counted, and may retire the journal (R390, R391). -/
theorem badRecord (h t : Nat) : s.ScanKept f (u.badRecord h t) := by
  have hr := ((journalErrFree s f h).uncorrectable t 2 hu).raiseSl h 41 0 (BitVec.ofNat 64 h)
  unfold State.badRecord
  extract_lets s1 sl errs again inv s2 w
  have h2 : s.ScanKept f s2 := (State.ScanKept.updSl hr h (g := fun v => { v with jrecErrs := _, invalid := _, asked := _ })).setFld
    (roleApart_sl (by decide) (.inl (by decide))) (oRecount_ne f h (by decide) (by decide)) 11 inv.length
  have h3 := h2.incFld (o := oSl w 0x88) (lo := 13) (roleApart_sl (by decide) (.inl (by decide))) (oRecount_ne f w (by decide) (by decide)) 16 1
  exact ite (h2.retireJournal h) (ite h2 (h3.updSl w))

/-- A pair that is lost keeps what its slices show (R396, R565). -/
theorem losePair (k c : Nat) : s.ScanKept f (u.losePair k c) := by
  have hfr {v : State} (hv : s.ScanKept f v) (j : Nat) : s.ScanKept f (v.freeze j) := by
    refine freeze_keeps (P := s.ScanKept f) hv fun x r p hp hx => ?_
    simp only [List.mem_cons, List.not_mem_nil, or_false] at hp
    exact ⟨hx.kept.setReg (by simp only [oSl]; omega) r, (reg_setReg_other x r (by simp only [oSl]; omega)).trans hx.recount⟩
  have ht := (hfr (hfr hu k) (buddy k)).setFlag (o := oTakeover) (b := 16 + k / 2) (roleApart_low (by decide))
    (by simp only [oSl, oTakeover]; omega) true
  refine ite hu (State.ScanKept.faultDue ⟨ht.kept.raise (by decide) _ _, ?_⟩ _ _ _)
  exact (raise_reg_other _ _ _ (by simp only [oSl, oEvtPend]; omega)).trans ht.recount

/-- A word whose decoder inverts a good bit changes transactions and epochs at most (R380). -/
theorem misreadTag (h t n : Nat) : s.ScanKept f (u.misreadTag h t n) := ite hu (ite (hu.updSl h) (hu.updSl h))

theorem decodeRecord (b t : Nat) : s.ScanKept f (u.decodeRecord b t) := by
  have hc := (journalErrFree s f b).correctable t 2 hu
  unfold State.decodeRecord
  extract_lets m d v
  have hv : s.ScanKept f v := State.ScanKept.updSl hc b
  exact ite hu (ite (hu.badRecord b t) (ite (hv.misreadTag _ _ _) hv))

theorem scanRecord (k t : Nat) : s.ScanKept f (u.scanRecord k t) :=
  ite ((hu.decodeRecord _ t).losePair k _) (hu.decodeRecord _ t)

theorem lostRequest (e : Nat) (q : QReq) : s.ScanKept f (u.lostRequest e q) := by
  have hd : s.ScanKept f (u.dropQueued e q) := ⟨hu.kept.dropQueued e q, (dropQueued_reg u e q _).trans hu.recount⟩
  exact (hd.incFld (roleApart_sl (by decide) (.inr (by decide))) (oRecount_ne f _ (by decide) (by decide)) 4 1).raiseSl _ _ _ _

theorem readFlip {k : Nat} (hk : k < 16) (set : Nat) (m : BitVec 8) : s.ScanKept f (u.readFlip k 15 set m) := by
  have he := errFree s f (k := k) (b := 15) (by decide) (by decide) fun _ => hk
  unfold State.readFlip
  cases decodeFlip m with
  | clean => exact hu
  | bad => exact he.uncorrectable set 2 hu
  | fixed | wrong => exact he.correctable set 2 hu

theorem scanHeader {k : Nat} (hk : k < 16) (q : QReq) : s.ScanKept f (u.scanHeader k q) := by
  unfold State.scanHeader
  extract_lets v w
  have hv : s.ScanKept f v := hu.readFlip hk 0 q.flip
  have hw : s.ScanKept f w := ite (hv.readFlip hk 0 q.flip2) hv
  exact ite (hw.lostRequest k q) hw

theorem scanHeaders {k : Nat} (hk : k < 16) : s.ScanKept f (u.scanHeaders k) := by
  unfold State.scanHeaders
  extract_lets sl next v
  have hv : s.ScanKept f v := foldl_keeps (P := s.ScanKept f) _ hu fun w q _ hw => hw.scanHeader hk q
  exact ite hu (hv.updSl k)

end

end State.ScanKept

/-- Four records, and four headers of the stores, have been read, and in frame 2 the filter is marked unzeroed before (R398). -/
def State.scanned (s : State) (f : Nat) : State :=
  let pos := (s.sl f).tk.scanPos
  let s := foldSt ((List.range 4).map fun i => pos + i) (fun s t => s.scanRecord f t) (if pos = 0 then s.unzeroFilter f else s)
  (s.scanHeaders f).updSl f fun sl => { sl with tk := { sl.tk with scanPos := pos + 4 } }

theorem exec_takeoverScan {s : State} {f : Nat} (hin : s.inReset = false) (hf : f < s.nSlices) (hp : s.pairLost f = false)
    (ha : (s.sl f).tk.active = true) (hm : (s.sl f).tk.mapped = true) (hl : (s.sl f).tk.scanPos < 1024)
    (hd : (s.sl f).tk.frame0 + 2 + (s.sl f).tk.scanPos / 4 ≤ s.frame) : exec (.takeoverScan f) s = .next (s.held (s.scanned f)) :=
  row_due hin (decide_eq_true hf) (by simp [ha, hm, hl, hd, hp])

theorem scanned_pos (s : State) (f : Nat) : ((s.scanned f).sl f).tk.scanPos = (s.sl f).tk.scanPos + 4 := by
  rw [State.scanned, State.updSl_sl_same]

/-- The flip mask that meets a word changes its own register (R378). -/
theorem flipWord_reads (s : State) (k bank : Nat) (e : Entry) :
    (s.flipWord k bank e).2.fusing = s.fusing ∧ (∀ o, o ≠ oFlip → (s.flipWord k bank e).2.reg o = s.reg o) := by
  unfold State.flipWord
  split
  · exact ⟨by simp, fun o ho => (reg_setFlag_other _ _ _ ho).trans (reg_setFlag_other _ _ _ ho)⟩
  · exact ⟨rfl, fun _ _ => rfl⟩

theorem zeroStage_fusing (s : State) (k : Nat) : (s.zeroStage k).fusing = s.fusing := (flipWord_reads s k 12 0).1

theorem unzeroFilter_reads (s : State) (f : Nat) :
    (s.unzeroFilter f).fusing = s.fusing ∧ (s.unzeroFilter f).flag (oSl f 0x78) 24 = false ∧
      ∃ b, ((s.unzeroFilter f).sl f).takenOver = ([], b, 0, []) := by
  refine ⟨?_, flag_setFlag_same _ _ _ _ (by decide), (s.zeroStage f |>.sl f).tk.opened, ?_⟩
  · rw [State.unzeroFilter, State.setFlag_fusing, State.updSl_fusing, zeroStage_fusing]
  · rw [State.unzeroFilter, State.setFlag_sl, State.updSl_sl_same]
    rfl

/-- In frame 2 the presence counts are zeros, RECOUNT is clear and every set is unzeroed, whatever the reads of the frame find (R398, R404). -/
theorem scanned_unzeroed {s : State} {f : Nat} (hf : f < 16) (h0 : (s.sl f).tk.scanPos = 0) :
    (s.scanned f).fusing = s.fusing ∧ ((s.scanned f).sl f).presence = [] ∧ (s.scanned f).flag (oSl f 0x78) 24 = false ∧
      ∀ ev set, ((s.scanned f).sl f).unzeroed ev set = true := by
  obtain ⟨hfus, hflag, b, hsl⟩ := unzeroFilter_reads s f
  have hk : (s.unzeroFilter f).ScanKept f (s.scanned f) := by
    rw [State.scanned, if_pos h0]
    refine State.ScanKept.updSl (State.ScanKept.scanHeaders ?_ hf) f
    exact foldSt_keeps (P := (s.unzeroFilter f).ScanKept f) (fun v t hv => hv.scanRecord f t) _ ⟨.refl _ f, rfl⟩
  have ht := hk.kept.slice.trans hsl
  simp only [Slice.takenOver, Prod.mk.injEq] at ht
  obtain ⟨hpres, -, hpos, hzeroed⟩ := ht
  refine ⟨hk.kept.fusing.trans hfus, hpres, (flag_congr hk.recount 24).trans hflag, fun ev set => ?_⟩
  rw [Slice.unzeroed, hpos, hzeroed]
  simp

/-! ### The walker that zeroes the sets (R404) -/

theorem tget_foldl_tdel {α : Type} (d : α) (keys : List Nat) (t : Tbl α) {i : Nat} (h : i ∈ keys ∨ tget d t i = d) :
    tget d (keys.foldl (fun t i => tdel i t) t) i = d := by
  induction keys generalizing t with
  | nil => exact h.resolve_left List.not_mem_nil
  | cons k keys ih =>
    refine ih (tdel k t) ?_
    by_cases hk : i = k
    · exact .inr (hk ▸ tget_tdel_same d k t)
    · exact h.imp (fun hm => (List.mem_cons.mp hm).resolve_left hk) fun ht => (tget_tdel_other hk d t).trans ht

theorem mem_wayKeys {r w : Nat} (h : w < 16) : 16 * r + w ∈ (List.range 16).map fun w => 16 * r + w :=
  List.mem_map.mpr ⟨w, List.mem_range.mpr h, rfl⟩

/-- The zeroing of a set changes no register but that of the flip mask (R378, R404). -/
theorem zeroSet_keeps (s : State) (k : Nat) (ev : Bool) (set : Nat) :
    (s.zeroSet k ev set).fusing = s.fusing ∧ ∀ o, o ≠ oFlip → (s.zeroSet k ev set).reg o = s.reg o := by
  obtain ⟨hfus, hreg⟩ := flipWord_reads s k (set / 1024) 0
  unfold State.zeroSet
  split
  · cases ev with
    | false => exact ⟨hfus, hreg⟩
    | true => exact ⟨rfl, fun _ _ => rfl⟩
  · exact ⟨rfl, fun _ _ => rfl⟩

section
variable {s : State} {k set w : Nat} (hw : w < 16)
include hw

theorem zeroSet_ondie (hf : s.flag oFlip 0 = false) (hun : (s.sl k).unzeroed false set = true) :
    tget 0 ((s.zeroSet k false set).sl k).ondie (16 * s.row k false set + w) = 0 := by
  unfold State.zeroSet
  simp only [hun, flipWord_of_disarmed hf, if_true, Bool.false_eq_true, if_false, State.updSl_sl_same]
  rw [tget_tputD]
  split
  · rfl
  · exact tget_foldl_tdel 0 _ _ (.inl (mem_wayKeys hw))

theorem zeroSet_evgan (hun : (s.sl k).unzeroed true set = true) :
    tget 0 ((s.zeroSet k true set).sl k).evgan (16 * s.row k true set + w) = 0 ∧
      ((s.zeroSet k true set).sl k).wbuf.reverse.find? (fun x => x.1 == 16 * s.row k true set + w) = none := by
  unfold State.zeroSet
  simp only [hun, if_true, State.updSl_sl_same]
  refine ⟨tget_foldl_tdel 0 _ _ (.inl (mem_wayKeys hw)), List.find?_eq_none.mpr fun x hx hk => ?_⟩
  obtain ⟨-, hnot⟩ := List.mem_filter.mp (List.mem_reverse.mp hx)
  rw [eq_of_beq hk, List.contains_iff_mem.mpr (mem_wayKeys hw)] at hnot
  exact Bool.false_ne_true hnot

end

/-- The walker's set is zeroed, if nothing else had done so. -/
def State.setZeroed (s : State) (f : Nat) (ev : Bool) (set : Nat) : State :=
  if (s.sl f).unzeroed ev set then (s.zeroSet f ev set).updSl f fun sl => { sl with evLate := sl.evLate || ev } else s

/-- The position behind that of the walker: a part without the Evgan tier ends the walk behind the on-die sets. -/
def State.nextZero (s : State) (pos : Nat) : Nat := if pos + 1 = Config.ondieSets && !s.evganPresent then 20480 else pos + 1

/-- The walker has zeroed its set and stands behind it. -/
def State.walkZeroed (s : State) (f : Nat) (ev : Bool) (set : Nat) : State :=
  let pos := (s.sl f).tk.zeroPos
  (s.setZeroed f ev set).updSl f fun sl => { sl with tk := { sl.tk with
    zeroPos := (s.setZeroed f ev set).nextZero pos, zeroed := sl.tk.zeroed.filter fun p => pos < p } }

theorem exec_zeroingWalkStep {s : State} {f : Nat} (hin : s.inReset = false) (hf : f < s.nSlices) (hp : s.pairLost f = false)
    (hz : (s.sl f).tk.zeroPos < 20480) (he : 4096 ≤ (s.sl f).tk.zeroPos → s.evRoom f 1 = true) :
    exec (.zeroingWalkStep f) s = .next (s.held (s.walkZeroed f (decide (4096 ≤ (s.sl f).tk.zeroPos))
      (if decide (4096 ≤ (s.sl f).tk.zeroPos) then (s.sl f).tk.zeroPos - 4096 else (s.sl f).tk.zeroPos))) := by
  have hev : Nat.ble Config.ondieSets (s.sl f).tk.zeroPos = decide (4096 ≤ (s.sl f).tk.zeroPos) := by
    rw [Bool.eq_iff_iff, Nat.ble_eq, decide_eq_true_iff]
    rfl
  have hroom : (!Nat.ble Config.ondieSets (s.sl f).tk.zeroPos || s.evRoom f 1) = true := by
    rw [hev]
    by_cases h : 4096 ≤ (s.sl f).tk.zeroPos
    · rw [he h, Bool.or_true]
    · rw [decide_eq_false h]; rfl
  rw [← hev]
  refine row_due hin (decide_eq_true hf) ?_
  rw [hp, hroom, decide_eq_true (show (s.sl f).tk.zeroPos < Config.ondieSets + Config.evganSets from hz)]
  rfl

section
variable (s : State) (f : Nat) (ev : Bool) (set : Nat)

theorem setZeroed_keeps : (s.setZeroed f ev set).fusing = s.fusing ∧ ∀ o, o ≠ oFlip → (s.setZeroed f ev set).reg o = s.reg o := by
  unfold State.setZeroed
  split
  · exact zeroSet_keeps s f ev set
  · exact ⟨rfl, fun _ _ => rfl⟩

theorem walkZeroed_reg {o : Nat} (ho : o ≠ oFlip) : (s.walkZeroed f ev set).reg o = s.reg o := (setZeroed_keeps s f ev set).2 o ho

theorem walkZeroed_pos : ((s.walkZeroed f ev set).sl f).tk.zeroPos =
    if (s.sl f).tk.zeroPos = 4095 ∧ s.evganPresent = false then 20480 else (s.sl f).tk.zeroPos + 1 := by
  have he : (s.setZeroed f ev set).evganPresent = s.evganPresent := flag_congr ((setZeroed_keeps s f ev set).2 oFilter (by decide)) 0
  rw [State.walkZeroed, State.updSl_sl_same, State.nextZero, he]
  simp only [Config.ondieSets, Bool.and_eq_true, decide_eq_true_eq, Bool.not_eq_true', Nat.reduceEqDiff]

/-- The set that the walker leaves is zeroed. -/
theorem walkZeroed_zeroed (hp : setPos ev set = (s.sl f).tk.zeroPos) :
    ((s.walkZeroed f ev set).sl f).unzeroed ev set = false := by
  have hlt : ¬ ((s.walkZeroed f ev set).sl f).tk.zeroPos ≤ setPos ev set := by
    rw [walkZeroed_pos, hp]
    split
    · omega
    · omega
  rw [Slice.unzeroed, decide_eq_false hlt, Bool.false_and]

/-- Every way of it reads as zeros. -/
theorem walkZeroed_wayAt (hp : setPos ev set = (s.sl f).tk.zeroPos) (hf : s.flag oFlip 0 = false)
    (hun : (s.sl f).unzeroed ev set = true) {w : Nat} (hw : w < 16) : (s.walkZeroed f ev set).wayAt f ev set w = 0 := by
  have hrow : (s.walkZeroed f ev set).row f ev set = s.row f ev set :=
    row_eq (fun p _ => walkZeroed_reg s f ev set (by simp only [oSl, oFlip]; omega)) ev set
  have hset : s.setZeroed f ev set = (s.zeroSet f ev set).updSl f fun sl => { sl with evLate := sl.evLate || ev } := if_pos hun
  rw [State.wayAt, walkZeroed_zeroed s f ev set hp, hrow, State.walkZeroed, State.updSl_sl_same, hset, State.updSl_sl_same]
  cases ev with
  | false => exact zeroSet_ondie hw hf hun
  | true =>
    obtain ⟨hev, hbuf⟩ := zeroSet_evgan hw hun
    simp only [Bool.false_eq_true, if_false, if_true, hbuf, hev]

end

theorem walkZeroed_fusing (s : State) (f : Nat) (ev : Bool) (set : Nat) : (s.walkZeroed f ev set).fusing = s.fusing :=
  (setZeroed_keeps s f ev set).1

theorem held_wayAt {s t : State} (h : t.fusing = s.fusing) (k : Nat) (ev : Bool) (set w : Nat) :
    (s.held t).wayAt k ev set w = t.wayAt k ev set w := by
  rw [State.wayAt, State.wayAt, row_eq (t := s.held t) (s := t) fun p _ => State.held_reg s h _]
  rfl

/-- The walker's position names its tier and set. -/
theorem setPos_walk (p : Nat) : setPos (decide (4096 ≤ p)) (if decide (4096 ≤ p) then p - 4096 else p) = p := by
  by_cases h : 4096 ≤ p
  · simp only [setPos, Config.ondieSets, h, decide_true, if_true]
    omega
  · simp only [setPos, h, decide_false, Bool.false_eq_true, if_false]

/-! ### The opening of the range (R398, R407, R408, R416) -/

/-- Transactions that the opening ends have released their lines, and the sweep and the fill of the range have gone. -/
def State.restartsEnded (s : State) (f : Nat) : State :=
  (((s.sl f).txns.filter fun p => p.2.restarts).foldl (fun s p =>
    (if p.2.st = .waiting then s.leaveChain f p.1 (p.2.lineAt p.2.locked) else s).release f p.1) s).updSl f fun sl =>
      { sl with sweep := none, sweepDue := false, reports := [], rebuildOn := false, initFound := []
                initPos := if sl.initPos.isSome || !sl.initFound.isEmpty then some 0 else none }

/-- The range is open, with the list of its replays. -/
def State.replaysListed (s : State) (f : Nat) : State :=
  s.updSl f fun sl =>
    { sl with tk := { sl.tk with opened := true, replays := s.replayList f }
              txns := sl.txns.map fun p => (p.1, { p.2 with resumeAt := none }) }

/-- The buddy has the counts of a takeover that opened `n` frames after it began, and the requests of the range in its queues. -/
def State.rangeAdopted (s : State) (f n : Nat) : State :=
  let o := oSl (buddy f) 0x90
  ((((s.setFld o 8 10 n).setFld o 18 11 0).adoptQueues f (buddy f)).sampleWaiting f).mergeAll (buddy f)

/-- The range opens: its requests are adopted, its sweep begins and its event is raised. -/
def State.opening (s : State) (f : Nat) : State :=
  let u := ((s.restartsEnded f).replaysListed f)
  let v := (u.rangeAdopted f (u.frame - (s.sl f).tk.frame0)).sweepStart f
  v.raise 26 (v.fld (oSl f 0x90) 2 4) (BitVec.ofNat 64 f)

theorem exec_takeoverOpen {s : State} {f : Nat} (hin : s.inReset = false) (hf : f < s.nSlices) (hp : s.pairLost f = false)
    (ha : (s.sl f).tk.active = true) (hn : (s.sl f).tk.opened = false) (hs : 1024 ≤ (s.sl f).tk.scanPos)
    (hd : (s.sl f).tk.frame0 + 258 ≤ s.frame) : exec (.takeoverOpen f) s = .next (s.held (s.opening f)) :=
  row_due hin (decide_eq_true hf) (by simp [ha, hn, hs, hd, hp])

theorem restartsEnded_kept (s : State) (f : Nat) : s.RangeKept f (s.restartsEnded f) := by
  refine State.RangeKept.updSl (foldl_keeps (P := s.RangeKept f) _ (.refl s f) fun v p _ hv => ?_) f
  exact State.RangeKept.release (.ite (hv.setChain f _ _) hv) f p.1

theorem rangeAdopted_kept (s : State) (f n : Nat) : s.RangeKept f (s.rangeAdopted f n) := by
  have hr {lo : Nat} (h : 2 ≤ lo) : RoleApart (oSl (buddy f) 0x90) lo := roleApart_sl (by decide) (.inr h)
  have h0 := ((State.RangeKept.refl s f).setFld (hr (lo := 8) (by decide)) 10 n).setFld (hr (lo := 18) (by decide)) 11 0
  exact ((h0.adoptQueues f (buddy f)).sampleWaiting f).mergeAll (buddy f)

/-- What the opening of a taken-over range leaves (R398, R416; log entry 39 for the register that shows the sweep). -/
theorem opening_reads {s : State} {f : Nat} (hf : s.sliceFailed f = true) :
    (s.opening f).fusing = s.fusing ∧ (s.opening f).flag (oSl (buddy f) 0x90) 6 = true ∧ (s.opening f).flag (oEvtPend 0) 26 = true ∧
      ((s.opening f).sl f).tk.opened = true := by
  have h1 := restartsEnded_kept s f
  have hopen : (((s.restartsEnded f).replaysListed f).sl f).tk.opened = true := by rw [State.replaysListed, State.updSl_sl_same]
  unfold State.opening
  extract_lets u v
  have h2 := rangeAdopted_kept u f (u.frame - (s.sl f).tk.frame0)
  have h3 : u.RangeKept f v := h2.sweepStart f
  have hv := h3.raise (j := 26) (by decide) (v.fld (oSl f 0x90) 2 4) (BitVec.ofNat 64 f)
  have hrole : (u.rangeAdopted f (u.frame - (s.sl f).tk.frame0)).sliceFailed f = true := by
    rw [State.sliceFailed, h2.role]
    exact (congrArg (· == 1) h1.role).trans hf
  have heng : (u.rangeAdopted f (u.frame - (s.sl f).tk.frame0)).engine f = buddy f := if_pos hrole
  have hsweep := sweepStart_flag (u.rangeAdopted f (u.frame - (s.sl f).tk.frame0)) f
  rw [heng] at hsweep
  refine ⟨hv.fusing.trans h1.fusing, (flag_congr (raise_reg_other _ _ _ (by simp only [oSl, oEvtPend]; omega)) 6).trans hsweep,
    raise_flag v 26 _ _, ?_⟩
  exact (congrArg (fun p => p.2.1) hv.slice).trans hopen

/-! ## The return (R428) -/

/-- The tests of a return whose outcome is `ok`: they pass, or end it. -/
def State.returnTested (s : State) (f : Nat) (ok : Bool) : State :=
  let s := s.useSelvedge (s.engine f)
  if ok then s.updSl f fun sl => { sl with tk := { sl.tk with tested := true } }
  else
    let s := s.updSl f fun sl => { sl with tk := { sl.tk with returning := false } }
    (s.setFlag oTakeover 6 s.anyReturn).setFlag oTakeover 7 true

section
variable {s : State} {f : Nat} (hin : s.inReset = false) (hf : f < s.nSlices) (hr : (s.sl f).tk.returning = true)
  (hs : s.sliceFailed f = true) (hp : s.pairLost f = false)
include hin hf hr hs hp

theorem exec_returnTest (ok : Bool) (hrd : s.ready = true) (ht : (s.sl f).tk.tested = false) (hv : s.selvTurn f .selftest = true) :
    exec (.returnComplete f ok) s = .next (s.held (s.returnTested f ok)) := by
  show execReturnComplete f ok s = _
  have hdue : (s.inService && s.selvTurn f .selftest) = true := by rw [State.inService, hin, hrd, hv]; rfl
  simp only [execReturnComplete, hr, hs, hp, ht, Bool.not_false, Bool.and_self, Bool.not_true, Bool.false_eq_true, if_false]
  exact row_due hin (decide_eq_true hf) hdue

theorem exec_returnMap (ok : Bool) (ht : (s.sl f).tk.tested = true) (hx : (s.sl f).txns = [])
    (hm : s.routers.mapDue.contains (f, f) = false) :
    exec (.returnComplete f ok) s = .next { s with routers := { s.routers with mapDue := s.routers.mapDue ++ [(f, f)] } } := by
  show execReturnComplete f ok s = _
  simp only [execReturnComplete, hr, hs, hp, ht, Bool.not_false, Bool.and_self, Bool.not_true, Bool.false_eq_true, if_false, if_true]
  exact (row_due hin (decide_eq_true hf) (by rw [hx, hm]; rfl)).trans (congrArg Host.Outcome.next (State.held_eq s rfl rfl rfl rfl rfl))

end

theorem useSelvedge_tk (s : State) (e k : Nat) : ((s.useSelvedge e).sl k).tk = (s.sl k).tk :=
  (congrArg (fun l => (tget {} l k).tk) (count_slices _ e 4 none)).trans
    (updSl_keeps Slice.tk (f := fun sl => { sl with slots := sl.slots ||| 0x8000 }) (fun _ => rfl) s e k)

theorem useSelvedge_fusing (s : State) (e : Nat) : (s.useSelvedge e).fusing = s.fusing :=
  count_keeps (P := fun u => u.fusing = s.fusing) e 4 none (fun _ _ _ _ _ _ hu => hu) (fun _ _ _ _ _ hu => hu) rfl

theorem returnTested_passed (s : State) (f : Nat) :
    ((s.returnTested f true).sl f).tk = { (s.sl f).tk with tested := true } := by
  rw [State.returnTested, if_pos rfl, State.updSl_sl_same, useSelvedge_tk]

/-- No other return runs, and this one has ended. -/
theorem anyReturn_ended {s : State} {f : Nat} (hf : (s.sl f).tk.returning = false)
    (ho : ∀ k, k < s.nSlices → k ≠ f → (s.sl k).tk.returning = false) : s.anyReturn = false := by
  refine List.any_eq_false.mpr fun k hk => ?_
  by_cases h : k = f
  · simp [h, hf]
  · simp [ho k (List.mem_range.mp hk) h]

theorem returnTested_failed (s : State) (f : Nat) :
    (s.returnTested f false).fusing = s.fusing ∧ ((s.returnTested f false).sl f).tk.returning = false ∧
      (s.returnTested f false).flag oTakeover 7 = true ∧
      ((∀ k, k < s.nSlices → k ≠ f → (s.sl k).tk.returning = false) → (s.returnTested f false).flag oTakeover 6 = false) := by
  unfold State.returnTested
  extract_lets u v
  rw [if_neg Bool.false_ne_true]
  have hfus : v.fusing = s.fusing := useSelvedge_fusing s (s.engine f)
  have hret : (v.sl f).tk.returning = false := congrArg (fun x => x.tk.returning) (State.updSl_sl_same u f _)
  refine ⟨by simp [hfus], by simp [hret], flag_setFlag_same _ _ _ _ (by decide), fun ho => ?_⟩
  rw [flag_setFlag_apart _ _ _ _ _ (by decide), flag_setFlag_same _ _ _ _ (by decide)]
  refine anyReturn_ended hret fun k hk hne => ?_
  have hn : v.nSlices = s.nSlices := by rw [State.nSlices, State.nSlices, hfus]
  rw [State.updSl_sl_other u hne, useSelvedge_tk]
  exact ho k (hn ▸ hk) hne

/-! ### The map switch that gives the range back -/

/-- Only the queues and the buckets of slice `f` differ, and counts of tenants (R276 to R284). -/
structure State.Requeued (s : State) (f : Nat) (u : State) : Prop where
  routers : u.routers = s.routers
  reg : ∀ o, (∀ t, o ≠ oTn t 0x30) → u.reg o = s.reg o
  other : ∀ k, k ≠ f → u.sl k = s.sl k
  tk : (u.sl f).tk = (s.sl f).tk
  c0q : (u.sl f).c0q = (s.sl f).c0q

namespace State.Requeued

section
variable {s u : State} {f : Nat} (hu : s.Requeued f u)
include hu

theorem updSl {g : Slice → Slice} (hg : ∀ v, (g v).tk = v.tk ∧ (g v).c0q = v.c0q := by exact fun _ => ⟨rfl, rfl⟩) :
    s.Requeued f (u.updSl f g) where
  routers := hu.routers
  reg := hu.reg
  other k hk := (State.updSl_sl_other u hk g).trans (hu.other k hk)
  tk := (updSl_keeps Slice.tk (fun v => (hg v).1) u f f).trans hu.tk
  c0q := (updSl_keeps Slice.c0q (fun v => (hg v).2) u f f).trans hu.c0q

theorem enqueue (q : QReq) : s.Requeued f (u.enqueue f q) := by
  unfold State.enqueue
  exact hu.updSl

theorem setBuckets (t : Nat) (c p : Int) : s.Requeued f (u.setBuckets f t c p) := by
  unfold State.setBuckets
  exact hu.updSl

theorem countYellow (t w n : Nat) : s.Requeued f (u.incFld (oTn t 0x30) 0 w n) where
  routers := hu.routers
  reg o ho := (reg_incFld_other u 0 w n (ho t)).trans (hu.reg o ho)
  other := hu.other
  tk := hu.tk
  c0q := hu.c0q

theorem colorReq (t k : Nat) : s.Requeued f (u.colorReq f t k).2 := by
  unfold State.colorReq
  dsimp only
  repeat' split
  · exact hu
  · exact hu
  · exact hu.setBuckets _ _ _
  · exact hu.setBuckets _ _ _

theorem recolorList (t : Nat) (l : List QReq) : s.Requeued f (Machine.recolorList u f t l) := by
  induction l generalizing u with
  | nil => exact hu
  | cons q l ih =>
    have hc := hu.colorReq t q.cost
    unfold Machine.recolorList
    split
    · exact hu
    next c v _ e =>
      rw [e] at hc
      have hy : s.Requeued f (if c = .yellow then v.incFld (oTn t 0x30) 0 24 1 else v) :=
        iteInduction (motive := s.Requeued f) (fun _ => hc.countYellow t 24 1) fun _ => hc
      exact ih (hy.updSl.enqueue _)

end

end State.Requeued

/-- The requests of a range leave the queues of the buddy, and those of class C0 stand in their slice (R428). -/
def State.queuesReturned (s : State) (f : Nat) : State :=
  let mine (q : QReq) : Bool := q.home == f
  let sl := s.sl (buddy f)
  (s.updSl (buddy f) fun g => { g with c0q := g.c0q.filter fun q => !mine q, queued := g.queued.filter fun q => !mine q
                                       redHold := g.redHold.filter fun q => !mine q }).updSl f fun g =>
    { g with tk := { zeroPos := g.tk.zeroPos, zeroed := g.tk.zeroed }, vtime := sl.vtime, cBkt := [], pBkt := [], c0q := sl.c0q.filter mine
             queued := [], slots := 0, redHold := sl.redHold.filter mine, evUsed := 0 }

/-- The weir of the slice has full buckets, and the other requests of its range in its queues (R276, R280, R284, R428). -/
def State.weirReturned (s : State) (f : Nat) (l : List QReq) : State :=
  let s := foldSt (List.range 64) (fun s t =>
    let (_, _, c, p) := s.meter t
    s.setBuckets f t c p) s
  let s := (bySampling l).foldl (fun s q => s.enqueue f q) s
  foldSt (((s.sl f).redHold.map fun q => q.ten).eraseDups) (fun s t => s.recolor f t) s

theorem weirReturned_requeued (s : State) (f : Nat) (l : List QReq) : s.Requeued f (s.weirReturned f l) := by
  have h1 := foldSt_keeps (P := s.Requeued f) (f := fun s t => let (_, _, c, p) := s.meter t; s.setBuckets f t c p)
    (fun v t hv => hv.setBuckets t _ _) (List.range 64) ⟨rfl, fun _ _ => rfl, fun _ _ => rfl, rfl, rfl⟩
  have h2 := foldl_keeps (P := s.Requeued f) (f := fun s q => s.enqueue f q) (bySampling l) h1 fun v q _ hv => hv.enqueue q
  exact foldSt_keeps (P := s.Requeued f) (f := fun s t => s.recolor f t) (fun v t hv => hv.recolorList t _) _ h2

/-- Both slices of the pair serve their own ranges again, and the return has ended (R428, R565). -/
def State.rolesReturned (s : State) (f : Nat) : State :=
  let s := (s.setFld (oSl f 0x90) 0 2 0).setFld (oSl (buddy f) 0x90) 0 2 0
  (s.setFlag oTakeover 6 s.anyReturn).raise 28 (s.fld (oSl f 0x90) 2 4) (BitVec.ofNat 64 f)

theorem takeBack_eq (s : State) (f : Nat) : s.takeBack f = (((s.queuesReturned f).weirReturned f
    ((s.sl (buddy f)).queued.filter fun q => q.home == f)).rolesReturned f).maintNext f := by
  rfl

theorem queuesReturned_own (s : State) (f : Nat) :
    ((s.queuesReturned f).sl f).tk.active = false ∧ ((s.queuesReturned f).sl f).tk.returning = false ∧
      ((s.queuesReturned f).sl f).c0q = (s.sl (buddy f)).c0q.filter fun q => q.home == f := by
  rw [State.queuesReturned, State.updSl_sl_same]
  exact ⟨rfl, rfl, rfl⟩

theorem queuesReturned_buddy (s : State) (f : Nat) :
    let v := (s.queuesReturned f).sl (buddy f)
    ∀ q ∈ v.c0q ++ v.queued ++ v.redHold, q.home ≠ f := by
  intro v q hq
  have hv : v = { s.sl (buddy f) with
      c0q := (s.sl (buddy f)).c0q.filter fun q => !(q.home == f), queued := (s.sl (buddy f)).queued.filter fun q => !(q.home == f)
      redHold := (s.sl (buddy f)).redHold.filter fun q => !(q.home == f) } :=
    (State.updSl_sl_other _ (buddy_ne f) _).trans (State.updSl_sl_same s (buddy f) _)
  rw [hv, ← List.filter_append, ← List.filter_append] at hq
  simpa using (List.mem_filter.mp hq).2

theorem rolesReturned_sl (s : State) (f k : Nat) : (s.rolesReturned f).sl k = s.sl k := by
  rw [State.rolesReturned, raise_sl, State.setFlag_sl, State.setFld_sl, State.setFld_sl]

theorem rolesReturned_routers (s : State) (f : Nat) : (s.rolesReturned f).routers = s.routers := by
  unfold State.rolesReturned
  extract_lets u
  obtain ⟨r, m, l, n, h⟩ := raise_same (u.setFlag oTakeover 6 u.anyReturn) 28 (u.fld (oSl f 0x90) 2 4) (BitVec.ofNat 64 f)
  rw [h, State.setFlag_routers]
  rfl

theorem rolesReturned_low (s : State) (f : Nat) {o : Nat} (hl : o < 0x100000) (ht : o ≠ oTakeover) (he : o ≠ oEvtPend 0) :
    (s.rolesReturned f).reg o = s.reg o := by
  unfold State.rolesReturned
  extract_lets u
  have ho (k : Nat) : o ≠ oSl k 0x90 := by simp only [oSl]; omega
  rw [raise_reg_other (j := 28) _ _ _ he, reg_setFlag_other _ _ _ ht, reg_setFld_other _ _ _ _ (ho _), reg_setFld_other _ _ _ _ (ho _)]

theorem rolesReturned_roles (s : State) (f : Nat) :
    (s.rolesReturned f).role f = 0 ∧ (s.rolesReturned f).role (buddy f) = 0 ∧ (s.rolesReturned f).flag (oEvtPend 0) 28 = true := by
  unfold State.rolesReturned
  extract_lets u
  have hreg (k : Nat) : ((u.setFlag oTakeover 6 u.anyReturn).raise 28 (u.fld (oSl f 0x90) 2 4) (BitVec.ofNat 64 f)).reg (oSl k 0x90) =
      u.reg (oSl k 0x90) := by
    rw [raise_reg_other (j := 28) _ _ _ (by simp only [oSl, oEvtPend]; omega), reg_setFlag_other _ _ _ (by simp only [oSl, oTakeover]; omega)]
  have hne : oSl f 0x90 ≠ oSl (buddy f) 0x90 := fun h => buddy_ne f (by simp only [oSl] at h; omega)
  refine ⟨(fld_congr (hreg f) 0 2).trans ?_, (fld_congr (hreg _) 0 2).trans (fld_setFld_same _ _ _ _ _ (by decide)), raise_flag _ 28 _ _⟩
  exact (fld_setFld_other _ _ _ _ _ _ hne).trans (fld_setFld_same _ _ _ _ _ (by decide))

/-- The slice has its range again, with the requests of the range (R428 steps 4 to 6). -/
theorem takeBack_reads (s : State) (f : Nat) :
    let t := s.takeBack f
    t.routers = s.routers ∧ t.role f = 0 ∧ t.role (buddy f) = 0 ∧ t.flag (oEvtPend 0) 28 = true ∧
      t.reg oMap = s.reg oMap ∧ t.reg oNetStatus = s.reg oNetStatus ∧
      (t.sl f).tk.active = false ∧ (t.sl f).tk.returning = false ∧ (t.sl f).c0q = ((s.sl (buddy f)).c0q.filter fun q => q.home == f) ∧
      ∀ q ∈ (t.sl (buddy f)).c0q ++ (t.sl (buddy f)).queued ++ (t.sl (buddy f)).redHold, q.home ≠ f := by
  intro t
  obtain ⟨hact, hret, hc0⟩ := queuesReturned_own s f
  have hbud := queuesReturned_buddy s f
  have hq := weirReturned_requeued (s.queuesReturned f) f ((s.sl (buddy f)).queued.filter fun q => q.home == f)
  have ht : t = (((s.queuesReturned f).weirReturned f ((s.sl (buddy f)).queued.filter fun q => q.home == f)).rolesReturned f).maintNext f :=
    takeBack_eq s f
  generalize (s.queuesReturned f).weirReturned f ((s.sl (buddy f)).queued.filter fun q => q.home == f) = w at hq ht
  obtain ⟨hrf, hrb, hev⟩ := rolesReturned_roles w f
  have hreg {o : Nat} (ho : ∀ e, o ≠ oSl e 0x50 ∧ o ≠ oSl e 0x80) : t.reg o = (w.rolesReturned f).reg o := ht ▸ maintNext_reg _ f ho
  have hlow {o : Nat} (hl : o < 0x20000) (h1 : o ≠ oTakeover) (h2 : o ≠ oEvtPend 0) : t.reg o = s.reg o :=
    (hreg fun e => by simp only [oSl]; omega).trans ((rolesReturned_low w f (by omega) h1 h2).trans
      (hq.reg o fun n => by simp only [oTn]; omega))
  have hsl {α : Type} (g : Slice → α) (hg : ∀ v m l, g { v with maint := m, summed := l } = g v) (k : Nat) : g (t.sl k) = g (w.sl k) :=
    ht ▸ (maintNext_sl_keeps g hg _ f k).trans (congrArg g (rolesReturned_sl w f k))
  have hown : (t.sl f).tk = ((s.queuesReturned f).sl f).tk := (hsl Slice.tk (fun _ _ _ => rfl) f).trans hq.tk
  refine ⟨?_, (fld_congr (hreg fun e => ?_) 0 2).trans hrf, (fld_congr (hreg fun e => ?_) 0 2).trans hrb,
    (flag_congr (hreg fun e => ?_) 28).trans hev, hlow (by decide) (by decide) (by decide), hlow (by decide) (by decide) (by decide),
    (congrArg Takeover.active hown).trans hact, (congrArg Takeover.returning hown).trans hret,
    ((hsl Slice.c0q (fun _ _ _ => rfl) f).trans hq.c0q).trans hc0, ?_⟩
  · rw [ht]
    exact (maintNext_keeps (P := fun u => u.routers = (w.rolesReturned f).routers) f (fun _ _ _ _ h => h) (fun _ _ _ _ _ h => h) rfl).trans
      ((rolesReturned_routers w f).trans hq.routers)
  · simp only [oSl]; omega
  · simp only [oSl]; omega
  · simp only [oSl, oEvtPend]; omega
  · have hb := hsl (fun v => v.c0q ++ v.queued ++ v.redHold) (fun _ _ _ => rfl) (buddy f)
    rw [hq.other _ (buddy_ne f)] at hb
    rw [hb]
    exact hbud

/-- The map fields of an epoch in which slice `f` has its own range, and its router leaves bypass (R42, R480, R482). -/
def State.mapReturned (s : State) (f : Nat) (n : Net) : State :=
  { (((s.setFld oNetStatus 32 8 ((s.fld oNetStatus 32 8 + 1) % 256)).setFld oMap (4 * f) 4 f).setFlag oNetStatus f false).setFlag oNetStatus
      (16 + f) true with routers := n }

theorem mapSwitch_own {s : State} {f : Nat} (h : s.routers.mapDue = [(f, f)]) :
    ∃ n : Net, n.mapDue = [] ∧ s.mapSwitch = (s.mapReturned f n).takeBack f := by
  have hb : (f != f) = false := by simp
  unfold State.mapSwitch
  rw [h]
  dsimp only [List.foldl]
  rw [if_pos rfl, hb]
  exact ⟨_, rfl, rfl⟩

section
variable (s : State) (f : Nat) (n : Net)

theorem mapReturned_sl (k : Nat) : (s.mapReturned f n).sl k = s.sl k := by
  show ((State.setFlag _ _ _ _).setFlag _ _ _).sl k = _
  rw [State.setFlag_sl, State.setFlag_sl, State.setFld_sl, State.setFld_sl]

variable (hf : f < 16)
include hf

theorem mapReturned_phys : (s.mapReturned f n).phys f = f := by
  have hmap : oMap ≠ oNetStatus := by decide
  refine (fld_congr ((reg_setFlag_other _ _ _ hmap).trans (reg_setFlag_other _ _ _ hmap)) _ _).trans ?_
  rw [fld_setFld_same _ _ _ _ _ (by omega)]
  exact Nat.mod_eq_of_lt hf

theorem mapReturned_status : (s.mapReturned f n).flag oNetStatus f = false :=
  (flag_setFlag_apart _ _ _ _ _ (by omega)).trans (flag_setFlag_same _ _ _ _ (by omega))

end

/-- The range is with its slice again, and its router works (R42, R428, R482). -/
theorem mapSwitch_own_reads {s : State} {f : Nat} (h : s.routers.mapDue = [(f, f)]) (hf : f < 16) :
    let t := s.mapSwitch
    t.routers.mapDue = [] ∧ t.phys f = f ∧ t.flag oNetStatus f = false ∧ t.role f = 0 ∧ t.role (buddy f) = 0 ∧ t.flag (oEvtPend 0) 28 = true ∧
      (t.sl f).tk.active = false ∧ (t.sl f).tk.returning = false ∧ (t.sl f).c0q = ((s.sl (buddy f)).c0q.filter fun q => q.home == f) ∧
      (∀ q ∈ (t.sl (buddy f)).c0q ++ (t.sl (buddy f)).queued ++ (t.sl (buddy f)).redHold, q.home ≠ f) := by
  obtain ⟨n, hn, hm⟩ := mapSwitch_own h
  obtain ⟨hroute, hown, hbuddy, hev, hmap, hstatus, hact, hret, hc0, hqueues⟩ := takeBack_reads (s.mapReturned f n) f
  rw [mapReturned_sl] at hc0
  rw [hm]
  exact ⟨(congrArg Net.mapDue hroute).trans hn, (fld_congr hmap _ _).trans (mapReturned_phys s f n hf),
    (flag_congr hstatus f).trans (mapReturned_status s f n hf), hown, hbuddy, hev, hact, hret, hc0, hqueues⟩

/-- Settles O51: each row is due and makes its change, and the work beside it leaves what it sets; the switch is `mapSwitch_own_reads`. -/
theorem takeoverAndReturn : Obligations.TakeoverAndReturn := by
  refine ⟨fun s f hin hf hp => ⟨fun ha hm hd => exec_takeoverMapWrite hin hf hp ha hm hd, fun ha hm hl hd => ?_, fun hz he => ?_⟩,
    fun s f hin hf ha hn hs hd hp hfail => ?_, fun s f hin hrd hf hr hfail hp => ⟨fun ht hv => ⟨?_, ?_⟩, fun ht hx hm b => ?_⟩,
    fun s f h hf => mapSwitch_own_reads h hf⟩
  · refine ⟨_, exec_takeoverScan hin hf hp ha hm hl hd, scanned_pos s f, fun h0 => ?_⟩
    obtain ⟨hfus, hpres, hrec, hun⟩ := scanned_unzeroed (Nat.lt_of_lt_of_le hf (nSlices_le s)) h0
    exact ⟨hpres, (State.held_flag s hfus _ _).trans hrec, hun⟩
  · intro ev set
    have hpos : setPos ev set = (s.sl f).tk.zeroPos := setPos_walk _
    refine ⟨_, exec_zeroingWalkStep hin hf hp hz he, walkZeroed_zeroed s f ev set hpos, walkZeroed_pos s f ev set, fun hflip hun w hw => ?_⟩
    exact (held_wayAt (walkZeroed_fusing s f ev set) f ev set w).trans (walkZeroed_wayAt s f ev set hpos hflip hun hw)
  · obtain ⟨hfus, hsweep, hev, hopen⟩ := opening_reads hfail
    exact ⟨_, exec_takeoverOpen hin hf hp ha hn hs hd, (State.held_flag s hfus _ _).trans hsweep, (State.held_flag s hfus _ _).trans hev, hopen⟩
  · have hk := returnTested_passed s f
    exact ⟨_, exec_returnTest hin hf hr hfail hp true hrd ht hv, congrArg Takeover.tested hk, (congrArg Takeover.returning hk).trans hr⟩
  · obtain ⟨hfus, hret, hrej, hrun⟩ := returnTested_failed s f
    exact ⟨_, exec_returnTest hin hf hr hfail hp false hrd ht hv, hret, (State.held_flag s hfus _ _).trans hrej,
      fun ho => (State.held_flag s hfus _ _).trans (hrun ho)⟩
  · exact exec_returnMap hin hf hr hfail hp b ht hx hm

end Sys2Proof.Machine
end

section
/-! SUPPORT. The statements about the queue and the reset pins. -/

namespace Sys2Proof.Machine

/-! ## The queue (log entry 6) and the reset pin (R485) -/

/-- Settles O1: each clause is a case of the definition. -/
theorem stepRunsTheFrontCommand : Obligations.StepRunsTheFrontCommand := by
  refine ⟨fun s c l => rfl, fun s h => ?_⟩
  rw [step, h]

/-- Everything that a step can do. -/
theorem step_cases {s t : State} (h : step s = .next t) :
    t = s ∨ ∃ c l, s.pending = c :: l ∧ exec c { s with pending := l } = .next t := by
  rw [step] at h
  split at h
  · cases h; exact .inl rfl
  next c l hp => exact .inr ⟨c, l, hp, h⟩

/-- Settles O3: an edge and a reading wait for the end of reset, and every other command is `live`. -/
theorem resetHoldsTheBlock : Obligations.ResetHoldsTheBlock := by
  intro i s hr ha hd
  by_cases he : ∃ l, i = .frameEdge l
  · obtain ⟨l, rfl⟩ := he
    exact congrArg Host.Outcome.next (if_pos hr)
  by_cases ht : ∃ k a b, i = .tempReading k a b
  · obtain ⟨k, a, b, rfl⟩ := ht
    exact if_pos hr
  obtain ⟨r, h⟩ := exec_live i s ha hd (fun l e => he ⟨l, e⟩) fun k a b e => ht ⟨k, a, b, e⟩
  rw [h, live_inReset hr]

/-- A command keeps what R485 says of the outputs in reset. -/
theorem exec_resetPins {i : Instr} {s t : State} (hs : s.ResetPins) (h : exec i s = .next t) : t.ResetPins := by
  intro hr
  by_cases ha : i = .resetAssert
  · subst ha; cases h; exact ⟨rfl, rfl, rfl, rfl⟩
  by_cases hd : i = .resetDeassert
  · subst hd
    obtain ⟨-, hrise, hhigh⟩ := resetPinCommands
    cases hin : s.inReset
    · cases (hhigh s hin).symm.trans h
      exact absurd hr (by simp [hin])
    · cases (hrise s hin).symm.trans h
      cases hr
  · obtain ⟨hin, -⟩ := (commandsKeepFusesQueueAndResetPin i s t h).2.2 ha hd
    have hs' := hin.symm.trans hr
    have he := (resetHoldsTheBlock i s hs' ha hd).symm.trans h
    cases he
    exact hs hr

/-- Settles O5: in reset only the pin's own commands change anything, and its fall clears the outputs. -/
theorem everyStepKeepsTheResetPins : Obligations.EveryStepKeepsTheResetPins := by
  intro s t hs h
  rcases step_cases h with rfl | ⟨c, l, -, hc⟩
  · exact hs
  · exact exec_resetPins (s := { s with pending := l }) hs hc

end Sys2Proof.Machine
end

section
/-! SUPPORT. The statements about the event log's ring, pending bits, and the register file. -/

namespace Sys2Proof.Machine

/-! ## The ring of the event log (R542) -/

/-- A count of lost entries does not touch the ring. -/
theorem logLost_ring (s : State) (n : Nat) : (s.logLost n).ring = s.ring := by
  obtain ⟨r, m, h⟩ := logLost_same s n; rw [h]

theorem logUsed_congr {s t : State} (h : t.ring = s.ring) : t.logUsed = s.logUsed := congrArg LogRing.used h

/-- An entry that finds room is one more unread. -/
theorem logPut1_used {s : State} (e : BitVec 128) (h : s.logUsed < 4096) : (s.logPut1 e).logUsed = s.logUsed + 1 := by
  simp only [State.logUsed, State.logPut1, LogRing.used] at h ⊢
  bv_omega

/-- MODE 0 makes room: RD passes at least one unread entry, and never WR. -/
theorem logDropOldest_used {s : State} (h0 : 0 < s.logUsed) : s.logDropOldest.logUsed < s.logUsed := by
  have hu (n : Nat) (hn : n = 1 ∨ n = 2) (hle : n ≤ s.logUsed) :
      ({ s.ring with rd := s.ring.rd + BitVec.ofNat 13 n } : LogRing).used < s.logUsed := by
    simp only [State.logUsed, LogRing.used] at hle ⊢
    rcases hn with rfl | rfl <;> bv_omega
  refine (congrArg LogRing.used (logLost_ring _ _)).trans_lt ?_
  dsimp only
  split
  next hc => exact hu 2 (.inr rfl) (by simp only [Bool.and_eq_true, decide_eq_true_eq] at hc; exact hc.2)
  next => exact hu 1 (.inl rfl) h0

/-- Entries that all find room keep the bound. -/
theorem foldl_logPut1_used (es : List (BitVec 128)) {s : State} (h : s.logUsed + es.length ≤ 4096) :
    (es.foldl State.logPut1 s).logUsed ≤ 4096 := by
  induction es generalizing s with
  | nil => exact h
  | cons e es ih =>
    rw [List.length_cons] at h
    exact ih (by rw [logPut1_used e (by omega)]; omega)

/-- One entry in MODE 0: the oldest makes room for it. -/
theorem logPut1_overwriting_used {s : State} (e : BitVec 128) (h : s.logUsed ≤ 4096) :
    ((if s.logUsed ≥ 4096 then s.logDropOldest else s).logPut1 e).logUsed ≤ 4096 := by
  split
  next hfull =>
    have := logDropOldest_used (s := s) (by omega)
    rw [logPut1_used e (by omega)]; omega
  next hroom => rw [logPut1_used e (by omega)]; omega

/-- Bringing entries, however many, to the ring keeps the bound in either MODE. -/
theorem logPut_used {s : State} (es : List (BitVec 128)) (h : s.logUsed ≤ 4096) : (s.logPut es).logUsed ≤ 4096 := by
  unfold State.logPut
  split
  · split
    next hroom => exact foldl_logPut1_used es hroom
    next => rw [logUsed_congr (logLost_ring _ _)]; exact h
  · exact foldl_keeps (P := fun u => u.logUsed ≤ 4096) es h fun u e _ hu => logPut1_overwriting_used e hu

theorem logFlush_used {s : State} (h : s.logUsed ≤ 4096) : s.logFlush.logUsed ≤ 4096 :=
  foldl_keeps (P := fun u => u.logUsed ≤ 4096) s.logNew (s := { s with logNew := [] }) h fun _ e _ hu => logPut_used e.2 hu

/-! ### The writes of the log at the edge (R563) -/

theorem putRd_used {s : State} (w : RegAccess) (h : s.logUsed ≤ 4096) : (s.putRd w).logUsed ≤ 4096 := by
  unfold State.putRd
  dsimp only
  split
  next hr => exact hr
  next => exact h

theorem putWo_log {s : State} {w : RegAccess} (h : w.slot = oLogPtr ∨ w.slot = oLogCtl) : s.putWo w = s.putRd w ∨ s.putWo w = s := by
  rcases h with h | h
  · left; rw [State.putWo, h]; rfl
  · right; rw [State.putWo, h]; rfl

/-- The parts of a served write but its start leave the ring alone. -/
theorem seeding_ring (s : State) (w : RegAccess) : (s.seeding w).ring = s.ring := by
  obtain ⟨c, h⟩ := seeding_form s w; rw [h]

theorem putRw_ring (s : State) (w : RegAccess) : (s.putRw w).ring = s.ring := by
  obtain ⟨r, h⟩ := putRw_form s w; rw [h]

theorem putClear_putW1c_ring (s : State) (w : RegAccess) : ((s.putW1c w).putClear w).ring = s.ring :=
  putClear_keeps (P := fun u => u.ring = s.ring) (fun u lo n v hu => by rw [State.setFld_ring, hu])
    (putW1c_keeps (P := fun u => u.ring = s.ring) (fun u b hu => by rw [State.setFlag_ring, hu]) rfl)

theorem putWo_log_used {s : State} {w : RegAccess} (hw : w.slot = oLogPtr ∨ w.slot = oLogCtl) (h : s.logUsed ≤ 4096) :
    (s.putWo w).logUsed ≤ 4096 := by
  rcases putWo_log (s := s) hw with hp | hp
  · rw [hp]; exact putRd_used w h
  · rw [hp]; exact h

/-- A served write of the log moves RD, if at all, only to where the bound holds. -/
theorem applyWrite_log_used {s : State} {w : RegAccess} (hw : w.slot = oLogPtr ∨ w.slot = oLogCtl) (h : s.logUsed ≤ 4096) :
    (s.applyWrite w).logUsed ≤ 4096 := by
  cases hu : s.unnamed w
  case true => rw [State.applyWrite, hu]; exact h
  case false =>
    cases hd : s.deadWindow w
    · rw [applyWrite_open hu hd]
      refine putWo_log_used hw ?_
      rw [logUsed_congr (putClear_putW1c_ring _ _), logUsed_congr (putRw_ring _ _), logUsed_congr (seeding_ring _ _)]
      exact h
    · rw [applyWrite_dead hu hd, logUsed_congr (putClear_putW1c_ring _ _), logUsed_congr (seeding_ring _ _)]
      exact h

theorem applyLog_used (q : List EdgeOp) {s : State} (h : s.logUsed ≤ 4096) : (s.applyLog q).logUsed ≤ 4096 := by
  refine foldl_keeps (P := fun u => u.logUsed ≤ 4096) _ h fun u e he hu => ?_
  have hl : e.toLog = true := (List.mem_filter.mp he).2
  cases e with
  | write w => exact applyWrite_log_used (by simpa [EdgeOp.toLog] using hl) hu
  | commit i v => cases hl

/-! ### The commands that write the ring -/

theorem frameEdge_used {s : State} (l : BitVec 16) (h : s.logUsed ≤ 4096) : (s.begun (s.edge l s.edgeQ) l).logUsed ≤ 4096 := by
  rw [edge_eq]
  exact applyLog_used _ (logFlush_used h)

theorem atLastEdge_used {s : State} {f : State → State} (hf : ∀ u, (f u).ring = u.ring) (h : s.logUsed ≤ 4096) :
    (s.atLastEdge f).logUsed ≤ 4096 :=
  logFlush_used ((logUsed_congr (hf _)).trans_le h)

theorem raise_ring (s : State) (j code : Nat) (d : BitVec 64) : (s.raise j code d).ring = s.ring := by
  unfold State.raise
  dsimp only
  split
  · exact State.setFlag_ring _ _ _ _
  · exact State.setFlag_ring _ _ _ _

theorem tooHot_used {s : State} (k : Nat) (c : Int) (h : s.logUsed ≤ 4096) : (s.tooHot k c).logUsed ≤ 4096 := by
  unfold State.tooHot
  split
  · obtain ⟨r, m, hs⟩ := startFail_same s 0x16; rw [hs]; exact h
  · split
    · exact h
    · refine atLastEdge_used (fun u => ?_) h
      obtain ⟨y, hy⟩ := faultDue_form (u.raise 35 0 (BitVec.ofNat 64 k ||| ((BitVec.ofInt 8 c).setWidth 64 <<< 4))) (1152 + 35) 0
        (BitVec.ofNat 64 k ||| ((BitVec.ofInt 8 c).setWidth 64 <<< 4))
      rw [hy, State.setFlag_ring]
      exact raise_ring _ _ _ _

theorem withReading_ring (s : State) (k v : Nat) : (s.withReading k v).ring = s.ring := by
  obtain ⟨r, m, h⟩ := withReading_same s k v; rw [h]

/-- Below 110 °C a reading writes no entry. -/
theorem takeReading_ring {s : State} (k : Nat) {c : Int} (h : ¬ 110 ≤ c) : (s.takeReading k (some c)).ring = s.ring := by
  have hr := withReading_ring s k (BitVec.ofInt 8 c).toNat
  rw [takeReading_some]
  refine (congrArg State.ring (if_neg h)).trans ?_
  split
  · exact hr
  · exact hr

theorem takeReading_used {s : State} (k : Nat) (r : Option Int) (h : s.logUsed ≤ 4096) : (s.takeReading k r).logUsed ≤ 4096 := by
  cases r with
  | none => rw [takeReading_none, logUsed_congr (withReading_ring _ _ _)]; exact h
  | some c =>
    by_cases hc : 110 ≤ c
    · rw [takeReading_hot s k hc]
      exact tooHot_used k c (by rw [logUsed_congr (withReading_ring _ _ _)]; exact h)
    · rw [logUsed_congr (takeReading_ring k hc)]; exact h

/-- Everything that a step with a condition can answer. -/
theorem when'_cases {p : Bool} {s t u : State} (h : when' p s t = .next u) : u = s ∨ u = t := by
  cases p <;> cases h
  · exact .inl rfl
  · exact .inr rfl

theorem tempReading_used {s t : State} {k : Nat} {a b : Option Int} (h : s.logUsed ≤ 4096) (ht : exec (.tempReading k a b) s = .next t) :
    t.logUsed ≤ 4096 := by
  rcases liveAtEdge_cases ht with ⟨-, rfl⟩ | ⟨-, u, hu, rfl⟩
  · exact h
  · obtain ⟨-, hu⟩ := need_next hu
    split at hu
    · cases hu; exact h
    · rcases when'_cases hu with rfl | rfl
      · exact h
      · exact takeReading_used k (readingOf a b) h

/-- Every command keeps the bound: of those that leave reset alone only the edge and a reading write the ring. -/
theorem exec_logUsed {i : Instr} {s t : State} (h : s.logUsed ≤ 4096) (ht : exec i s = .next t) : t.logUsed ≤ 4096 := by
  by_cases ha : i = .resetAssert
  · subst ha; cases ht
    exact (by decide : State.reset.logUsed ≤ 4096)
  by_cases hd : i = .resetDeassert
  · subst hd; cases ht
    split <;> exact h
  by_cases he : ∃ l, i = .frameEdge l
  · obtain ⟨l, rfl⟩ := he; cases ht
    split
    · exact h
    · exact frameEdge_used l h
  by_cases hr : ∃ k a b, i = .tempReading k a b
  · obtain ⟨k, a, b, rfl⟩ := hr
    exact tempReading_used h ht
  · obtain ⟨-, hkeep⟩ := (commandsKeepFusesQueueAndResetPin i s t ht).2.2 ha hd
    exact (logUsed_congr ((hkeep fun l e => he ⟨l, e⟩).2 fun k a b e => hr ⟨k, a, b, e⟩)).trans_le h

/-- Settles O22: an entry that finds the ring full is lost or makes the oldest give way, and RD is not moved to where more would be unread. -/
theorem logRingNeverOverflows : Obligations.LogRingNeverOverflows := by
  refine ⟨fun s t h ht => ?_, fun s es _ h => logPut_used es h⟩
  rcases step_cases ht with rfl | ⟨c, l, -, hc⟩
  · exact h
  · exact exec_logUsed (s := { s with pending := l }) h hc

/-! ## Pending bits (R535) -/

theorem flag_incFld_apart (s : State) (o lo w n b : Nat) (h : b < lo ∨ lo + w ≤ b) : (s.incFld o lo w n).flag o b = s.flag o b :=
  flag_setFld_apart s o lo w _ b h

/-- A slice source from 64 on sets its event bit in the second register, beside the count of lost entries. -/
theorem raiseSl_flag_high (s : State) (k code : Nat) {i : Nat} (d : BitVec 64) (h64 : 64 ≤ i) (h72 : i < 72) :
    (s.raiseSl k i code d).flag (oSl k 0xB0) (i - 64) = true := by
  have hp : (s.pendSl k i).flag (oSl k 0xB0) (i - 64) = true := by
    rw [State.pendSl, if_neg (by omega)]
    exact flag_setFlag_same _ _ _ _ (by omega)
  unfold State.raiseSl
  dsimp only
  split
  · split
    · exact hp
    · rw [flag_incFld_apart _ _ _ _ _ _ (.inl (by omega)), hp]
  · exact hp

/-- Settles O21: the bit is set first, and neither the entry nor the count of lost entries touches it. -/
theorem raisingSetsThePendingBit : Obligations.RaisingSetsThePendingBit := by
  refine ⟨fun s j code d _ => raise_flag s j code d, fun s k i code d hi => ?_⟩
  by_cases h64 : i < 64
  · rw [if_pos h64, Nat.mod_eq_of_lt h64]
    exact raiseSl_flag s k code d h64
  · have hm : i % 64 = i - 64 := by omega
    rw [if_neg h64, hm]
    exact raiseSl_flag_high s k code d (by omega) hi

/-! ## Writes at the edge (R563) -/

/-- Bits that are cleared one after the other are clear, and the others stay. -/
theorem foldSt_clear_flag (o b : Nat) (l : List Nat) (hl : ∀ c ∈ l, c < 64) (s : State) :
    (foldSt l (fun s c => s.setFlag o c false) s).flag o b = (s.flag o b && !decide (b ∈ l)) := by
  induction l generalizing s with
  | nil => simp
  | cons c l ih =>
    rw [foldSt_cons, ih fun c hc => hl c (List.mem_cons_of_mem _ hc)]
    by_cases hb : b = c
    · subst hb
      rw [flag_setFlag_same _ _ _ _ (hl b List.mem_cons_self)]
      simp
    · rw [flag_setFlag_apart _ _ _ _ _ hb]
      simp [hb]

/-- A W1C bit written 1 clears unless the block set it in the frame (R535). -/
theorem putW1c_flag (s : State) (w : RegAccess) {b : Nat} (hb : b < 64) :
    (s.putW1c w).flag w.slot b =
      (s.flag w.slot b && !((w1cMask w.slot).getLsbD b && w.starts b && tget 0 s.marks (64 * w.slot + b) == 0)) := by
  unfold State.putW1c
  dsimp only
  rw [foldSt_clear_flag _ _ _ fun c hc => List.mem_range.mp (List.mem_filter.mp hc).1]
  simp [hb, RegAccess.starts, Bool.and_assoc, beq_eq_decide]

/-- An RW field takes what the write covers of it (R560). -/
theorem putRw_flag (s : State) (w : RegAccess) {b : Nat} (hb : b < 64) :
    (s.putRw w).flag w.slot b =
      if (rwMask w.slot).getLsbD b && w.mask.getLsbD b then w.value.getLsbD b else s.flag w.slot b := by
  unfold State.putRw
  dsimp only
  split
  next hm =>
    have h := congrArg (BitVec.getLsbD · b) hm
    simp only [BitVec.getLsbD_and, BitVec.ofNat_eq_ofNat, BitVec.getLsbD_zero] at h
    simp [h]
  next =>
    rw [State.flag, reg_setReg_same]
    simp only [BitVec.getLsbD_or, BitVec.getLsbD_and, BitVec.getLsbD_not, hb, decide_true, Bool.true_and]
    cases (rwMask w.slot).getLsbD b <;> cases w.mask.getLsbD b <;> simp [State.flag]

/-- Settles O23: W1C bits are cleared one by one, and a covered field is replaced. -/
theorem edgeWritesClearAndReplace : Obligations.EdgeWritesClearAndReplace := by
  refine ⟨fun s w b hb => ⟨putW1c_flag s w hb, fun o ho => putW1c_reg fun h => absurd h ho⟩,
    fun s w b hb => ⟨putRw_flag s w hb, fun o ho => putRw_reg fun h => absurd h ho⟩⟩

/-! ## The register file (R557, R566) -/

section
variable {α : Type}

theorem mem_tput {k : Nat} {v : α} {t : Tbl α} {p : Nat × α} (h : p ∈ tput k v t) : p = (k, v) ∨ p ∈ t := by
  induction t with
  | nil => exact .inl (List.mem_singleton.mp h)
  | cons q t ih =>
    rw [tput] at h
    split at h
    · exact List.mem_cons.mp h
    · split at h
      · exact (List.mem_cons.mp h).imp_right (List.mem_cons_of_mem _)
      · rcases List.mem_cons.mp h with rfl | h
        · exact .inr List.mem_cons_self
        · exact (ih h).imp_right (List.mem_cons_of_mem _)

theorem tdel_sublist (k : Nat) (t : Tbl α) : (tdel k t).Sublist t := by
  induction t with
  | nil => exact .slnil
  | cons p t ih =>
    rw [tdel]
    split
    · exact ih.cons _
    · exact ih.cons_cons _

/-- A table with a value listed in it keeps its indices rising. -/
theorem tput_rising {k : Nat} {v : α} {t : Tbl α} (h : (t.map Prod.fst).Pairwise (· < ·)) : ((tput k v t).map Prod.fst).Pairwise (· < ·) := by
  induction t with
  | nil => exact List.pairwise_singleton _ _
  | cons p t ih =>
    obtain ⟨hp, ht⟩ := List.pairwise_cons.mp h
    rw [tput]
    split
    next hlt =>
      refine List.pairwise_cons.mpr ⟨fun j hj => ?_, h⟩
      rcases List.mem_cons.mp hj with rfl | hj
      · exact hlt
      · exact Nat.lt_trans hlt (hp j hj)
    next hge =>
      split
      next heq => subst heq; exact h
      next hne =>
        refine List.pairwise_cons.mpr ⟨fun j hj => ?_, ih ht⟩
        obtain ⟨q, hq, rfl⟩ := List.mem_map.mp hj
        rcases mem_tput hq with rfl | hq
        · exact Nat.lt_of_le_of_ne (Nat.le_of_not_lt hge) fun e => hne e.symm
        · exact hp q.1 (List.mem_map_of_mem hq)

end

/-- A stored register keeps the table canonical: its reset value is not listed. -/
theorem setReg_regsWf {s : State} (o : Nat) (v : Reg) (h : s.RegsWf) : (s.setReg o v).RegsWf := by
  obtain ⟨hrise, hlist⟩ := h
  unfold State.RegsWf State.setReg tputD
  dsimp only
  split
  next =>
    have hsub := tdel_sublist o s.regs
    exact ⟨hrise.sublist (hsub.map _), fun p hp => hlist p (hsub.subset hp)⟩
  next hv =>
    refine ⟨tput_rising hrise, fun p hp => ?_⟩
    rcases mem_tput hp with rfl | hp
    · exact hv
    · exact hlist p hp

/-- Settles O7: the laws of registers and fields, and the canonical form. -/
theorem storedRegistersAndFieldsReadBack : Obligations.StoredRegistersAndFieldsReadBack :=
  ⟨fun s o v => ⟨reg_setReg_same s o v, fun _ hp => reg_setReg_other s v hp, setReg_regsWf o v⟩,
    fun s o lo w v h => ⟨fld_setFld_same s o lo w v h, fun b hb => flag_setFld_apart s o lo w v b hb,
      fun _ hp => reg_setFld_other s lo w v hp⟩⟩

end Sys2Proof.Machine
end

section
/-! SUPPORT. The statement about register reads: how the port answers one, and what the registers read as. -/

namespace Sys2Proof.Machine

/-! ## The answer of the port (R527, R559, R562) -/

theorem exec_registerWrite {s : State} {w : RegAccess} (hin : s.inReset = false) (hi : w.init < 16) :
    exec (.registerWrite w) s = .next (s.held (s.portAccess w)) :=
  row_due hin (decide_eq_true hi) rfl

theorem serve_read {s : State} {w : RegAccess} (hr : w.read = true) : s.serve w = s.answerRead w (s.asShown.readReg w) := if_pos hr

theorem portAccess_read_refused {s : State} {w : RegAccess} (hr : w.read = true) (ha : w.accepted = false) : s.portAccess w = s.answerRead w 0 := by
  simp [State.portAccess, ha, hr]

theorem portAccess_read_served {s : State} {w : RegAccess} (hr : w.read = true) (ha : w.accepted = true) (ht : s.toSlice w = none)
    (hp : s.bus.port = []) : s.portAccess w = s.answerRead w (s.asShown.readReg w) := by
  simp [State.portAccess, ha, hr, ht, hp, serve_read]

theorem portAccess_read_waits {s : State} {w : RegAccess} (hr : w.read = true) (ha : w.accepted = true)
    (hw : (s.toSlice w).isSome = true ∨ s.bus.port ≠ []) :
    s.portAccess w = { s with bus := { s.bus with port := s.bus.port ++ [w] } } := by
  have hc : (!s.bus.port.isEmpty || (s.toSlice w).isSome) = true := by simpa [or_comm] using hw
  simp [State.portAccess, ha, hr, hc]

/-- The only access that waits leaves the queue empty. -/
theorem portNext_single {s : State} {w : RegAccess} (hp : s.bus.port = [w]) (ok : Bool) :
    s.portNext ok = drainPort (if ok then s.serve w else if w.read then s.answerRead w (w.part (BitVec.allOnes 64)) else s) [] := by
  simp only [State.portNext, hp]

/-! ## What registers read as (R558 to R561, R565) -/

/-- What a read of 8 bytes returns. -/
def State.word (s : State) (init o : Nat) : Reg :=
  match sliceOff o with
  | some (k, p) => if k < s.nSlices then s.readSlice k p else 0
  | none => s.readBlock init o

theorem readReg_refused {s : State} {w : RegAccess} (ha : w.accepted = false) : s.readReg w = 0 := by
  simp [State.readReg, ha]

theorem readReg_part {s : State} {w : RegAccess} (ha : w.accepted = true) : s.readReg w = w.part (s.word w.init w.slot) := by
  rw [State.readReg, if_neg (by simp [ha])]
  rfl

/-- An access of 8 bytes that the port accepts lies at its slot. -/
theorem slot_of_word {w : RegAccess} (ha : w.accepted = true) (h8 : w.size = 8) : w.slot = w.off := by
  obtain ⟨hm, -⟩ : w.off % 8 = 0 ∧ w.off < 0x200000 := by simpa [RegAccess.accepted, h8] using ha
  simp only [RegAccess.slot]; omega

theorem readReg_word {s : State} {w : RegAccess} (ha : w.accepted = true) (h8 : w.size = 8) : s.readReg w = s.word w.init w.off := by
  rw [readReg_part ha, slot_of_word ha h8]
  exact if_pos h8

/-- The slot of an accepted access is one that the port accepts. -/
theorem accepted_slot {w : RegAccess} (ha : w.accepted = true) : RegAccess.accepted { w with off := w.slot, size := 8 } = true := by
  obtain ⟨-, hl⟩ : _ ∧ w.off < 0x200000 := by simpa [RegAccess.accepted] using ha
  have hs : w.slot % 8 = 0 ∧ w.slot < 0x200000 := by simp only [RegAccess.slot]; omega
  simp [RegAccess.accepted, hs]

/-- A read of 4 bytes returns its half of the slot (R558). -/
theorem readReg_half {s : State} {w : RegAccess} (ha : w.accepted = true) (h4 : w.size = 4) :
    s.readReg w = (let v := s.readReg { w with off := w.slot, size := 8 }; if w.off % 8 = 4 then v >>> 32 else v &&& 0xFFFFFFFF) := by
  rw [readReg_word (accepted_slot ha) rfl, readReg_part ha]
  exact if_neg (by rw [h4]; decide)

theorem word_block {s : State} {o : Nat} (init : Nat) (h : o < 0x100000) : s.word init o = s.readBlock init o := by
  rw [State.word, sliceOff, if_neg (by omega)]

theorem sliceOff_oSl {k p : Nat} (hk : k < 16) (hp : p < 0x10000) : sliceOff (oSl k p) = some (k, p) := by
  have ho : 0x100000 ≤ oSl k p ∧ oSl k p < 0x200000 := by simp only [oSl]; omega
  have h1 : (oSl k p - 0x100000) / 0x10000 = k := by simp only [oSl]; omega
  have h2 : (oSl k p - 0x100000) % 0x10000 = p := by simp only [oSl]; omega
  rw [sliceOff, if_pos ho, h1, h2]

theorem word_slice {s : State} {k p : Nat} (init : Nat) (hk : k < 16) (hp : p < 0x10000) :
    s.word init (oSl k p) = if k < s.nSlices then s.readSlice k p else 0 := by
  rw [State.word, sliceOff_oSl hk hp]

/-- A tenant's register, and those of the list, read as they are stored. -/
theorem readBlock_stored {s : State} {o : Nat} (init : Nat)
    (h : 0x20000 ≤ o ∧ o < 0x24000 ∨ o ∈ [oRinv, oScrub, oFilter, oMeminit, oTakeover, oCalendar, oLogCtl]) :
    o < 0x100000 ∧ s.readBlock init o = s.reg o := by
  rcases h with h | h
  · refine ⟨by omega, ?_⟩
    have hne : o ≠ 0 ∧ o ≠ 8 ∧ o ≠ oCfg ∧ o ≠ oSlot ∧ o ≠ oEvtSummary ∧ o ≠ oLogPtr := by
      simp only [oCfg, oSlot, oEvtSummary, oLogPtr]; omega
    obtain ⟨h0, h8, hcfg, hslot, hsum, hptr⟩ := hne
    have hst : ¬ (oStream 0 ≤ o ∧ o < oStream 4) := by simp only [oStream]; omega
    simp only [State.readBlock, h0, h8, hcfg, hslot, hst, hsum, hptr, if_false]
    rw [if_neg (by omega), if_neg (by omega)]
  · simp only [List.mem_cons, List.not_mem_nil, or_false] at h
    rcases h with rfl | rfl | rfl | rfl | rfl | rfl | rfl <;> exact ⟨by decide, rfl⟩

/-- A half of an entry of the log's ring (R542). -/
theorem readBlock_ring {s : State} {i j : Nat} (init : Nat) (hi : i < 4096) (hj : j < 2) :
    s.readBlock init (0x10000 + 16 * i + 8 * j) = bits (tget 0 s.ring.entries i) (64 * j) 64 := by
  have hne : 0x10000 + 16 * i + 8 * j ≠ 0 ∧ 0x10000 + 16 * i + 8 * j ≠ 8 ∧ 0x10000 + 16 * i + 8 * j ≠ oCfg ∧
      0x10000 + 16 * i + 8 * j ≠ oSlot ∧ 0x10000 + 16 * i + 8 * j ≠ oEvtSummary ∧ 0x10000 + 16 * i + 8 * j ≠ oLogPtr := by
    simp only [oCfg, oSlot, oEvtSummary, oLogPtr]; omega
  obtain ⟨h0, h8, hcfg, hslot, hsum, hptr⟩ := hne
  have hst : ¬ (oStream 0 ≤ 0x10000 + 16 * i + 8 * j ∧ 0x10000 + 16 * i + 8 * j < oStream 4) := by simp only [oStream]; omega
  have hn : (0x10000 + 16 * i + 8 * j - 0x10000) / 16 = i := by omega
  have hh : (0x10000 + 16 * i + 8 * j) / 8 % 2 = j := by omega
  simp only [State.readBlock, h0, h8, hcfg, hslot, hst, hsum, hptr, if_false]
  rw [if_pos (by omega), hn, hh]

theorem readSlice_presence {s : State} {k a : Nat} (ha : a < 24) :
    s.readSlice k (0x100 + 8 * a) = BitVec.ofNat 64 (s.presence k a % 2 ^ 21) := by
  have hn : (0x100 + 8 * a - 0x100) / 8 = a := by omega
  simp only [State.readSlice]
  rw [if_pos (by omega), hn, rfield, BitVec.shiftLeft_zero]
  exact BitVec.eq_of_toNat_eq (by simp)

theorem readSlice_frozen {s : State} {k p : Nat} (hd : s.sliceFailed k = true ∨ s.pairLost k = true) (hp : p < 0x100) :
    s.readSlice k p = s.reg (oSl k p) := by
  have hd' : ((s.sliceFailed k || s.pairLost k) && decide (p < 0x100)) = true := by simpa [hp] using hd
  simp only [State.readSlice]
  rw [if_neg (by omega), if_pos hd']

/-- Settles O56: each row is a branch of `portAccess`, and each register one of `readBlock` or `readSlice`; the fields that reads show come from
the edge. -/
theorem registerReads : Obligations.RegisterReads := by
  refine ⟨fun s w hin hi hr => ⟨fun ha => ?_, fun ha ht hp => ?_, fun ha hw => ?_, fun hp => ?_⟩,
    fun s w => ⟨readReg_refused, readReg_half, fun ha h8 => ?_⟩, fun s w o i v c f => ⟨rfl, rfl, rfl, rfl⟩⟩
  · rw [exec_registerWrite hin hi, portAccess_read_refused hr ha]; rfl
  · rw [exec_registerWrite hin hi, portAccess_read_served hr ha ht hp]; rfl
  · rw [exec_registerWrite hin hi, portAccess_read_waits hr ha hw]; rfl
  · rw [portNext_single hp, portNext_single hp, serve_read hr, hr]
    exact ⟨rfl, rfl, rfl, rfl⟩
  · rw [readReg_word ha h8]
    refine ⟨fun ho => ?_, fun ho => ?_, fun ho => ?_, fun ho => ?_, fun i hi => ⟨fun ho => ?_, fun ho => ?_⟩, fun k p ho hp hk => ?_⟩
    · rw [ho]; rfl
    · rw [ho]; rfl
    · obtain ⟨hb, he⟩ := readBlock_stored (s := s) w.init ho
      rw [word_block _ hb, he]
    · rw [ho]; rfl
    · rw [ho, word_block _ (by omega)]
      exact readBlock_ring (j := 0) w.init hi (by omega)
    · rw [ho, word_block _ (by omega), show 0x10008 + 16 * i = 0x10000 + 16 * i + 8 * 1 by omega]
      exact readBlock_ring w.init hi (by omega)
    · rw [ho, word_slice _ hk hp]
      refine ⟨fun hn => if_neg (by omega), fun hn => ⟨fun a ha ho => ?_, fun hd h1 => ?_⟩⟩
      · rw [if_pos hn, ho, readSlice_presence ha]
      · rw [if_pos hn, readSlice_frozen hd h1]

end Sys2Proof.Machine
end

section
/-! SUPPORT. The statement about the maintenance service bus: grants, transfers that time out, and the collector's entry. -/

namespace Sys2Proof.Machine

/-! ## Grants (R525, R526) -/

/-- Only what the bus remembers of losses differs (R526). -/
def State.SameButLosses (s t : State) : Prop := ∃ l h, t = { s with bus := { s.bus with losses := l, holdOff := h } }

theorem loses_form (s : State) (n : Nat) (m : Master) : s.SameButLosses (s.loses n m) := by
  unfold State.loses
  split
  · exact ⟨s.bus.losses, s.bus.holdOff, rfl⟩
  · exact ⟨_, _, rfl⟩

theorem wins_form (s : State) (m : Master) : s.SameButLosses (s.wins m) := ⟨_, _, rfl⟩

theorem State.SameButLosses.trans {s t u : State} (h : s.SameButLosses t) (g : t.SameButLosses u) : s.SameButLosses u := by
  obtain ⟨l, h, rfl⟩ := h; obtain ⟨l', h', rfl⟩ := g; exact ⟨l', h', rfl⟩

theorem foldl_loses_form (l : List Master) (n : Nat) {s u : State} (h : s.SameButLosses u) :
    s.SameButLosses (l.foldl (fun u r => u.loses n r) u) :=
  foldl_keeps (P := fun v => s.SameButLosses v) l h fun v r _ hv => hv.trans (loses_form v n r)

/-- The state after a boundary at which the master `m` wins over the others of `rest`. -/
def State.contested (s : State) (b : Nat) (m : Master) (rest : List Master) : State :=
  rest.foldl (fun u r => u.loses (8 * s.frame + b) r) (State.wins { s with bus := { s.bus with nextAt := 8 * s.frame + b + 1 } } m)

theorem contested_form (s : State) (b : Nat) (m : Master) (rest : List Master) :
    State.SameButLosses { s with bus := { s.bus with nextAt := 8 * s.frame + b + 1 } } (s.contested b m rest) :=
  foldl_loses_form rest _ (wins_form _ m)

/-- The collector's transfer counts against EVT_RATE, and moves its turn (R525, R540). -/
def State.collects (s : State) (m : Master) (k : Nat) : State :=
  if m = .collector then { s with bus := { s.bus with evtSent := s.bus.evtSent + 1, lastRr := k } } else s

section
variable {s : State} {b : Nat} {m : Master} {rest : List Master}

theorem exec_busTransferGrant (hin : s.inReset = false) (hb : b < 8) (ho : s.bus.owner = none) (hn : s.bus.nextAt ≤ 8 * s.frame + b)
    (hr : s.requesters b = m :: rest) (ok : Bool) :
    exec (.busTransferGrant b ok) s = .next (s.held (
      let u := (s.contested b m rest).collects m ((s.wants m b).getD 0)
      if ok && m != .collector then u.transferEnd m true
      else { u with bus := { u.bus with owner := some (m, (s.wants m b).getD 0, u.frame) } })) := by
  have hc : (s.bus.owner.isSome || decide (8 * s.frame + b < s.bus.nextAt)) = false := by simp [ho, hn]
  have hr' : State.requesters { s with bus := { s.bus with nextAt := 8 * s.frame + b + 1 } } b = m :: rest := hr
  change execBusTransferGrant b ok s = _
  simp only [execBusTransferGrant, hb, decide_true, need_true, hc, Bool.false_eq_true, if_false, hr', live_next hin]
  cases m <;> rfl

end

/-! ## Transfers that time out (R527) -/

theorem buildRecord_bus (s : State) (i : NvmItem) : (s.buildRecord i).bus = s.bus := by
  have hn : s.nextSlot.2.bus = s.bus := by
    unfold State.nextSlot; split <;> rfl
  exact hn

theorem gather_bus (s : State) (v : BitVec 128) : (s.gather v).bus = s.bus := by
  unfold State.gather
  dsimp only
  split
  · split
    · rfl
    · exact buildRecord_bus _ _
  · rfl

theorem cfgCmd_bus (s : State) (i c : Nat) : (s.cfgCmd i c).bus = s.bus := by
  unfold State.cfgCmd
  dsimp only
  split
  · rfl
  · exact Unseen.ite_reads (obs := State.bus) rfl rfl
  · rfl
  · rfl

theorem rwl_bus (s : State) (w : RegAccess) : (s.rwl w).bus = s.bus := by
  unfold State.rwl
  exact Unseen.ite_reads (obs := State.bus) rfl rfl

theorem serve_bus (s : State) (w : RegAccess) : (s.serve w).bus = s.bus := by
  have hr : (if s.isRwl w then s.rwl w else s).bus = s.bus := Unseen.ite_reads (rwl_bus s w) rfl
  have hc : (if w.mask.getLsbD 0 then s.cfgCmd w.init (w.value.toNat % 4) else s).bus = s.bus := Unseen.ite_reads (cfgCmd_bus s _ _) rfl
  exact Unseen.ite_reads (obs := State.bus) rfl (Unseen.ite_reads rfl (Unseen.ite_reads hc (Unseen.ite_reads hr hr)))

/-- The port's queue is all that it changes of the bus. -/
theorem drainPort_owner (l : List RegAccess) (s : State) : (drainPort s l).bus.owner = s.bus.owner := by
  induction l generalizing s with
  | nil => rfl
  | cons w l ih =>
    rw [drainPort]
    split
    · rfl
    · rw [ih, serve_bus]

theorem portNext_owner (s : State) (ok : Bool) : (s.portNext ok).bus.owner = s.bus.owner := by
  unfold State.portNext
  split
  · rfl
  · dsimp only
    rw [drainPort_owner]
    split
    · rw [serve_bus]
    · split <;> rfl

theorem sample2_owner (s : State) (n : Nat) (ok : Bool) : (s.sample2 n ok).bus.owner = s.bus.owner :=
  Unseen.ite_reads (obs := fun u => u.bus.owner) rfl rfl

theorem debugMove_owner (s : State) (d : Nat × List Reg × Nat) (ok : Bool) : (s.debugMove d ok).bus.owner = s.bus.owner :=
  Unseen.ite_reads (obs := fun u => u.bus.owner) rfl rfl

/-- What a transfer carries does not grant the bus again. -/
theorem transferEnd_owner (s : State) (m : Master) (ok : Bool) : (s.transferEnd m ok).bus.owner = s.bus.owner := by
  cases m with
  | collector => rfl
  | gatherer => exact congrArg Bus.owner (gather_bus s _)
  | regPort => exact portNext_owner s ok
  | sampler =>
    rw [State.transferEnd]
    split
    · exact sample2_owner _ _ _
    · rfl
  | debug =>
    rw [State.transferEnd]
    split
    · exact debugMove_owner _ _ _
    · rfl

theorem exec_busTimeout {s : State} {m : Master} {k f : Nat} (hin : s.inReset = false) (ho : s.bus.owner = some (m, k, f))
    (hw : f + s.busWd ≤ s.frame) :
    exec .busTimeout s = .next (s.held ((((State.transferEnd { s with bus := { s.bus with owner := none } } m false).incFld oBus 16 16 1).raise
      38 m.rank (BitVec.ofNat 64 k)))) := by
  change execBusTimeout s = _
  simp only [execBusTimeout, ho, hw, decide_true, when'_true, live_next hin]

/-- A write whose transfer timed out is lost. -/
theorem transferEnd_lostWrite {s : State} {w : RegAccess} (hp : s.bus.port = [w]) (hw : w.read = false) :
    s.transferEnd .regPort false = { s with bus := { s.bus with port := [] } } := by
  simp only [State.transferEnd, State.portNext, hp, hw, Bool.false_eq_true, if_false, drainPort]

/-- What the sampler moves of a counter: its latched value, or all ones (R527, R546). -/
def State.sampled (s : State) (ok : Bool) (i : Nat) : Reg := (if ok then tget 0 s.pmc.latch i else BitVec.allOnes 64) &&& 0x1FFFFFFFFFFFF

theorem sample2_more {s : State} {n : Nat} (ok : Bool) (hl : n + 1 < 4 * s.nSlices) :
    s.sample2 n ok = { (s.setReg (oPmcSnap (2 * n)) (s.sampled ok (2 * n))).setReg (oPmcSnap (2 * n + 1)) (s.sampled ok (2 * n + 1)) with
      bus := { s.bus with sampling := some (n + 1) } } :=
  if_pos hl

theorem sampled_late (s : State) (i : Nat) : s.sampled false i = 0x1FFFFFFFFFFFF := BitVec.allOnes_and

/-- Two counters of the snapshot read as all ones, in the 49 bits of their registers (R546). -/
theorem transferEnd_sampler {s : State} {n : Nat} (hn : s.bus.sampling = some n) (hl : n + 1 < 4 * s.nSlices) :
    (s.transferEnd .sampler false).bus.sampling = some (n + 1) ∧
      ∀ i, i = 2 * n ∨ i = 2 * n + 1 → (s.transferEnd .sampler false).reg (oPmcSnap i) = 0x1FFFFFFFFFFFF := by
  have ht : s.transferEnd .sampler false = s.sample2 n false := by simp only [State.transferEnd, hn]
  have hreg (o : Nat) : (s.sample2 n false).reg o =
      ((s.setReg (oPmcSnap (2 * n)) (s.sampled false (2 * n))).setReg (oPmcSnap (2 * n + 1)) (s.sampled false (2 * n + 1))).reg o := by
    rw [sample2_more _ hl]; rfl
  have hne : oPmcSnap (2 * n) ≠ oPmcSnap (2 * n + 1) := by simp only [oPmcSnap]; omega
  rw [ht]
  refine ⟨by rw [sample2_more _ hl], fun i hi => ?_⟩
  rcases hi with rfl | rfl
  · rw [hreg, reg_setReg_other _ _ hne, reg_setReg_same, sampled_late]
  · rw [hreg, reg_setReg_same, sampled_late]

/-- The first two words of a debug read (R533). -/
theorem transferEnd_debug_first {s : State} {k : Nat} {l : List Reg} (hd : s.bus.debug = some (k, l, 0)) :
    (s.transferEnd .debug false).bus.debug = some (k, l, 1) ∧
      ∀ i, i < 2 → (s.transferEnd .debug false).reg (oDbgData i) = BitVec.allOnes 64 := by
  have ht : s.transferEnd .debug false =
      { (s.setReg (oDbgData 0) (BitVec.allOnes 64)).setReg (oDbgData 1) (BitVec.allOnes 64) with
        bus := { s.bus with debug := some (k, l, 1) } } := by
    simp only [State.transferEnd, hd]; rfl
  have hreg (o : Nat) : (s.transferEnd .debug false).reg o =
      ((s.setReg (oDbgData 0) (BitVec.allOnes 64)).setReg (oDbgData 1) (BitVec.allOnes 64)).reg o := by rw [ht]; rfl
  refine ⟨by rw [ht], fun i hi => ?_⟩
  obtain rfl | rfl : i = 0 ∨ i = 1 := by omega
  · rw [hreg, reg_setReg_other _ _ (by decide), reg_setReg_same]
  · rw [hreg, reg_setReg_same]

/-- The other three words, and DONE. -/
theorem transferEnd_debug_last {s : State} {k : Nat} {l : List Reg} (hd : s.bus.debug = some (k, l, 1)) :
    (s.transferEnd .debug false).bus.debug = none ∧ (s.transferEnd .debug false).flag oDbg 25 = true ∧
      ∀ i, i ∈ [2, 3, 4] → (s.transferEnd .debug false).reg (oDbgData i) = BitVec.allOnes 64 := by
  let moved := ((s.setReg (oDbgData 2) (BitVec.allOnes 64)).setReg (oDbgData 3) (BitVec.allOnes 64)).setReg (oDbgData 4) (BitVec.allOnes 64)
  have ht : s.transferEnd .debug false = { moved.setFlag oDbg 25 true with bus := { s.bus with debug := none } } := by
    simp only [State.transferEnd, hd]; rfl
  have hreg (o : Nat) : (s.transferEnd .debug false).reg o = (moved.setFlag oDbg 25 true).reg o := by rw [ht]; rfl
  refine ⟨by rw [ht], by rw [flag_congr (hreg _), flag_setFlag_same _ _ _ _ (by decide)], fun i hi => ?_⟩
  simp only [List.mem_cons, List.not_mem_nil, or_false] at hi
  rcases hi with rfl | rfl | rfl
  · rw [hreg, reg_setFlag_other _ _ _ (by decide), reg_setReg_other _ _ (by decide), reg_setReg_other _ _ (by decide), reg_setReg_same]
  · rw [hreg, reg_setFlag_other _ _ _ (by decide), reg_setReg_other _ _ (by decide), reg_setReg_same]
  · rw [hreg, reg_setFlag_other _ _ _ (by decide), reg_setReg_same]

/-! ## The collector's entry (R540, R542) -/

/-- What the collector brings, with the number 128, comes after everything that is on its way. -/
theorem insertBy_last {l : List (Nat × List (BitVec 128))} (h : ∀ p ∈ l, p.1 ≤ 128) (es : List (BitVec 128)) :
    insertBy (fun a b => decide (a.1 < b.1)) (128, es) l = l ++ [(128, es)] := by
  induction l with
  | nil => rfl
  | cons p l ih =>
    have hp := h p List.mem_cons_self
    rw [insertBy, if_neg (by simpa using hp), ih fun q hq => h q (List.mem_cons_of_mem _ hq), List.cons_append]

theorem exec_logCollect {s : State} {k f : Nat} {e : BitVec 128} {rest : List (BitVec 128)} (hin : s.inReset = false)
    (ho : s.bus.owner = some (.collector, k, f)) (hq : (s.sl k).evq = e :: rest) :
    exec .logCollect s = .next (s.held ((State.updSl { s with bus := { s.bus with owner := none } } k fun sl => { sl with evq := rest }).logDue
      128 [e])) := by
  change execLogCollect s = _
  simp only [execLogCollect, ho, hq, live_next hin]

/-- With room in the ring a single entry is written, in either MODE. -/
theorem logPut_single {s : State} (e : BitVec 128) (h : s.logUsed < 4096) : s.logPut [e] = s.logPut1 e := by
  unfold State.logPut
  split
  · rw [if_pos (by rw [List.length_singleton]; omega)]; rfl
  · rw [List.foldl_cons, if_neg (by omega)]; rfl

theorem logFlush_single {s : State} {j : Nat} {e : BitVec 128} (hl : s.logNew = [(j, [e])]) (h : s.logUsed < 4096) :
    s.logFlush = State.logPut1 { s with logNew := [] } e := by
  rw [State.logFlush, hl]
  exact logPut_single (s := { s with logNew := [] }) e h

/-- Settles O60: each row takes the branch of its definition, and what a transfer carries leaves the bus free. -/
theorem busTransfers : Obligations.BusTransfers := by
  refine ⟨fun s b m rest ok hin hb ho hn hr hok => ?_, fun s b m rest hin hb ho hn hr hm => ?_,
    fun s m k f hin ho hw => ⟨exec_busTimeout hin ho hw, transferEnd_owner _ m false, fun hm => ?_⟩,
    fun s => ⟨fun w hp hw => transferEnd_lostWrite hp hw, rfl, fun n hn hl => transferEnd_sampler hn hl,
      fun k l hd => transferEnd_debug_first hd, fun k l hd => transferEnd_debug_last hd⟩,
    fun s k f e rest hin ho hq hl => ?_, fun s j e hl hu => ?_⟩
  · have hg : (ok && m != .collector) = false := by rcases hok with rfl | rfl <;> simp
    have h := exec_busTransferGrant hin hb ho hn hr ok
    obtain ⟨l, q, hc⟩ := contested_form s b m rest
    simp only [hg, Bool.false_eq_true, if_false, hc] at h
    refine ⟨_, h, ?_⟩
    unfold State.collects
    split
    · exact ⟨rfl, rfl, rfl, rfl, rfl, rfl, rfl⟩
    · exact ⟨rfl, rfl, rfl, rfl, rfl, rfl, rfl⟩
  · have hg : (true && m != .collector) = true := by simpa using hm
    rw [exec_busTransferGrant hin hb ho hn hr true]
    simp only [hg, if_true, State.collects, if_neg hm]
    rfl
  · subst hm; exact ⟨rfl, rfl⟩
  · have hsl := State.updSl_sl_same { s with bus := { s.bus with owner := none } } k fun sl => { sl with evq := rest }
    exact ⟨_, exec_logCollect hin ho hq, rfl, congrArg Slice.evq hsl, insertBy_last hl [e], rfl⟩
  · rw [logFlush_single hl hu]
    exact ⟨rfl, tget_tputD_same _ _ _ _, rfl, rfl⟩

end Sys2Proof.Machine
end

section
/-! SUPPORT. The statement about the reads of start-up and the load edge. -/

namespace Sys2Proof.Machine

/-! ## The reads (R498, R503 to R506, R552) -/

/-- What a command of start-up writes in registers is nothing that only the reset pin, the edge and the queue drive. -/
theorem held_sameButRegs {s u v : State} (hu : s.held u = u) (h : u.SameButRegs v) : s.held v = v := by
  obtain ⟨r, m, rfl⟩ := h
  exact congrArg (fun x : State => { x with regs := r, marks := m }) hu

/-- The same for what it keeps of start-up. -/
theorem held_boot_sameButRegs {s v : State} {b : Boot} (h : State.SameButRegs { s with boot := b } v) : s.held v = v :=
  held_sameButRegs (u := { s with boot := b }) rfl h

theorem setPhase_same (s : State) (n : Nat) : s.SameButRegs (s.setPhase n) := setFld_same _ _ _ _ _

theorem failNow_boot (s : State) (code : Nat) : (s.failNow code).boot = s.boot := by
  obtain ⟨r, m, h⟩ := failNow_same s code; rw [h]

/-- A failure of start-up writes PHASE, the failure's bit and its code of LZ_BOOT_STATUS (R514). -/
theorem failNow_fld_apart (s : State) (code : Nat) {lo w : Nat} (hp : 6 ≤ lo) (hc : lo + w ≤ 16 ∨ 21 ≤ lo) :
    (s.failNow code).fld oBoot lo w = s.fld oBoot lo w := by
  rw [State.failNow, fld_setFld_apart _ _ _ _ _ _ _ (by omega), fld_setFlag_apart _ _ _ _ _ _ (by omega), State.setPhase,
    fld_setFld_apart _ _ _ _ _ _ _ (by omega)]

theorem phase_setPhase (s : State) {n : Nat} (h : n < 16) : (s.setPhase n).phase = n :=
  (fld_setFld_same s oBoot 0 4 n (by decide)).trans (Nat.mod_eq_of_lt h)

/-- Both headers are read: the candidates, and why copy B is none (R503, R504, R514). -/
def State.headersRead (s : State) (a h : List Byte) : State :=
  State.rejectCopy { s with boot := { s.boot with hdrB := some h, toTry := tryOrder s.fusing a h } } true (headerReject s.fusing h)

theorem headersRead_same (s : State) (a h : List Byte) :
    State.SameButRegs { s with boot := { s.boot with hdrB := some h, toTry := tryOrder s.fusing a h } } (s.headersRead a h) :=
  setFld_same _ _ _ _ _

theorem headersRead_reject (s : State) (a h : List Byte) : (s.headersRead a h).fld oBoot 12 4 = headerReject s.fusing h % 16 :=
  fld_setFld_same _ oBoot 12 4 _ (by decide)

section
variable {s : State}

theorem exec_headerA {h : List Byte} (hin : s.inReset = false) (hp : s.phase = 1) (hw : s.boot.waited = true) (ha : s.boot.hdrA = none) :
    exec (.imageHeaderReadDone false h) s =
      .next (State.setFld { s with boot := { s.boot with hdrA := some h } } oBoot 8 4 (headerReject s.fusing h)) := by
  have hg : ¬ (!(s.phase = 1 && s.boot.waited)) = true := by simp [hp, hw]
  change execImageHeaderReadDone false h s = _
  unfold execImageHeaderReadDone
  rw [if_neg hg, ha]
  exact live_next hin _

theorem exec_headerB {a h : List Byte} (hin : s.inReset = false) (hp : s.phase = 1) (hw : s.boot.waited = true) (ha : s.boot.hdrA = some a) :
    exec (.imageHeaderReadDone true h) s =
      .next (if (tryOrder s.fusing a h).isEmpty then (s.headersRead a h).failNow 0x10 else (s.headersRead a h).setPhase 2) := by
  have hg : ¬ (!(s.phase = 1 && s.boot.waited)) = true := by simp [hp, hw]
  change execImageHeaderReadDone true h s = _
  unfold execImageHeaderReadDone
  rw [if_neg hg]
  split
  next hc _ => cases hc
  next a' _ ha' =>
    obtain rfl : a' = a := Option.some.inj (ha'.symm.trans ha)
    refine (live_next hin _).trans (congrArg Host.Outcome.next ?_)
    refine iteInduction (motive := fun u => s.held u = u) (fun _ => ?_) fun _ => ?_
    · exact held_boot_sameButRegs ((headersRead_same s a' h).trans (failNow_same _ _))
    · exact held_boot_sameButRegs ((headersRead_same s a' h).trans (setPhase_same _ _))
  next hno => exact absurd ha (hno a rfl)

/-- The bytes of a copy under trial: its header is the one read before (R505). -/
def State.trial (s : State) (c : Bool) (b : List Byte) : List Byte := ((if c then s.boot.hdrB else s.boot.hdrA).getD []) ++ b.drop 64

/-- The copy is accepted: which one, whether another was tried before it, and its revision (R506, R514). -/
def State.copyAccepted (s : State) (c : Bool) (b : List Byte) : State :=
  (((State.setFlag { s with boot := { s.boot with toTry := [], accepted := some (s.trial c b) } } oBoot 6 c).setFlag oBoot 7
    (s.boot.tried != 0)).setFld oBoot 24 32 (hdrRevision ((if c then s.boot.hdrB else s.boot.hdrA).getD [])))

/-- The copy is rejected, and the other candidate is next (R506, R514). -/
def State.copyRejected (s : State) (c : Bool) (rest : List Bool) (code : Nat) : State :=
  State.rejectCopy { s with boot := { s.boot with toTry := rest, tried := s.boot.tried + 1 } } c code

variable {b : List Byte} {c : Bool} {rest : List Bool}

theorem copyAccepted_same (s : State) (c : Bool) (b : List Byte) :
    State.SameButRegs { s with boot := { s.boot with toTry := [], accepted := some (s.trial c b) } } (s.copyAccepted c b) :=
  (setFlag_same _ _ _ _).trans ((setFlag_same _ _ _ _).trans (setFld_same _ _ _ _ _))

theorem copyRejected_same (s : State) (c : Bool) (rest : List Bool) (code : Nat) :
    State.SameButRegs { s with boot := { s.boot with toTry := rest, tried := s.boot.tried + 1 } } (s.copyRejected c rest code) :=
  setFld_same _ _ _ _ _

theorem exec_imageCopyReadDone (hin : s.inReset = false) (hp : s.phase = 2) (ht : s.boot.toTry = c :: rest) :
    (copyReject s.fusing (s.trial c b) = 0 → exec (.imageCopyReadDone b) s = .next (s.copyAccepted c b)) ∧
    (copyReject s.fusing (s.trial c b) ≠ 0 → exec (.imageCopyReadDone b) s = .next (
      let u := s.copyRejected c rest (copyReject s.fusing (s.trial c b))
      if rest.isEmpty then u.failNow 0x10 else u)) := by
  have hg : ¬ s.phase ≠ 2 := not_not_intro hp
  change (_ → execImageCopyReadDone b s = _) ∧ (_ → execImageCopyReadDone b s = _)
  unfold execImageCopyReadDone
  rw [ht]
  dsimp only
  rw [if_neg hg]
  change (copyReject s.fusing (s.trial c b) = 0 → live s (match copyReject s.fusing (s.trial c b) with | 0 => _ | code => _) = _) ∧ _
  refine ⟨fun h0 => ?_, fun h0 => ?_⟩
  · rw [h0]
    exact (live_next hin _).trans (congrArg Host.Outcome.next (held_boot_sameButRegs (copyAccepted_same s c b)))
  · split
    next h => exact absurd h h0
    next =>
      refine (live_next hin _).trans (congrArg Host.Outcome.next ?_)
      refine iteInduction (motive := fun u => s.held u = u) (fun _ => ?_) fun _ => ?_
      · exact held_boot_sameButRegs ((copyRejected_same s c rest _).trans (failNow_same _ _))
      · exact held_boot_sameButRegs (copyRejected_same s c rest _)

end

theorem copyAccepted_reads (s : State) (c : Bool) (b : List Byte) :
    (s.copyAccepted c b).phase = s.phase ∧ (s.copyAccepted c b).flag oBoot 6 = c := by
  refine ⟨?_, ?_⟩
  · rw [State.copyAccepted, State.phase, fld_setFld_apart _ _ _ _ _ _ _ (by decide), fld_setFlag_apart _ _ _ _ _ _ (by decide),
      fld_setFlag_apart _ _ _ _ _ _ (by decide)]
    rfl
  · rw [State.copyAccepted, flag_setFld_apart _ _ _ _ _ _ (by decide), flag_setFlag_apart _ _ _ _ _ (by decide),
      flag_setFlag_same _ _ _ _ (by decide)]

theorem copyRejected_phase (s : State) (c : Bool) (rest : List Bool) (code : Nat) : (s.copyRejected c rest code).phase = s.phase :=
  fld_setFld_apart _ _ _ _ _ _ _ (.inr (by cases c <;> decide))

/-- A restored record changes registers and what the cistern keeps (R552). -/
theorem restoreFrom_same (s : State) (x : SlotImage) :
    State.SameButRegs { s with cistern := { s.cistern with
      newest := some x.slot, seq := BitVec.ofNat 32 (fieldAt x.bytes 8 4), ckptAt := fieldAt x.bytes 0x40 8 } } (s.restoreFrom x) := by
  unfold State.restoreFrom
  extract_lets kept b powered hot counts rows seq was record
  have hp : s.SameButRegs powered := (setReg_same s _ _).trans (setReg_same _ _ _)
  have hh : powered.SameButRegs hot := setReg_same powered _ _
  have hc : hot.SameButRegs counts :=
    foldSt_keeps (P := fun u => hot.SameButRegs u) (fun u _ hu => hu.trans (setReg_same u _ _)) _ (.refl hot)
  have hr : counts.SameButRegs rows :=
    foldSt_keeps (P := fun u => counts.SameButRegs u) (fun u _ hu =>
      foldSt_keeps (P := fun v => counts.SameButRegs v) (fun v _ hv => hv.trans (setReg_same v _ _)) _ hu) _ (.refl counts)
  obtain ⟨r, m, h⟩ := ((hp.trans hh).trans hc).trans hr
  refine State.SameButRegs.trans (t := record) ⟨r, m, ?_⟩ ((setFld_same record _ _ _ _).trans ((setFld_same _ _ _ _ _).trans (setFlag_same _ _ _ _)))
  simp only [record, was, h]
  rfl

/-- The slots are read: the newest record is restored, if there is one, and self-test begins (R491, R552). -/
theorem exec_cisternReadDone {s : State} {l : List SlotImage} (hin : s.inReset = false) (hp : s.phase = 3) :
    exec (.cisternReadDone l) s = .next (match restorable l.length (l.filter fun x => slotCandidate x.bytes) with
      | some x => (State.restoreFrom { s with cistern := { s.cistern with slotWrites := slotCounts l } } x).setPhase 4
      | none => s.setPhase 4) := by
  change execCisternReadDone l s = _
  unfold execCisternReadDone
  rw [if_neg (not_not_intro hp)]
  cases restorable l.length (l.filter fun x => slotCandidate x.bytes) with
  | some x =>
    refine (live_next hin _).trans (congrArg Host.Outcome.next ?_)
    refine held_sameButRegs ?_ ((restoreFrom_same _ x).trans (setPhase_same _ 4))
    rfl
  | none => exact (live_next hin _).trans (congrArg Host.Outcome.next (held_sameButRegs rfl (setPhase_same s 4)))

/-! ## Runs of register writes -/

section
variable {α : Type} {f : State → α → State} {o : α → Nat} (hf : ∀ u a p, p ≠ o a → (f u a).reg p = u.reg p)
include hf

/-- Each change of a run writes a register of its own. -/
theorem foldl_reg_other {l : List α} {p : Nat} (hp : ∀ a ∈ l, p ≠ o a) (s : State) : (l.foldl f s).reg p = s.reg p :=
  foldl_keeps (P := fun u => u.reg p = s.reg p) l rfl fun u a ha hu => (hf u a p (hp a ha)).trans hu

/-- One of them finds its own register as it was before the run, and so every register that the run does not write; and what it leaves there
stays. -/
theorem foldl_reg_at {l : List α} (hl : l.Pairwise fun a b => o a ≠ o b) {a : α} (ha : a ∈ l) (s : State) :
    ∃ u : State, (∀ p, (∀ b ∈ l, p ≠ o b) ∨ p = o a → u.reg p = s.reg p) ∧ (l.foldl f s).reg (o a) = (f u a).reg (o a) := by
  induction l generalizing s with
  | nil => exact absurd ha List.not_mem_nil
  | cons b l ih =>
    obtain ⟨hb, hl⟩ := List.pairwise_cons.mp hl
    rcases List.mem_cons.mp ha with rfl | ha
    · exact ⟨s, fun _ _ => rfl, foldl_reg_other hf hb _⟩
    · obtain ⟨u, hu, hr⟩ := ih hl ha (f s b)
      refine ⟨u, fun p hp => ?_, hr⟩
      rcases hp with hp | rfl
      · rw [hu p (.inl fun c hc => hp c (List.mem_cons_of_mem _ hc)), hf s b p (hp b List.mem_cons_self)]
      · rw [hu _ (.inr rfl), hf s b _ (hb a ha).symm]

end

theorem range_apart {o : Nat → Nat} (ho : ∀ i j, o i = o j → i = j) (n : Nat) : (List.range n).Pairwise fun i j => o i ≠ o j :=
  List.nodup_range.imp fun hne he => hne (ho _ _ he)

theorem foldl_sameButRegs {α : Type} {f : State → α → State} (hf : ∀ (u : State) a, u.SameButRegs (f u a)) (l : List α) (s : State) :
    s.SameButRegs (l.foldl f s) :=
  foldl_keeps (P := fun v => s.SameButRegs v) l (.refl s) fun v a _ hv => hv.trans (hf v a)

theorem loadFields_same (s : State) (off w : Nat) (fs : List (Nat × Nat)) : s.SameButRegs (s.loadFields off w fs) :=
  foldl_sameButRegs (fun _ _ => setFld_same _ _ _ _ _) fs s

theorem loadFields_reg_other (s : State) {off p : Nat} (w : Nat) (fs : List (Nat × Nat)) (h : p ≠ off) : (s.loadFields off w fs).reg p = s.reg p :=
  foldl_reg_other (o := fun _ => off) (fun u _ _ hp => reg_setFld_other u _ _ _ hp) (fun _ _ => h) s

theorem loadFields_fld_apart (s : State) (off w lo n : Nat) {fs : List (Nat × Nat)} (h : ∀ f ∈ fs, f.1 + f.2 ≤ lo ∨ lo + n ≤ f.1) :
    (s.loadFields off w fs).fld off lo n = s.fld off lo n :=
  foldl_keeps (P := fun u => u.fld off lo n = s.fld off lo n) fs rfl fun _ f hm hu => (fld_setFld_apart _ _ _ _ _ _ _ (h f hm)).trans hu

/-- Fields that lie apart take their bits of the word (R502). -/
theorem loadFields_fld {off w : Nat} {fs : List (Nat × Nat)} (hd : fs.Pairwise fun f g => f.1 + f.2 ≤ g.1) (h64 : ∀ f ∈ fs, f.1 + f.2 ≤ 64)
    {f : Nat × Nat} (hf : f ∈ fs) (s : State) : (s.loadFields off w fs).fld off f.1 f.2 = w / 2 ^ f.1 % 2 ^ f.2 := by
  induction fs generalizing s with
  | nil => exact absurd hf List.not_mem_nil
  | cons g fs ih =>
    obtain ⟨hg, hd⟩ := List.pairwise_cons.mp hd
    rcases List.mem_cons.mp hf with rfl | hf
    · refine (loadFields_fld_apart _ off w f.1 f.2 fun g hm => .inr (hg g hm)).trans ?_
      rw [fld_setFld_same _ _ _ _ _ (h64 f List.mem_cons_self), Nat.mod_mod]
    · exact ih hd (fun g hm => h64 g (List.mem_cons_of_mem _ hm)) hf _

/-! ## The parts of the load edge (R492, R502) -/

/-- The flags of PLATFORM. -/
def State.loadFlags (s : State) (p : Nat) : State :=
  (((s.setFlag oFilter 0 (p.testBit 0)).setFlag oFilter 1 (p.testBit 1)).setFlag oFlip 2 (p.testBit 2)).setFlag oTakeover 8 (p.testBit 3)

/-- The hash masks, and the memory routes. -/
def State.loadMasks (s : State) (z : List Byte) : State := (List.range 4).foldl (fun s i => s.setFld (oMask i) 0 40 (wordAt z 8 i)) s
@[inherit_doc State.loadMasks] def State.loadRoutes (s : State) (z : List Byte) : State :=
  (List.range 16).foldl (fun s i => s.setReg (oRoute i) (BitVec.ofNat 64 (wordAt z 8 i))) s

/-- TUNING and CONTRACTS, where the copy has them. -/
def State.loadTuning (s : State) (o : Option (List Byte)) : State :=
  match o with
  | some z => tuningFields.zipIdx.foldl (fun s e => s.loadFields e.1.1 (wordAt z 4 e.2) e.1.2) s
  | none => s
@[inherit_doc State.loadTuning] def State.loadContracts (s : State) (o : Option (List Byte)) : State :=
  match o with
  | some z => (List.range 24).foldl (fun s a => s.loadFields (oAg a 8) (wordAt z 4 a) [(0, 6), (8, 12)]) s
  | none => s

/-- The budgets of the slices. -/
def State.loadBudgets (s : State) : State := (List.range s.nSlices).foldl State.rebudget s

/-- The registers after the load edge, but for PHASE. -/
def State.loaded (s : State) (b : List Byte) : State :=
  (((((s.loadFlags (fieldAt ((sectionBytes b 1).getD []) 0 1)).loadMasks ((sectionBytes b 2).getD [])).loadRoutes
    ((sectionBytes b 3).getD [])).loadTuning (sectionBytes b 4)).loadContracts (sectionBytes b 5)).loadBudgets

theorem loadImage_eq (s : State) (b : List Byte) :
    s.loadImage b = State.setPhase { s.loaded b with boot := { (s.loaded b).boot with
      accepted := none, loadAt := some (s.loaded b).frame, memWait := max 1 (fieldAt ((sectionBytes b 1).getD []) 2 2), fills := fillEntries b } } 3 := rfl

section
variable (s : State)

theorem loadFlags_same (p : Nat) : s.SameButRegs (s.loadFlags p) :=
  (setFlag_same _ _ _ _).trans ((setFlag_same _ _ _ _).trans ((setFlag_same _ _ _ _).trans (setFlag_same _ _ _ _)))

theorem loadTuning_same (o : Option (List Byte)) : s.SameButRegs (s.loadTuning o) := by
  cases o with
  | some z => exact foldl_sameButRegs (fun _ _ => loadFields_same _ _ _ _) _ s
  | none => exact .refl s

theorem loadContracts_same (o : Option (List Byte)) : s.SameButRegs (s.loadContracts o) := by
  cases o with
  | some z => exact foldl_sameButRegs (fun _ _ => loadFields_same _ _ _ _) _ s
  | none => exact .refl s

theorem loadMasks_same (z : List Byte) : s.SameButRegs (s.loadMasks z) := foldl_sameButRegs (fun _ _ => setFld_same _ _ _ _ _) _ s
theorem loadRoutes_same (z : List Byte) : s.SameButRegs (s.loadRoutes z) := foldl_sameButRegs (fun _ _ => setReg_same _ _ _) _ s
theorem loadBudgets_same : s.SameButRegs s.loadBudgets := foldl_sameButRegs (fun _ _ => setFld_same _ _ _ _ _) _ s

theorem loaded_same (b : List Byte) : s.SameButRegs (s.loaded b) :=
  (loadFlags_same s _).trans ((loadMasks_same _ _).trans ((loadRoutes_same _ _).trans ((loadTuning_same _ _).trans
    ((loadContracts_same _ _).trans (loadBudgets_same _)))))

/-! ### The registers that each part leaves alone -/

variable {o : Nat}

theorem loadFlags_reg_other (p : Nat) (hf : o ≠ oFilter) (hl : o ≠ oFlip) (ht : o ≠ oTakeover) : (s.loadFlags p).reg o = s.reg o := by
  rw [State.loadFlags, reg_setFlag_other _ _ _ ht, reg_setFlag_other _ _ _ hl, reg_setFlag_other _ _ _ hf, reg_setFlag_other _ _ _ hf]

theorem rebudget_reg_other (k : Nat) (h : o ≠ oSl k 0x48) : (s.rebudget k).reg o = s.reg o := reg_setFld_other s _ _ _ h

variable {s}

theorem loadMasks_reg_other (z : List Byte) (h : ∀ i, i < 4 → o ≠ oMask i) : (s.loadMasks z).reg o = s.reg o :=
  foldl_reg_other (o := oMask) (fun u _ _ hp => reg_setFld_other u _ _ _ hp) (fun i hi => h i (List.mem_range.mp hi)) s

theorem loadRoutes_reg_other (z : List Byte) (h : ∀ i, i < 16 → o ≠ oRoute i) : (s.loadRoutes z).reg o = s.reg o :=
  foldl_reg_other (o := oRoute) (fun u _ _ hp => reg_setReg_other u _ hp) (fun i hi => h i (List.mem_range.mp hi)) s

theorem loadTuning_reg_other (z : Option (List Byte)) (h : ∀ e ∈ tuningFields.zipIdx, o ≠ e.1.1) : (s.loadTuning z).reg o = s.reg o := by
  cases z with
  | some z =>
    rw [State.loadTuning]
    exact foldl_reg_other (f := fun (s : State) (e : (Nat × List (Nat × Nat)) × Nat) => s.loadFields e.1.1 (wordAt z 4 e.2) e.1.2)
      (o := fun e => e.1.1) (fun u _ _ hp => loadFields_reg_other u _ _ hp) h s
  | none => rfl

theorem loadContracts_reg_other (z : Option (List Byte)) (h : ∀ a, a < 24 → o ≠ oAg a 8) : (s.loadContracts z).reg o = s.reg o := by
  cases z with
  | some z =>
    rw [State.loadContracts]
    exact foldl_reg_other (o := fun a => oAg a 8) (fun u _ _ hp => loadFields_reg_other u _ _ hp) (fun a ha => h a (List.mem_range.mp ha)) s
  | none => rfl

theorem loadBudgets_reg_other (h : ∀ k, k < s.nSlices → o ≠ oSl k 0x48) : s.loadBudgets.reg o = s.reg o :=
  foldl_reg_other (o := fun k => oSl k 0x48) (fun u k _ hp => rebudget_reg_other u k hp) (fun k hk => h k (List.mem_range.mp hk)) s

/-! ### What each part loads -/

theorem loadFlags_flags (p : Nat) :
    (s.loadFlags p).flag oFilter 0 = p.testBit 0 ∧ (s.loadFlags p).flag oFilter 1 = p.testBit 1 ∧ (s.loadFlags p).flag oFlip 2 = p.testBit 2 ∧
      (s.loadFlags p).flag oTakeover 8 = p.testBit 3 := by
  unfold State.loadFlags
  refine ⟨?_, ?_, ?_, flag_setFlag_same _ _ _ _ (by decide)⟩
  · rw [flag_setFlag_other _ _ _ _ (by decide), flag_setFlag_other _ _ _ _ (by decide), flag_setFlag_apart _ _ _ _ _ (by decide),
      flag_setFlag_same _ _ _ _ (by decide)]
  · rw [flag_setFlag_other _ _ _ _ (by decide), flag_setFlag_other _ _ _ _ (by decide), flag_setFlag_same _ _ _ _ (by decide)]
  · rw [flag_setFlag_other _ _ _ _ (by decide), flag_setFlag_same _ _ _ _ (by decide)]

theorem loadMasks_fld (z : List Byte) {i : Nat} (hi : i < 4) : (s.loadMasks z).fld (oMask i) 0 40 = wordAt z 8 i % 2 ^ 40 := by
  obtain ⟨u, -, hr⟩ := foldl_reg_at (f := fun s i => State.setFld s (oMask i) 0 40 (wordAt z 8 i)) (o := oMask)
    (fun u _ _ hp => reg_setFld_other u _ _ _ hp) (range_apart (o := oMask) (fun i j h => by unfold oMask at h; omega) 4) (List.mem_range.mpr hi) s
  rw [State.loadMasks]
  exact (fld_congr hr 0 40).trans (fld_setFld_same _ _ _ _ _ (by decide))

theorem loadRoutes_reg (z : List Byte) {i : Nat} (hi : i < 16) : (s.loadRoutes z).reg (oRoute i) = BitVec.ofNat 64 (wordAt z 8 i) := by
  obtain ⟨u, -, hr⟩ := foldl_reg_at (f := fun s i => State.setReg s (oRoute i) (BitVec.ofNat 64 (wordAt z 8 i))) (o := oRoute)
    (fun u _ _ hp => reg_setReg_other u _ hp) (range_apart (o := oRoute) (fun i j h => by unfold oRoute at h; omega) 16) (List.mem_range.mpr hi) s
  rw [State.loadRoutes]
  exact hr.trans (reg_setReg_same _ _ _)

/-- The registers of TUNING are different ones, and the fields of each lie apart. -/
theorem tuning_apart : tuningFields.zipIdx.Pairwise (fun a b => a.1.1 ≠ b.1.1) ∧
    ∀ e ∈ tuningFields.zipIdx, (e.1.2.Pairwise fun f g => f.1 + f.2 ≤ g.1) ∧ ∀ f ∈ e.1.2, f.1 + f.2 ≤ 64 := by decide

theorem loadTuning_fld (z : List Byte) {e : (Nat × List (Nat × Nat)) × Nat} (he : e ∈ tuningFields.zipIdx) {f : Nat × Nat} (hf : f ∈ e.1.2) :
    (s.loadTuning (some z)).fld e.1.1 f.1 f.2 = wordAt z 4 e.2 / 2 ^ f.1 % 2 ^ f.2 := by
  obtain ⟨hregs, hfields⟩ := tuning_apart
  obtain ⟨hd, h64⟩ := hfields e he
  obtain ⟨u, -, hr⟩ := foldl_reg_at (f := fun (s : State) (e : (Nat × List (Nat × Nat)) × Nat) => s.loadFields e.1.1 (wordAt z 4 e.2) e.1.2)
    (o := fun e => e.1.1) (fun u _ _ hp => loadFields_reg_other u _ _ hp) hregs he s
  exact (fld_congr hr _ _).trans (loadFields_fld hd h64 hf u)

theorem loadContracts_fld (z : List Byte) {a : Nat} (ha : a < 24) {f : Nat × Nat} (hf : f ∈ [(0, 6), (8, 12)]) :
    (s.loadContracts (some z)).fld (oAg a 8) f.1 f.2 = wordAt z 4 a / 2 ^ f.1 % 2 ^ f.2 := by
  obtain ⟨u, -, hr⟩ := foldl_reg_at (f := fun (s : State) a => s.loadFields (oAg a 8) (wordAt z 4 a) [(0, 6), (8, 12)]) (o := fun a => oAg a 8)
    (fun u _ _ hp => loadFields_reg_other u _ _ hp) (range_apart (fun i j h => by simp only [oAg] at h; omega) 24) (List.mem_range.mpr ha) s
  exact (fld_congr hr _ _).trans (loadFields_fld (by decide) (by decide) hf u)

/-- A slice keeps its reading, and its budget follows from it and BUDGET_CAP (R234 to R236). -/
theorem loadBudgets_fld {k : Nat} (hk : k < s.nSlices) :
    s.loadBudgets.fld (oSl k 0x48) 0 8 = s.fld (oSl k 0x48) 0 8 ∧ s.loadBudgets.fld (oSl k 0x48) 8 8 =
      let cap := min 128 (max 32 (s.fld oEvgan 0 8))
      if s.evganPresent then min (budgetFor (bits (s.reg (oSl k 0x48)) 0 8)) cap else cap := by
  obtain ⟨u, hu, hr⟩ := foldl_reg_at (f := State.rebudget) (o := fun k => oSl k 0x48) (fun u k _ hp => rebudget_reg_other u k hp)
    (range_apart (fun i j h => by simp only [oSl] at h; omega) s.nSlices) (List.mem_range.mpr hk) s
  have hev : u.reg oEvgan = s.reg oEvgan := hu _ (.inl fun j _ => by simp only [oEvgan, oSl]; omega)
  have hfi : u.reg oFilter = s.reg oFilter := hu _ (.inl fun j _ => by simp only [oFilter, oSl]; omega)
  have hsl : u.reg (oSl k 0x48) = s.reg (oSl k 0x48) := hu _ (.inr rfl)
  refine ⟨(fld_congr hr 0 8).trans ((fld_setFld_apart _ _ _ _ _ _ _ (by decide)).trans (fld_congr hsl 0 8)), (fld_congr hr 8 8).trans ?_⟩
  rw [State.rebudget, fld_setFld_same _ _ _ _ _ (by decide), fld_congr hev, hsl, State.evganPresent, flag_congr hfi]
  refine Nat.mod_eq_of_lt ?_
  split <;> omega

end

/-! ## The load edge -/

/-- The fields of TUNING: the number of the word, the register, the lowest bit and the width. -/
def tuningWords : List (Nat × Nat × Nat × Nat) :=
  [(0, oHome, 0, 6), (0, oHome, 8, 8), (1, oProgress, 0, 12), (1, oProgress, 16, 6), (2, oSlot, 0, 4), (3, oWeir, 0, 8), (3, oWeir, 8, 8),
   (3, oWeir, 16, 8), (3, oWeir, 24, 4), (4, oWaylock, 0, 16), (4, oWaylock, 16, 16), (5, oEvgan, 0, 8), (6, oIowr, 0, 4), (7, oAgentCtl, 0, 4)]

theorem tuningWords_fields : (∀ p ∈ tuningWords, ∃ e ∈ tuningFields.zipIdx, e.2 = p.1 ∧ e.1.1 = p.2.1 ∧ p.2.2 ∈ e.1.2) ∧
    ∀ e ∈ tuningFields.zipIdx, ∃ p ∈ tuningWords, p.2.1 = e.1.1 := by decide

/-- TUNING lies behind the routes and below the agents, and FILTER_CFG is not in it. -/
theorem tuning_place : ∀ e ∈ tuningFields.zipIdx, 0x200 ≤ e.1.1 ∧ e.1.1 < 0x311 ∧ e.1.1 ≠ oFilter := by decide

theorem tuning_ne {o : Nat} (h : o < 0x200 ∨ 0x311 ≤ o ∨ o = oFilter) : ∀ e ∈ tuningFields.zipIdx, o ≠ e.1.1 := by
  intro e he
  obtain ⟨hlo, hhi, hfi⟩ := tuning_place e he
  rcases h with h | h | rfl
  · omega
  · omega
  · exact hfi.symm

section
variable (s : State) (b : List Byte)

/-- The registers before TUNING, before CONTRACTS, and before the budgets. -/
def State.routed : State :=
  ((s.loadFlags (fieldAt ((sectionBytes b 1).getD []) 0 1)).loadMasks ((sectionBytes b 2).getD [])).loadRoutes ((sectionBytes b 3).getD [])
@[inherit_doc State.routed] def State.tuned : State := (s.routed b).loadTuning (sectionBytes b 4)
@[inherit_doc State.routed] def State.contracted : State := (s.tuned b).loadContracts (sectionBytes b 5)

theorem routed_same : s.SameButRegs (s.routed b) := (loadFlags_same s _).trans ((loadMasks_same _ _).trans (loadRoutes_same _ _))

theorem contracted_nSlices : (s.contracted b).nSlices = s.nSlices := by
  obtain ⟨r, m, h⟩ := (routed_same s b).trans ((loadTuning_same _ (sectionBytes b 4)).trans (loadContracts_same _ (sectionBytes b 5)))
  exact congrArg (·.nSlices) h

variable {o : Nat}

/-! The map of the block lies below the agents, and the agents below the slices (R557). -/

theorem loaded_reg_contracted (h : o < 0x100000) : (s.loaded b).reg o = (s.contracted b).reg o :=
  loadBudgets_reg_other fun k _ => by unfold oSl; omega

theorem loaded_reg_tuned (h : o < 0x24000) : (s.loaded b).reg o = (s.tuned b).reg o :=
  (loaded_reg_contracted s b (by omega)).trans (loadContracts_reg_other _ fun a _ => by unfold oAg; omega)

theorem loaded_reg_routed (h : o < 0x24000) (ht : o < 0x200 ∨ 0x311 ≤ o ∨ o = oFilter) : (s.loaded b).reg o = (s.routed b).reg o :=
  (loaded_reg_tuned s b h).trans (loadTuning_reg_other _ (tuning_ne ht))

theorem routed_reg_flagged (h : 0x200 ≤ o) :
    (s.routed b).reg o = (s.loadFlags (fieldAt ((sectionBytes b 1).getD []) 0 1)).reg o :=
  (loadRoutes_reg_other _ fun i _ => by unfold oRoute; omega).trans (loadMasks_reg_other _ fun i _ => by unfold oMask; omega)

theorem routed_reg_other (hf : o ≠ oFilter) (hl : o ≠ oFlip) (ht : o ≠ oTakeover) (hm : ∀ i, i < 4 → o ≠ oMask i)
    (hr : ∀ i, i < 16 → o ≠ oRoute i) : (s.routed b).reg o = s.reg o :=
  (loadRoutes_reg_other _ hr).trans ((loadMasks_reg_other _ hm).trans (loadFlags_reg_other s _ hf hl ht))

/-- The registers that CONTRACTS and TUNING write are not of the flags, the masks and the routes. -/
theorem routed_reg_high (h : 0x200 ≤ o) (hf : o ≠ oFilter) (hlow : o < 0x311 ∨ 0x24000 ≤ o) : (s.routed b).reg o = s.reg o :=
  routed_reg_other s b hf (by unfold oFlip; omega) (by unfold oTakeover; omega) (fun i _ => by unfold oMask; omega)
    fun i _ => by unfold oRoute; omega

/-! ### What is in force after the load edge -/

theorem loaded_flags :
    let p := fieldAt ((sectionBytes b 1).getD []) 0 1
    (s.loaded b).flag oFilter 0 = p.testBit 0 ∧ (s.loaded b).flag oFilter 1 = p.testBit 1 ∧ (s.loaded b).flag oFlip 2 = p.testBit 2 ∧
      (s.loaded b).flag oTakeover 8 = p.testBit 3 := by
  have hreg (o : Nat) (h : o < 0x24000) (ht : 0x311 ≤ o ∨ o = oFilter) (hlo : 0x200 ≤ o) :
      (s.loaded b).reg o = (s.loadFlags (fieldAt ((sectionBytes b 1).getD []) 0 1)).reg o :=
    (loaded_reg_routed s b h (.inr ht)).trans (routed_reg_flagged s b hlo)
  obtain ⟨h0, h1, h2, h8⟩ := loadFlags_flags (s := s) (fieldAt ((sectionBytes b 1).getD []) 0 1)
  exact ⟨(flag_congr (hreg oFilter (by decide) (.inr rfl) (by decide)) 0).trans h0,
    (flag_congr (hreg oFilter (by decide) (.inr rfl) (by decide)) 1).trans h1,
    (flag_congr (hreg oFlip (by decide) (.inl (by decide)) (by decide)) 2).trans h2,
    (flag_congr (hreg oTakeover (by decide) (.inl (by decide)) (by decide)) 8).trans h8⟩

variable {i : Nat}

theorem loaded_mask (hi : i < 4) : (s.loaded b).fld (oMask i) 0 40 = wordAt ((sectionBytes b 2).getD []) 8 i % 2 ^ 40 := by
  have hlo : oMask i < 0x180 := by unfold oMask; omega
  refine (fld_congr ((loaded_reg_routed s b (by omega) (.inl (by omega))).trans (loadRoutes_reg_other _ fun j _ => ?_)) 0 40).trans
    (loadMasks_fld _ hi)
  unfold oRoute; omega

theorem loaded_route (hi : i < 16) : (s.loaded b).reg (oRoute i) = BitVec.ofNat 64 (wordAt ((sectionBytes b 3).getD []) 8 i) := by
  have hlo : oRoute i < 0x200 := by unfold oRoute; omega
  exact (loaded_reg_routed s b (by omega) (.inl hlo)).trans (loadRoutes_reg _ hi)

theorem loaded_tuning {p : Nat × Nat × Nat × Nat} (hp : p ∈ tuningWords) : (s.loaded b).fld p.2.1 p.2.2.1 p.2.2.2 =
    match sectionBytes b 4 with
    | some z => wordAt z 4 p.1 / 2 ^ p.2.2.1 % 2 ^ p.2.2.2
    | none => s.fld p.2.1 p.2.2.1 p.2.2.2 := by
  obtain ⟨e, he, hw, ho, hf⟩ := tuningWords_fields.1 p hp
  obtain ⟨hlo, hhi, hfi⟩ := tuning_place e he
  rw [← ho, ← hw, fld_congr (loaded_reg_tuned s b (by omega)), State.tuned]
  cases sectionBytes b 4 with
  | some z => exact loadTuning_fld z he hf
  | none => exact fld_congr (routed_reg_high s b hlo hfi (.inl hhi)) _ _

theorem loaded_contract {f : Nat × Nat} (hi : i < 24) (hf : f ∈ [(0, 6), (8, 12)]) : (s.loaded b).fld (oAg i 8) f.1 f.2 =
    match sectionBytes b 5 with
    | some z => wordAt z 4 i / 2 ^ f.1 % 2 ^ f.2
    | none => s.fld (oAg i 8) f.1 f.2 := by
  have hag : 0x24000 ≤ oAg i 8 ∧ oAg i 8 < 0x100000 := by unfold oAg; omega
  rw [fld_congr (loaded_reg_contracted s b hag.2), State.contracted]
  cases sectionBytes b 5 with
  | some z => exact loadContracts_fld z hi hf
  | none =>
    refine fld_congr ((loadTuning_reg_other _ (tuning_ne (.inr (.inl (by omega))))).trans
      (routed_reg_high s b (by omega) ?_ (.inr hag.1))) _ _
    unfold oFilter; omega

theorem loaded_budget (hi : i < s.nSlices) :
    (s.loaded b).fld (oSl i 0x48) 0 8 = s.fld (oSl i 0x48) 0 8 ∧ (s.loaded b).fld (oSl i 0x48) 8 8 =
      let cap := min 128 (max 32 ((s.loaded b).fld oEvgan 0 8))
      if (s.loaded b).evganPresent then min (budgetFor (bits (s.reg (oSl i 0x48)) 0 8)) cap else cap := by
  have hlo : 0x100000 ≤ oSl i 0x48 := by unfold oSl; omega
  have hsl : (s.contracted b).reg (oSl i 0x48) = s.reg (oSl i 0x48) := by
    refine (loadContracts_reg_other _ fun a _ => ?_).trans ((loadTuning_reg_other _ (tuning_ne (.inr (.inl (by omega))))).trans
      (routed_reg_high s b (by omega) ?_ (.inr (by omega))))
    · unfold oAg; omega
    · unfold oFilter; omega
  have hcap : (s.loaded b).fld oEvgan 0 8 = (s.contracted b).fld oEvgan 0 8 := fld_congr (loaded_reg_contracted s b (by decide)) 0 8
  have hev : (s.loaded b).evganPresent = (s.contracted b).evganPresent := flag_congr (loaded_reg_contracted s b (by decide)) 0
  rw [hcap, hev, ← hsl, ← fld_congr hsl]
  exact loadBudgets_fld ((contracted_nSlices s b).symm ▸ hi)

theorem loaded_reg_other (hf : o ≠ oFilter) (hl : o ≠ oFlip) (htk : o ≠ oTakeover) (hm : ∀ i, i < 4 → o ≠ oMask i)
    (hr : ∀ i, i < 16 → o ≠ oRoute i) (htu : ∀ p ∈ tuningWords, o ≠ p.2.1) (ha : ∀ a, a < 24 → o ≠ oAg a 8)
    (hs : ∀ k, k < s.nSlices → o ≠ oSl k 0x48) : (s.loaded b).reg o = s.reg o := by
  have hte : ∀ e ∈ tuningFields.zipIdx, o ≠ e.1.1 := fun e he => by
    obtain ⟨p, hp, hpe⟩ := tuningWords_fields.2 e he
    exact hpe ▸ htu p hp
  exact (loadBudgets_reg_other (s := s.contracted b) fun k hk => hs k ((contracted_nSlices s b) ▸ hk)).trans
    ((loadContracts_reg_other _ ha).trans ((loadTuning_reg_other _ hte).trans (routed_reg_other s b hf hl htk hm hr)))

end

/-! ## The statement -/

/-- Start-up that stops for want of a copy (R506, R514). -/
theorem failNow_noCopy (s : State) : (s.failNow 0x10).phase = 15 ∧ (s.failNow 0x10).flag oBoot 5 = true ∧ (s.failNow 0x10).fld oBoot 16 5 = 0x10 := by
  obtain ⟨hphase, hfail, hcode, -⟩ := failNow_failed s (code := 0x10) (by decide)
  exact ⟨hphase, hfail, hcode⟩

section
variable {s : State}

theorem headerB_reads {a h : List Byte} (hin : s.inReset = false) (hp : s.phase = 1) (hw : s.boot.waited = true) (ha : s.boot.hdrA = some a) :
    ∃ t, exec (.imageHeaderReadDone true h) s = .next t ∧ t.boot.hdrB = some h ∧ t.boot.toTry = tryOrder s.fusing a h ∧
      t.fld oBoot 12 4 = headerReject s.fusing h % 16 ∧
      (tryOrder s.fusing a h ≠ [] → t.phase = 2) ∧
      (tryOrder s.fusing a h = [] → t.phase = 15 ∧ t.flag oBoot 5 = true ∧ t.fld oBoot 16 5 = 0x10) := by
  refine ⟨_, exec_headerB hin hp hw ha, ?_⟩
  obtain ⟨r, m, hu⟩ := headersRead_same s a h
  have hboot : (s.headersRead a h).boot = { s.boot with hdrB := some h, toTry := tryOrder s.fusing a h } := by rw [hu]
  by_cases he : tryOrder s.fusing a h = []
  · rw [if_pos (List.isEmpty_iff.mpr he), failNow_boot, hboot]
    exact ⟨rfl, rfl, (failNow_fld_apart _ _ (by decide) (.inl (by decide))).trans (headersRead_reject s a h), fun hne => absurd he hne,
      fun _ => failNow_noCopy _⟩
  · rw [if_neg (fun hc => he (List.isEmpty_iff.mp hc))]
    exact ⟨congrArg Boot.hdrB hboot, congrArg Boot.toTry hboot,
      (fld_setFld_apart _ _ _ _ _ _ _ (by decide)).trans (headersRead_reject s a h), fun _ => phase_setPhase _ (by decide), fun h => absurd h he⟩

theorem imageCopy_reads {b : List Byte} {c : Bool} {rest : List Bool} (hin : s.inReset = false) (hp : s.phase = 2) (ht : s.boot.toTry = c :: rest) :
    let f := s.trial c b
    ∃ t, exec (.imageCopyReadDone b) s = .next t ∧
      (copyReject s.fusing f = 0 → t.boot.accepted = some f ∧ t.boot.toTry = [] ∧ t.phase = 2 ∧ t.flag oBoot 6 = c) ∧
      (copyReject s.fusing f ≠ 0 → t.boot.toTry = rest ∧ t.boot.tried = s.boot.tried + 1 ∧ t.boot.accepted = s.boot.accepted ∧
        (rest ≠ [] → t.phase = 2) ∧ (rest = [] → t.phase = 15 ∧ t.flag oBoot 5 = true ∧ t.fld oBoot 16 5 = 0x10)) := by
  intro f
  obtain ⟨hacc, hrej⟩ := exec_imageCopyReadDone (b := b) hin hp ht
  by_cases h0 : copyReject s.fusing f = 0
  · refine ⟨_, hacc h0, fun _ => ?_, fun h => absurd h0 h⟩
    obtain ⟨r, m, hu⟩ := copyAccepted_same s c b
    obtain ⟨hphase, hcopy⟩ := copyAccepted_reads s c b
    exact ⟨by rw [hu], by rw [hu], hphase.trans hp, hcopy⟩
  · refine ⟨_, hrej h0, fun h => absurd h h0, fun _ => ?_⟩
    obtain ⟨r, m, hu⟩ := copyRejected_same s c rest (copyReject s.fusing f)
    have hboot : (s.copyRejected c rest (copyReject s.fusing f)).boot = { s.boot with toTry := rest, tried := s.boot.tried + 1 } := by rw [hu]
    have hphase := (copyRejected_phase s c rest (copyReject s.fusing f)).trans hp
    cases rest with
    | nil =>
      have hfail := (failNow_boot _ 0x10).trans hboot
      exact ⟨congrArg (·.toTry) hfail, congrArg (·.tried) hfail, congrArg (·.accepted) hfail, fun hne => absurd rfl hne,
        fun _ => failNow_noCopy _⟩
    | cons d ds => exact ⟨congrArg (·.toTry) hboot, congrArg (·.tried) hboot, congrArg (·.accepted) hboot, fun _ => hphase, fun h => nomatch h⟩

theorem cistern_reads {l : List SlotImage} (hin : s.inReset = false) (hp : s.phase = 3) :
    ∃ t, exec (.cisternReadDone l) s = .next t ∧ t.phase = 4 ∧
      (restorable l.length (l.filter fun x => slotCandidate x.bytes) = none → t = s.setPhase 4) ∧
      (∀ x, restorable l.length (l.filter fun x => slotCandidate x.bytes) = some x →
        t.cistern.newest = some x.slot ∧ t.cistern.seq = BitVec.ofNat 32 (fieldAt x.bytes 8 4)) := by
  refine ⟨_, exec_cisternReadDone hin hp, ?_⟩
  cases restorable l.length (l.filter fun x => slotCandidate x.bytes) with
  | none => exact ⟨phase_setPhase _ (by decide), fun _ => rfl, fun x h => nomatch h⟩
  | some x =>
    refine ⟨phase_setPhase _ (by decide), fun h => (Option.some_ne_none x h).elim, fun y hy => ?_⟩
    cases hy
    obtain ⟨r, m, hu⟩ := restoreFrom_same { s with cistern := { s.cistern with slotWrites := slotCounts l } } x
    exact ⟨congrArg (·.cistern.newest) hu, congrArg (·.cistern.seq) hu⟩

/-- The load edge leaves what `State.loaded` says, in every register but LZ_BOOT_STATUS (R492). -/
theorem loadEdge_eq {b : List Byte} (ha : s.boot.accepted = some b) (hp : s.phase = 2) : s.loadEdge = s.loadImage b := by
  rw [State.loadEdge, ha]
  exact if_pos hp

theorem loadImage_reg (b : List Byte) {o : Nat} (h : o ≠ oBoot) : (s.loadImage b).reg o = (s.loaded b).reg o := by
  rw [loadImage_eq]
  exact reg_setFld_other _ _ _ _ h

end

/-- Settles O26: each read of start-up writes LZ_BOOT_STATUS and what start-up keeps, and the load edge is a row of parts that write registers of
their own. -/
theorem startUpReads : Obligations.StartUpReads := by
  unfold Obligations.StartUpReads
  refine ⟨fun s hin hp hfr => ?_, fun s h hin hp hw ha => exec_headerA hin hp hw ha, fun s a h hin hp hw ha => headerB_reads hin hp hw ha,
    fun s b c rest hin hp ht => imageCopy_reads hin hp ht, fun s l hin hp => cistern_reads hin hp, fun s b ha hp => ?_⟩
  · exact live_due hin (by simp [hp, hfr])
  · rw [loadEdge_eq ha hp]
    have hreg {o : Nat} (h : o ≠ oBoot) : (s.loadImage b).reg o = (s.loaded b).reg o := loadImage_reg b h
    have hframe : (s.loaded b).frame = s.frame := by obtain ⟨r, m, h⟩ := loaded_same s b; rw [h]
    obtain ⟨hf0, hf1, hf2, hf8⟩ := loaded_flags s b
    refine ⟨phase_setPhase _ (by decide), rfl, congrArg some hframe, rfl, rfl, (flag_congr (hreg (by decide)) 0).trans hf0,
      (flag_congr (hreg (by decide)) 1).trans hf1, (flag_congr (hreg (by decide)) 2).trans hf2, (flag_congr (hreg (by decide)) 8).trans hf8,
      fun i hi => (fld_congr (hreg ?_) 0 40).trans (loaded_mask s b hi), fun i hi => (hreg ?_).trans (loaded_route s b hi),
      fun p hp => (fld_congr (hreg ?_) _ _).trans (loaded_tuning s b hp), fun a ha f hf => (fld_congr (hreg ?_) _ _).trans (loaded_contract s b ha hf),
      fun k hk => ?_, fun o ho hm hr htu hag hs => ?_⟩
    · unfold oMask oBoot; omega
    · unfold oRoute oBoot; omega
    · obtain ⟨e, he, -, ho, -⟩ := tuningWords_fields.1 p hp
      exact ho ▸ (tuning_ne (.inl (by decide)) e he).symm
    · unfold oAg oBoot; omega
    · have hsl : oSl k 0x48 ≠ oBoot := by unfold oSl oBoot; omega
      obtain ⟨htemp, hbudget⟩ := loaded_budget s b hk
      refine ⟨(fld_congr (hreg hsl) 0 8).trans htemp, (fld_congr (hreg hsl) 8 8).trans ?_⟩
      dsimp only
      rw [hbudget, State.evganPresent, State.evganPresent, fld_congr (hreg (by decide)), flag_congr (hreg (by decide))]
    · simp only [List.mem_cons, List.not_mem_nil, or_false, not_or] at ho
      obtain ⟨hboot, hfi, hfl, htk⟩ := ho
      exact (hreg hboot).trans (loaded_reg_other s b hfi hfl htk hm hr htu hag hs)

end Sys2Proof.Machine
end

section
/-! SUPPORT. The statement about the ends of the phases of start-up and the fill engines. -/

namespace Sys2Proof.Machine

/-! ## The fuses stay (R2) through what self-test does -/

section
variable (s : State)

theorem faultDue_fusing (x c : Nat) (d : BitVec 64) : (s.faultDue x c d).fusing = s.fusing := State.setFlag_fusing _ _ _ _

theorem raiseSl_fusing (k i code : Nat) (d : BitVec 64) : (s.raiseSl k i code d).fusing = s.fusing := by
  obtain ⟨r, m, l, h⟩ := raiseSl_same s k i code d
  rw [h]

theorem freeze_fusing (k : Nat) : (s.freeze k).fusing = s.fusing := by
  obtain ⟨r, m, h⟩ := freeze_same s k
  rw [h]

theorem losePair_fusing (f c : Nat) : (s.losePair f c).fusing = s.fusing := by
  unfold State.losePair
  refine Unseen.ite_reads (obs := State.fusing) rfl ?_
  rw [faultDue_fusing, raise_fusing, State.setFlag_fusing, freeze_fusing, freeze_fusing]

theorem retireJournal_fusing (h : Nat) : (s.retireJournal h).fusing = s.fusing := by
  unfold State.retireJournal
  refine Unseen.ite_reads (obs := State.fusing) rfl ?_
  rw [State.updSl_fusing, raiseSl_fusing, faultDue_fusing, State.setFlag_fusing, State.setFlag_fusing]

theorem startFailed_fusing (f c : Nat) (b : Option Nat) : (s.startFailed f c b).fusing = s.fusing := by
  unfold State.startFailed
  refine Unseen.ite_reads (obs := State.fusing) rfl (Unseen.ite_reads (obs := State.fusing) ?_ ?_)
  · rw [losePair_fusing, State.setFld_fusing, State.setFld_fusing]
  · dsimp only
    rw [State.updSl_fusing, State.setFld_fusing, State.setFld_fusing, State.setFld_fusing, freeze_fusing]

theorem copyRow_fusing (h : Nat) (ev : Bool) (set old new : Nat) : (s.copyRow h ev set old new).fusing = s.fusing := by
  cases ev with
  | true => rfl
  | false => exact (flipWord_reads s h (set / 1024) _).1

theorem remap_fusing (h : Nat) (ev : Bool) (set k source : Nat) : (s.remap h ev set k source).fusing = s.fusing := by
  unfold State.remap
  dsimp only
  rw [raiseSl_fusing, State.setReg_fusing, copyRow_fusing]
  refine Unseen.ite_reads (obs := State.fusing) ?_ rfl
  rw [State.setFlag_fusing, State.setFlag_fusing]

theorem startRow_fusing (h : Nat) (ev : Bool) (set : Nat) : (s.startRow h ev set).fusing = s.fusing := by
  unfold State.startRow
  refine Unseen.ite_reads (obs := State.fusing) rfl ?_
  split
  · exact remap_fusing s _ _ _ _ _
  · exact startFailed_fusing s _ _ _

theorem badSpare_fusing (h : Nat) (ev : Bool) (k : Nat) : (s.badSpare h ev k).fusing = s.fusing := by
  unfold State.badSpare
  refine Unseen.ite_reads (obs := State.fusing) ?_ (State.setFlag_fusing _ _ _ _)
  rw [State.updSl_fusing, State.setFlag_fusing, State.setFlag_fusing]

theorem selfResult_fusing (x : SelfFail) : (s.selfResult x).fusing = s.fusing := by
  cases x with
  | row h ev set => exact startRow_fusing s h ev set
  | decoder h b => exact startFailed_fusing s h 5 (some b)
  | conflict h => exact startFailed_fusing s h 3 none
  | pipeline h => exact startFailed_fusing s h 2 none
  | journal h => exact retireJournal_fusing s h
  | store h _ => exact losePair_fusing s h 0
  | spare _ _ _ => rfl
  | router _ => rfl

theorem startFaults_fusing (h : Nat) : (s.startFaults h).fusing = s.fusing := by
  unfold State.startFaults
  have hrows (u : State) : (foldSt (List.range 48) (fun s k => let o := oRemap h k
      if s.flag o 0 && s.fld o 2 2 == 1 then s.faultDue (72 * h + 40) 1 (setDetail (s.fld o 4 14) (if k < 16 then 0 else 1)) else s) u).fusing =
      u.fusing :=
    foldSt_keeps (P := fun v => v.fusing = u.fusing)
      (fun v k hv => Unseen.ite_reads (obs := State.fusing) ((faultDue_fusing _ _ _ _).trans hv) hv) _ rfl
  exact Unseen.ite_reads (obs := State.fusing) ((faultDue_fusing _ _ _ _).trans (hrows s)) (hrows s)

end

/-! ## The end of self-test (R508 to R510) -/

/-- The sets of the hard-failed rows of a slice get other rows (R377). -/
def State.startRows (s : State) (h : Nat) : State :=
  (s.sl h).hardRows.foldl (fun s r => s.startRow h r.1 r.2) (s.updSl h fun sl => { sl with hardRows := [] })

theorem startRows_fusing (s : State) (h : Nat) : (s.startRows h).fusing = s.fusing := by
  unfold State.startRows
  refine (Unseen.foldl_reads (obs := State.fusing) (fun v r => ?_) (s.sl h).hardRows _).trans (State.updSl_fusing s h _)
  exact startRow_fusing v h r.1 r.2

/-- Self-test has given every failure its result. -/
def State.selfTested (s : State) (l : List SelfFail) : State :=
  let s := l.foldl (fun s f => match f with | .spare h ev k => s.badSpare h ev k | _ => s) s
  l.foldl State.selfResult (foldSt (List.range s.nSlices) State.startRows s)

theorem selfTested_fusing (s : State) (l : List SelfFail) : (s.selfTested l).fusing = s.fusing := by
  unfold State.selfTested
  refine (Unseen.foldl_reads (obs := State.fusing) selfResult_fusing l _).trans ?_
  refine (Unseen.foldl_reads (obs := State.fusing) startRows_fusing _ _).trans ?_
  refine Unseen.foldl_reads (obs := State.fusing) (fun u x => ?_) l s
  cases x with
  | spare h ev k => exact badSpare_fusing u h ev k
  | row | decoder | conflict | pipeline | journal | store | router => rfl

/-- A router failed. -/
def routerFailed (l : List SelfFail) : Bool := l.any fun f => match f with | .router _ => true | _ => false

theorem routerFailed_iff (l : List SelfFail) : routerFailed l = true ↔ ∃ r, SelfFail.router r ∈ l := by
  rw [routerFailed, List.any_eq_true]
  refine ⟨fun ⟨f, hf, hr⟩ => ?_, fun ⟨r, hr⟩ => ⟨_, hr, rfl⟩⟩
  cases f with
  | router r => exact ⟨r, hf⟩
  | row | spare | decoder | conflict | pipeline | journal | store => exact absurd hr Bool.false_ne_true

/-- How start-up goes on after self-test: a lost pair stops it before a failed router does (R510). -/
def State.selfTestEnd (u : State) (l : List SelfFail) : State :=
  if u.fld oTakeover 16 8 ≠ 0 then u.failNow 0x12 else if routerFailed l then u.failNow 0x13 else u.setPhase 5

theorem selfTestEnd_same (u : State) (l : List SelfFail) : u.SameButRegs (u.selfTestEnd l) := by
  unfold State.selfTestEnd
  split
  · exact failNow_same u _
  · split
    · exact failNow_same u _
    · exact setPhase_same u 5

theorem selfTestEnd_takeover (u : State) (l : List SelfFail) : (u.selfTestEnd l).fld oTakeover 16 8 = u.fld oTakeover 16 8 := by
  have hfail (code : Nat) (hc : code < 32) : (u.failNow code).fld oTakeover 16 8 = u.fld oTakeover 16 8 := by
    obtain ⟨-, -, -, hreg⟩ := failNow_failed u hc
    exact fld_congr (hreg oTakeover (by decide) (by decide)) 16 8
  unfold State.selfTestEnd
  split
  · exact hfail 0x12 (by decide)
  · split
    · exact hfail 0x13 (by decide)
    · exact fld_setFld_other u _ _ _ _ _ (by decide)

/-- A failure of start-up as LZ_BOOT_STATUS tells it (R514). -/
theorem failNow_phase_code (u : State) {code : Nat} (h : code < 32) : (u.failNow code).phase = 15 ∧ (u.failNow code).fld oBoot 16 5 = code := by
  obtain ⟨hphase, -, hcode, -⟩ := failNow_failed u h
  exact ⟨hphase, hcode⟩

theorem selfTestEnd_reads (u : State) (l : List SelfFail) :
    (u.fld oTakeover 16 8 ≠ 0 → (u.selfTestEnd l).phase = 15 ∧ (u.selfTestEnd l).fld oBoot 16 5 = 0x12) ∧
    (u.fld oTakeover 16 8 = 0 → (∃ r, SelfFail.router r ∈ l) → (u.selfTestEnd l).phase = 15 ∧ (u.selfTestEnd l).fld oBoot 16 5 = 0x13) ∧
    (u.fld oTakeover 16 8 = 0 → (¬ ∃ r, SelfFail.router r ∈ l) → (u.selfTestEnd l).phase = 5) := by
  unfold State.selfTestEnd
  refine ⟨fun hl => ?_, fun hl hr => ?_, fun hl hr => ?_⟩
  · rw [if_pos hl]
    exact failNow_phase_code u (by decide)
  · rw [if_neg (not_not_intro hl), if_pos ((routerFailed_iff l).mpr hr)]
    exact failNow_phase_code u (by decide)
  · rw [if_neg (not_not_intro hl), if_neg fun h => hr ((routerFailed_iff l).mp h)]
    exact phase_setPhase u (by decide)

section
variable {s : State}

theorem exec_selftestDone {l : List SelfFail} (hin : s.inReset = false) (hp : s.phase = 4)
    (hl : (l.all fun f => match selfSlice f with | some h => h < s.nSlices | none => true) = true) :
    exec (.selftestDone l) s = .next (s.held ((s.selfTested l).selfTestEnd l)) := by
  change execSelftestDone l s = _
  unfold execSelftestDone
  exact (congrArg (live s) ((need_of hl _).trans (if_neg (not_not_intro hp)))).trans (live_next hin _)

theorem selftestDone_reads {l : List SelfFail} (hin : s.inReset = false) (hp : s.phase = 4)
    (hl : (l.all fun f => match selfSlice f with | some h => h < s.nSlices | none => true) = true) :
    ∃ t, exec (.selftestDone l) s = .next t ∧
      (t.fld oTakeover 16 8 ≠ 0 → t.phase = 15 ∧ t.fld oBoot 16 5 = 0x12) ∧
      (t.fld oTakeover 16 8 = 0 → (∃ r, SelfFail.router r ∈ l) → t.phase = 15 ∧ t.fld oBoot 16 5 = 0x13) ∧
      (t.fld oTakeover 16 8 = 0 → (¬ ∃ r, SelfFail.router r ∈ l) → t.phase = 5) := by
  refine ⟨_, exec_selftestDone hin hp hl, ?_⟩
  have hfus : ((s.selfTested l).selfTestEnd l).fusing = s.fusing := by
    obtain ⟨r, m, h⟩ := selfTestEnd_same (s.selfTested l) l
    rw [h]
    exact selfTested_fusing s l
  rw [State.phase, State.held_fld s hfus, State.held_fld s hfus, State.held_fld s hfus, selfTestEnd_takeover]
  exact selfTestEnd_reads (s.selfTested l) l

/-! ## The ends of FILL, MEMWAIT and ZERO (R491, R493, R513) -/

/-- A slice with its arrays written. -/
def Slice.filled (v : Slice) : Slice :=
  { v with ondie := [], evgan := [], stage := [], replOn := [], replEv := [], heat := [], journal := [], jflips := [] }

def State.arraysFilled (s : State) : State := foldSt (List.range s.nSlices) (fun s k => s.updSl k Slice.filled) s

/-- The fill changes slices alone. -/
theorem arraysFilled_form (s : State) : ∃ l, s.arraysFilled = { s with slices := l } :=
  foldSt_keeps (P := fun u => ∃ l, u = { s with slices := l })
    (fun u k ⟨l, hu⟩ => ⟨tput k (u.sl k).filled l, by subst hu; rfl⟩) _ ⟨s.slices, rfl⟩

theorem foldl_filled (l : List Nat) {k : Nat} (u : State) (h : k ∈ l ∨ (u.sl k).filled = u.sl k) :
    ((foldSt l (fun s k => s.updSl k Slice.filled) u).sl k).filled = (foldSt l (fun s k => s.updSl k Slice.filled) u).sl k := by
  induction l generalizing u with
  | nil => exact h.resolve_left List.not_mem_nil
  | cons j l ih =>
    refine ih (u.updSl j Slice.filled) ?_
    by_cases hj : k = j
    · subst hj
      exact .inr (by rw [State.updSl_sl_same]; rfl)
    · exact h.imp (fun hm => (List.mem_cons.mp hm).resolve_left hj) fun hu => by rw [State.updSl_sl_other u hj]; exact hu

theorem arraysFilled_sl {k : Nat} (hk : k < s.nSlices) : (s.arraysFilled.sl k).filled = s.arraysFilled.sl k :=
  foldl_filled _ s (.inl (List.mem_range.mpr hk))

/-- Phase ZERO begins, or MEMWAIT: only start-up's own state changes. -/
def State.arraysDone (u : State) : State := if u.portsUp then u.enterZero else u.setPhase 6

theorem enterZero_phase (u : State) : u.enterZero.phase = 7 := phase_setPhase _ (by decide)

theorem arraysDone_phase (u : State) : u.arraysDone.phase = if u.portsUp then 7 else 6 := by
  unfold State.arraysDone
  split
  · exact enterZero_phase u
  · exact phase_setPhase u (by decide)

theorem enterZero_reg (u : State) {o : Nat} (h : o ≠ oBoot) : u.enterZero.reg o = u.reg o :=
  reg_setFld_other { u with boot := { u.boot with zeroAt := u.frame } } _ _ _ h

theorem enterZero_keeps (u : State) : u.enterZero.fusing = u.fusing ∧ u.enterZero.slices = u.slices := ⟨rfl, rfl⟩

theorem arraysDone_keeps (u : State) : u.arraysDone.fusing = u.fusing ∧ u.arraysDone.slices = u.slices := by
  unfold State.arraysDone
  split
  · exact enterZero_keeps u
  · exact ⟨rfl, rfl⟩

theorem arrayFillDone_reads (hin : s.inReset = false) (hp : s.phase = 5) :
    ∃ t, exec .arrayFillDone s = .next t ∧ t.phase = (if s.portsUp then 7 else 6) ∧
      ∀ k, k < s.nSlices → (t.sl k).ondie = [] ∧ (t.sl k).evgan = [] ∧ (t.sl k).stage = [] ∧ (t.sl k).replOn = [] ∧ (t.sl k).journal = [] := by
  refine ⟨s.held s.arraysFilled.arraysDone, ?_, ?_, fun k hk => ?_⟩
  · change execArrayFillDone s = _
    unfold execArrayFillDone
    exact (congrArg (live s) (if_neg (not_not_intro hp))).trans (live_next hin _)
  · obtain ⟨l, hform⟩ := arraysFilled_form s
    have hfus : s.arraysFilled.arraysDone.fusing = s.fusing := (arraysDone_keeps _).1.trans (by rw [hform])
    rw [State.phase, State.held_fld s hfus]
    refine (arraysDone_phase _).trans ?_
    rw [hform]
    rfl
  · have hsl : (s.held s.arraysFilled.arraysDone).sl k = (s.arraysFilled.sl k).filled := by
      rw [arraysFilled_sl hk, State.sl, State.held_slices, (arraysDone_keeps s.arraysFilled).2, State.sl]
    rw [hsl]
    exact ⟨rfl, rfl, rfl, rfl, rfl⟩

/-- A port reports up, and the last one ends MEMWAIT. -/
def State.portUp (s : State) (p : Nat) : State :=
  let u := s.setFlag oFill (40 + p) true
  if u.phase = 6 && u.portsUp then u.enterZero else u

theorem setFlag_fill_phase (s : State) (b : Nat) (v : Bool) : (s.setFlag oFill b v).phase = s.phase :=
  fld_congr (reg_setFlag_other s _ _ (by decide)) 0 4

theorem portUp_fusing (s : State) (p : Nat) : (s.portUp p).fusing = s.fusing :=
  Unseen.ite_reads (obs := State.fusing) ((enterZero_keeps _).1.trans (State.setFlag_fusing s _ _ _)) (State.setFlag_fusing s _ _ _)

theorem portUp_flag (s : State) {p : Nat} (hp : p < 12) : (s.portUp p).flag oFill (40 + p) = true := by
  have hup : (s.setFlag oFill (40 + p) true).flag oFill (40 + p) = true := flag_setFlag_same _ _ _ _ (by omega)
  exact Unseen.ite_reads (obs := fun u => u.flag oFill (40 + p)) ((flag_congr (enterZero_reg _ (by decide)) _).trans hup) hup

theorem portUp_phase (s : State) (p : Nat) :
    (s.portUp p).phase = if s.phase = 6 ∧ (s.setFlag oFill (40 + p) true).portsUp = true then 7 else s.phase := by
  simp only [State.portUp, setFlag_fill_phase, Bool.and_eq_true, decide_eq_true_eq]
  split
  · exact enterZero_phase _
  · exact setFlag_fill_phase s _ _

theorem memoryPortUp_reads {p : Nat} (hin : s.inReset = false) (hp : p < 12) :
    ∃ t, exec (.memoryPortUp p) s = .next t ∧ t.flag oFill (40 + p) = true ∧
      t.phase = (if s.phase = 6 ∧ (s.setFlag oFill (40 + p) true).portsUp = true then 7 else s.phase) := by
  refine ⟨s.held (s.portUp p), ?_, ?_, ?_⟩
  · change execMemoryPortUp p s = _
    unfold execMemoryPortUp
    exact (congrArg (live s) (need_of (decide_eq_true hp) _)).trans (live_next hin _)
  · exact (State.held_flag s (portUp_fusing s p) _ _).trans (portUp_flag s hp)
  · exact (State.held_fld s (portUp_fusing s p) _ _ _).trans (portUp_phase s p)

/-- The faults of start-up go to the fault record (R513). -/
def State.startFaultsDue (s : State) : State := foldSt (List.range s.nSlices) State.startFaults s
/-- The block as it enters service. -/
def State.serviceEntered (s : State) : State := { (s.startFaultsDue.setFlag oBoot 4 true).setPhase 8 with ready := true }

theorem serviceEntered_fusing (s : State) : s.serviceEntered.fusing = s.fusing :=
  Unseen.foldl_reads (obs := State.fusing) startFaults_fusing _ s

theorem serviceEntered_reg (s : State) (o : Nat) : s.serviceEntered.reg o = ((s.startFaultsDue.setFlag oBoot 4 true).setPhase 8).reg o := rfl

theorem serviceEntered_reads (s : State) : s.serviceEntered.phase = 8 ∧ s.serviceEntered.flag oBoot 4 = true := by
  rw [State.phase, fld_congr (serviceEntered_reg s oBoot), flag_congr (serviceEntered_reg s oBoot)]
  refine ⟨phase_setPhase _ (by decide), ?_⟩
  rw [State.setPhase, flag_setFld_apart _ _ _ _ _ _ (by decide), flag_setFlag_same _ _ _ _ (by decide)]

theorem blockReady_reads (hin : s.inReset = false) (hp : s.phase = 7) (hz : s.boot.zeroAt < s.frame) (hd : s.usedPorts.all s.fillDone = true) :
    ∃ t, exec .blockReady s = .next t ∧ t.ready = true ∧ t.phase = 8 ∧ t.flag oBoot 4 = true := by
  refine ⟨s.held (s.edgeDo State.serviceEntered), live_due hin (by simp [hp, hz, hd]), rfl, ?_⟩
  obtain ⟨hphase, hready⟩ := serviceEntered_reads s
  have hreg := held_edgeDo_reg s (f := State.serviceEntered) (serviceEntered_fusing s) oBoot
  exact ⟨(fld_congr hreg 0 4).trans hphase, (flag_congr hreg 4).trans hready⟩

/-! ## What a fill engine sends (R511, R512) -/

/-- Writes that the engine of a port has offered in this frame. -/
def State.fillOffered (s : State) (p : Nat) : Nat := if (s.fillEngine p).offered.1 = s.frame then (s.fillEngine p).offered.2 else 0
/-- A failed write that goes again, and a free tag. -/
def State.fillResend (s : State) (p : Nat) : Option (Nat × Nat × Nat) := (s.fillEngine p).resend.find? fun w => w.2.2 < s.frame
@[inherit_doc State.fillResend] def State.fillTag (s : State) (p : Nat) : Option Nat :=
  (List.range 256).find? fun t => !((s.fillEngine p).waiting.any fun w => w.1 == t)

/-- The engine with one more offer in this frame. -/
def State.fillOffer (s : State) (p : Nat) : FillEngine := { s.fillEngine p with offered := (s.frame, s.fillOffered p + 1) }
/-- The engine that has sent a failed write again, or the next line. -/
def State.fillRetried (s : State) (p : Nat) (w : Nat × Nat × Nat) : FillEngine :=
  { s.fillOffer p with
    resend := (s.fillEngine p).resend.erase w
    waiting := (s.fillEngine p).waiting.map fun v => if v.1 = w.1 then (v.1, v.2.1, s.frame) else v }
@[inherit_doc State.fillRetried] def State.fillAdvanced (s : State) (p r l i : Nat) : FillEngine :=
  { s.fillOffer p with range := r, pos := l + 1, waiting := (s.fillEngine p).waiting ++ [(i, l, s.frame)] }

/-- A write leaves for a port. -/
def State.fillSent (s : State) (p : Nat) (e : FillEngine) (m : Msg) : State := (s.setEngine p e).send s.frame (.mem p) m

theorem fillSent_reads (s : State) (p : Nat) (e : FillEngine) (m : Msg) :
    (s.fillSent p e m).out = s.out ++ [⟨s.frame, .mem p, m⟩] ∧ (s.fillSent p e m).regs = s.regs ∧ (s.fillSent p e m).fillEngine p = e :=
  ⟨rfl, rfl, tget_tput_same _ _ p _⟩

variable {p : Nat}

theorem exec_fill_full (hin : s.inReset = false) (hp : p < 12) (hn : 24 ≤ s.fillOffered p) : exec (.fillWriteSend p) s = .next s := by
  change execFillWriteSend p s = _
  unfold execFillWriteSend
  rw [need_of (decide_eq_true hp)]
  have hg : (decide (s.phase ≠ 7) || decide (24 ≤ s.fillOffered p)) = true := by rw [decide_eq_true hn, Bool.or_true]
  exact (congrArg (live s) (if_pos hg)).trans (live_next hin s)

/-- With writes left in the frame, a failed one goes first. -/
theorem exec_fill_open (hp : p < 12) (h7 : s.phase = 7) (hn : s.fillOffered p < 24) : exec (.fillWriteSend p) s = live s (
    match s.fillResend p with
    | some w => .next (s.fillSent p (s.fillRetried p w) (fillMsg w.1 w.2.1))
    | none =>
      match s.fillNext p, s.fillTag p with
      | some (r, l), some i => .next (s.fillSent p (s.fillAdvanced p r l i) (fillMsg i l))
      | _, _ => .next s) := by
  change execFillWriteSend p s = _
  unfold execFillWriteSend
  rw [need_of (decide_eq_true hp)]
  have hg : ¬ (decide (s.phase ≠ 7) || decide (24 ≤ s.fillOffered p)) = true := by simp [h7, hn]
  exact congrArg (live s) (if_neg hg)

variable (hin : s.inReset = false) (hp : p < 12) (h7 : s.phase = 7)
include hin hp h7

theorem exec_fill_resend (hn : s.fillOffered p < 24) {w : Nat × Nat × Nat} (ha : s.fillResend p = some w) :
    ∃ t, exec (.fillWriteSend p) s = .next t ∧ t.out = s.out ++ [⟨s.frame, .mem p, fillMsg w.1 w.2.1⟩] ∧ t.regs = s.regs ∧
      (t.fillEngine p).resend = (s.fillEngine p).resend.erase w ∧ (t.fillEngine p).offered = (s.frame, s.fillOffered p + 1) := by
  refine ⟨s.fillSent p (s.fillRetried p w) (fillMsg w.1 w.2.1), ?_, ?_⟩
  · rw [exec_fill_open hp h7 hn, ha]
    exact live_next hin _
  · obtain ⟨hout, hregs, he⟩ := fillSent_reads s p (s.fillRetried p w) (fillMsg w.1 w.2.1)
    rw [he]
    exact ⟨hout, hregs, rfl, rfl⟩

theorem exec_fill_next (hn : s.fillOffered p < 24) (ha : s.fillResend p = none) {r l i : Nat} (hl : s.fillNext p = some (r, l))
    (ht : s.fillTag p = some i) :
    ∃ t, exec (.fillWriteSend p) s = .next t ∧ t.out = s.out ++ [⟨s.frame, .mem p, fillMsg i l⟩] ∧ t.regs = s.regs ∧
      (t.fillEngine p).waiting = (s.fillEngine p).waiting ++ [(i, l, s.frame)] ∧ (t.fillEngine p).pos = l + 1 ∧
      (t.fillEngine p).offered = (s.frame, s.fillOffered p + 1) := by
  refine ⟨s.fillSent p (s.fillAdvanced p r l i) (fillMsg i l), ?_, ?_⟩
  · rw [exec_fill_open hp h7 hn, ha, hl, ht]
    exact live_next hin _
  · obtain ⟨hout, hregs, he⟩ := fillSent_reads s p (s.fillAdvanced p r l i) (fillMsg i l)
    rw [he]
    exact ⟨hout, hregs, rfl, rfl, rfl⟩

theorem exec_fill_idle (hn : s.fillOffered p < 24) (ha : s.fillResend p = none) (h : s.fillNext p = none ∨ s.fillTag p = none) :
    exec (.fillWriteSend p) s = .next s := by
  rw [exec_fill_open hp h7 hn, ha]
  rcases h with h | h
  · rw [h]
    exact live_next hin s
  · rw [h]
    cases s.fillNext p with
    | none => exact live_next hin s
    | some x => exact live_next hin s

end

/-- Settles O28: every end of a phase is one write of LZ_BOOT_STATUS after what the phase has done, and a fill engine has four answers. -/
theorem phasesEndAndFillsAreSent : Obligations.PhasesEndAndFillsAreSent := by
  unfold Obligations.PhasesEndAndFillsAreSent
  refine ⟨⟨fun s l hin hp hl => selftestDone_reads hin hp hl, fun s hin hp => arrayFillDone_reads hin hp,
    fun s p hin hp => memoryPortUp_reads hin hp, fun s hin hp hz hd => blockReady_reads hin hp hz hd⟩, fun s p hin hp h7 => ?_⟩
  exact ⟨exec_fill_full hin hp, fun hn _ => exec_fill_resend hin hp h7 hn, fun hn ha _ _ _ => exec_fill_next hin hp h7 hn ha,
    exec_fill_idle hin hp h7⟩

end Sys2Proof.Machine
end
